-- ==== Sys2Proof/Word.lean ====
section
/-! DEFINITION. The word types of the QX2 and their plainest arithmetic (00 R8, R9; 06 R217). -/

namespace Sys2Proof

/-- A byte of any memory (00 R9). -/
abbrev Byte := BitVec 8

/-- A half-word of an instruction line (05 R183). -/
abbrev Half := BitVec 16

/-- The 64-bit word of a general register (06 R217). -/
abbrev Word := BitVec 64

/-- A register number w0-w15 (05 R198). -/
abbrev Reg := BitVec 4

/-- A program counter: line address in [51:6], head index in [5:0] (05 R188). -/
abbrev Pc := BitVec 52

/-- The word read as a signed integer, i64 (04 R159). -/
abbrev Word.signed (x : Word) : Int := x.toInt

/-- Does a register number name the even half of a pair (05 R198)? -/
abbrev Reg.even (r : Reg) : Bool := !r.getLsbD 0

end Sys2Proof
end

