-- ==== Sys2Proof/Config.lean ====
section
/-! DEFINITION. What the spec fixes for stepping B0 (00 R2, R4-R6), and the free values: what the spec leaves open.
A free value is opaque: nothing can evaluate it or prove a value of it. -/

namespace Sys2Proof.Config

/-- Cores of a package (00 R2). -/
def numCores : Nat := 1024
/-- Clusters of a package (00 R2). -/
def numClusters : Nat := 64
/-- Memory servers (00 R2). -/
def numServers : Nat := 256
/-- Dies (00 R2). -/
def numDies : Nat := 4
/-- Bytes of a core's LM (00 R2). -/
def lmSize : Nat := 0x60000
/-- First byte of the system area, and so the size of the segment area (01 R14). -/
def segArea : Nat := 0x58000
/-- First byte of the process area (01 R13). -/
def procArea : Nat := 0x5C000
/-- Bytes of a CM (02 R78). -/
def cmSize : Nat := 0x800000
/-- First byte of the spill rings, the end of the CM a program may use (14 R453). -/
def cmUser : Nat := 0x780000
/-- Bytes of a DM (02 R78). -/
def dmSize : Nat := 0x6000000
/-- Bytes of a DM quarter (15 R466). -/
def dmQuarter : Nat := 0x1800000
/-- Process slots of a core (01 R14). -/
def numSlots : Nat := 64
/-- Endpoints of a core (01 R28). -/
def numEndpoints : Nat := 256
/-- Headers a core's header store holds (14 R445). -/
def headerStore : Nat := 1024
/-- Cycles of a slice (01 R21). -/
def slice : Nat := 4096
/-- The encoding hash of stepping B0 (00 R2, 05 R203). -/
def hash : Nat := 0x4E1D97A3
/-- The deadline that never passes (01 R43). -/
def never : Word := 0xFFFFFFFFFFFFFFFF

/-- A byte of a tentative version made at a revoked snapshot, where the transaction's snapshot reads no version any more (02 R104, R106): line and
place. -/
opaque revokedByte : Nat → Nat → Byte
/-- The tags of such a version: line. -/
opaque revokedTags : Nat → BitVec 8
/-- The poison bit of such a version: line. -/
opaque revokedPoison : Nat → Bool

/-- Which free TXID the timestamp service hands out (02 R107: "programs must not depend on which"). -/
opaque txidChoice : Nat → Nat
/-- Which of the allowed FP32 results an approximate function returns (09 R341: a fixed function of its input):
the function's code, the input's bits, the number of allowed results. -/
opaque approxChoice : Nat → Word → Nat → Nat
/-- The encoded reply of a protocol whose encodings the spec does not give (16 R498, R501): the request's number. -/
opaque replyBits : Nat → Word
/-- The bytes of a firmware image that its digest covers; the spec does not give its layout (16 R502, 18 R531). -/
opaque imageBody : List Byte → List Byte
/-- The bytes that the digest of a partition's page-table pages covers: how the pages are put together is not given (16 R502). The pages, each with its
DPA, in the order of the DVAs they serve. -/
opaque tableBody : List (Nat × List Byte) → List Byte
/-- The standing energy of a unit in one millisecond, in 1/256 pJ, which no rule gives a number for (15 R484): a number that tells the
milliseconds apart, the rail, and the unit: a core, or 1024 for what is the rail's as a whole. -/
opaque standing : Nat → Nat → Nat → Nat
/-- Lines of a range entry that the server's pool scrub goes over in one millisecond (15 R484): a number that tells the milliseconds apart, the
entry. -/
opaque poolScrub : Nat → Nat → Nat
/-- Mesh hops of a route between routers of two dies, which the spec does not lay out (02 R96, 15 R538): from and to, each a die,
x and y as one number. -/
opaque routeHops : Nat → Nat → Nat

/-- The data of a granted transfer whose sender was killed and its slot reclaimed meanwhile (01 R37): header and byte. -/
opaque lostByte : Nat → Nat → Byte

/-- A byte of a core's image where the spec gives no layout (14 R444, R452: barrier network state, journal commands, header store, the place
of a header in it): core, hold count, image offset. -/
opaque imageByte : Nat → Nat → Nat → Byte

/-- An endpoint in a queue-pair descriptor, whose layout the spec does not give (16 R504): the descriptor as a number, and which (0 completion, 1
delivery, 2 announcement); core times 256 plus index. -/
opaque qpField : Nat → Nat → Nat

/-- A byte that a host read finds in a poisoned line (16 R495): DVA. -/
opaque poisonByte : Nat → Byte

/-- KIND and UNIT of the log entry of a link event, for which the spec's table has no code (16 R490, 17 R513): 0 kind, 1 + i unit of port i. -/
opaque linkLog : Nat → Nat

/-- A DPA in a row of a server's HBM, whose place the spec does not give (17 R517): server, and bank, pseudo-channel and row as one number. -/
opaque rowAddr : Nat → Nat → Nat

/-- Which word of an access on the chip an uncorrectable error lies in, when the event names none (17 R516): a number that tells the errors apart. -/
opaque badWord : Nat → Nat

/-- The row of a server's HBM that holds a line's in-place version (17 R517), as bank, pseudo-channel and row in one number: server and line. -/
opaque rowOf : Nat → Nat → BitVec 24
/-- The row that holds a pool or tentative version of a line, which the spec does not give: server, line and the version's timestamp. -/
opaque poolRow : Nat → Nat → Nat → BitVec 24

/-- A server's directory cache, whose size and replacement the spec does not give, misses the entry that an operation needs (17 R509): server, line and
a number that tells the operations apart. -/
opaque directoryMiss : Nat → Nat → Nat → Bool

/-- The home in another package of a 128-byte line there (02 R84, 03 R135): package, partition and line, in a numbering of that package's homes. -/
opaque farHome : Nat → Nat → Nat → Nat

end Sys2Proof.Config
end

