-- ==== Sys2Proof/Syntax.lean ====
section
/-! DEFINITION. The rows of the opcode table: one constructor of `Instr` per row.
Rows 0-218 are instructions (05 R199, R200); rows 219-352 are the device's own steps (spec/95): an arrival, a broadcast,
a host write, a reset. A step of the second kind carries as arguments what its rule leaves to the outside world. -/

namespace Sys2Proof

/-- Fields of a returning atomic (07 R260): width `m`, scope `sc`, ordering `ord`, destination `a`, base `b`,
operand `c`, byte displacement `d`. -/
structure AtomOps where
  m : BitVec 2
  sc : BitVec 2
  ord : BitVec 2
  a : Reg
  b : Reg
  c : Reg
  d : BitVec 20
  deriving DecidableEq, Repr

/-- Fields of a reduction (07 R266): `rel` is the .REL ordering. -/
structure RedOps where
  m : BitVec 2
  sc : BitVec 2
  rel : Bool
  b : Reg
  c : Reg
  d : BitVec 20
  deriving DecidableEq, Repr

/-- Fields of a class V instruction (05 R197, 09 R324). -/
structure VOps where
  a : Reg
  m : BitVec 2
  b : Reg
  c : Reg
  e : Reg
  rnd : BitVec 3
  sat : Bool
  inc : BitVec 3
  str : BitVec 3
  x10 : BitVec 10
  deriving DecidableEq, Repr

/-- A mailbox command as firmware takes it: the function that wrote MBCMD, the sequence number, MBARG0-MBARG3 (16 R496, R497). -/
structure MbOps where
  fn : Nat
  seqn : BitVec 16
  a0 : Word
  a1 : Word
  a2 : Word
  a3 : Word
  deriving DecidableEq, Repr

/-- What the error-correcting code finds at a read (17 R515, R516): nothing, errors it corrects, an error it cannot correct, both in different
code words, or a directory entry that it cannot correct. -/
inductive Ecc where
  | clean
  | corrected
  | uncorrectable
  | mixed
  | directory
  deriving DecidableEq, Repr

/-- A row of a server's HBM (17 R517): bank, pseudo-channel and row, with the remap entry's fields. -/
structure RowId where
  bank : BitVec 6
  pc : Bool
  row : BitVec 17
  deriving DecidableEq, Repr

/-- A row that a server spares, and its versions that cannot be corrected (17 R518), each by its line and its place among the line's versions: 0 the
in-place one, then the pool's, newest first, then the tentative ones. -/
structure SpareRow where
  row : RowId
  lost : List (Nat × Nat)
  deriving DecidableEq, Repr

/-- What a port sees of a lane (16 R490): it lost lock, or had so many symbol errors in a millisecond. -/
structure LaneErrors where
  lane : Nat
  lostLock : Bool
  errors : Nat
  deriving DecidableEq, Repr

/-- A function's register block and whether the write comes through the physical function's view of it (14 R430, 16 R496). -/
structure BlockView where
  fn : Nat
  pf : Bool
  deriving DecidableEq, Repr

/-- What a copy's transfer moves (10 R380): piece `piece` is read from the source, or written to the destination; with `line` the pieces of its
128-byte line after it too. -/
structure CopyMove where
  write : Bool
  piece : Nat
  line : Bool
  deriving DecidableEq, Repr

/-- How the verification of a firmware image ends (18 R531, R532). -/
inductive PushVerdict where
  | good
  | badSig
  | rollback
  | dmaError
  deriving DecidableEq, Repr

/-- A unit that reports ready (18 R527, R528). -/
inductive UnitId where
  | cluster (c : Nat)
  | server (s : Nat)
  | solomPort (p : Nat)
  | scalePort (p : Nat)
  | timestampService
  | madder
  | placement
  deriving DecidableEq, Repr

/-- A unit whose parity or residue check fires (17 R519). -/
inductive ParityUnit where
  | server (s : Nat)
  | residue (g : Nat)
  | secondResidue (g : Nat)
  | meshFlit
  deriving DecidableEq, Repr

/-- The kinds of far access a Solom packet carries (16 R494): a read of bytes, of a capability granule, of a block's tags, a scrub of a
line, a store (`cap`: of a capability granule, with its tag; `bad`: for a copy, which bytes a poisoned line gave), an atomic or reduction. -/
inductive FarOp where
  | load (n : Nat)
  | loadCap (gated : Bool)
  | loadTags
  | scrub
  | store (bytes : List Byte) (tag cap : Bool) (bad : List Bool)
  | atomic (op : BitVec 4) (width : Nat) (bf16 : Bool) (v x : Word)
  deriving DecidableEq, Repr

/-- What a packet carries (16 R489, R494); `ident` names the request or header at the package that asked. -/
inductive PacketBody where
  /-- A far access: identity, minting partition, far epoch, address in that partition's space, operation. -/
  | access (ident part : Nat) (epoch : BitVec 8) (dva : BitVec 52) (op : FarOp)
  /-- The reply to a far access: its identity and the value, tags and flags, or a trap cause; for a scrub, tags are the line's two bits. -/
  | reply (ident : Nat) (bytes : List Byte) (tags : BitVec 8) (flags : BitVec 5) (cause : BitVec 4)
  /-- A channel header: identity, partition, endpoint and generation, element, and whether it is a third-party delivery. -/
  | header (ident part : Nat) (g idx : Nat) (gen : BitVec 32) (kind : BitVec 2) (len : Nat) (bytes : List Byte) (tag failed third : Bool)
  /-- The grant of a header, and the data that answers a grant (01 R36, R39). -/
  | headerGrant (ident : Nat)
  | headerData (ident : Nat) (bytes : List Byte)
  /-- The acceptance, done message (`ok`) or closed reply with its cause for a header. -/
  | headerReply (ident : Nat) (ok : Bool) (cause : BitVec 4)
  /-- The destination's ingress has packet number n of its source (16 R488). -/
  | arrived (n : Nat)
  /-- Packet number n of its source met a failed hop and comes back (16 R488). -/
  | returned (n : Nat)
  deriving DecidableEq, Repr

/-- A packet (16 R486-R489): source and destination package, the source's number for it, the dye that caused it (00 R12), the ports of the
stamped route still to be taken, and whether it travels on the second virtual channel. -/
structure Packet where
  src : BitVec 12
  dst : BitVec 12
  num : Nat
  dye : BitVec 16
  route : List Nat
  vc : Bool
  body : PacketBody
  deriving DecidableEq, Repr

/-- A packet received by a scale-out port (16 R504). `ack` and `fail` answer this side's own work requests. -/
inductive ScalePacket where
  | unauthentic
  | write (dva : BitVec 52) (bytes : List Byte)
  | read (dva : BitVec 52) (len : Nat)
  | send (bytes : List Byte)
  | ack (wid : Nat) (bytes : List Byte)
  | fail (wid : Nat) (cause : BitVec 4)
  deriving DecidableEq, Repr

/-- A packet with its transport sequence number (16 R504): for a request, its place in the other side's posting order, the same however often it is
sent; an answer's counts for nothing. The packet counter of its nonce tells only that it is authentic. -/
structure ScaleArrival where
  seq : Nat
  packet : ScalePacket
  deriving DecidableEq, Repr

/-- The rows of the opcode table, in the table's order, but for UNALLOCATED_OPCODE, which follows the instructions. -/
inductive Instr where
  /-- NOP (R248). -/
  | nop
  /-- ADD (R225). -/
  | add (a b c : Reg)
  /-- SUB (R225). -/
  | sub (a b c : Reg)
  /-- MUL (R225). -/
  | mul (a b c : Reg)
  /-- MULH (R225). -/
  | mulh (a b c : Reg)
  /-- MULHU (R225). -/
  | mulhu (a b c : Reg)
  /-- MULHSU (R225). -/
  | mulhsu (a b c : Reg)
  /-- DIV (R225). -/
  | div (a b c : Reg)
  /-- DIVU (R225). -/
  | divu (a b c : Reg)
  /-- REM (R225). -/
  | rem (a b c : Reg)
  /-- REMU (R225). -/
  | remu (a b c : Reg)
  /-- AND (R225). -/
  | and (a b c : Reg)
  /-- OR (R225). -/
  | or (a b c : Reg)
  /-- XOR (R225). -/
  | xor (a b c : Reg)
  /-- ANDN (R225). -/
  | andn (a b c : Reg)
  /-- SHL (R225). -/
  | shl (a b c : Reg)
  /-- SHR (R225). -/
  | shr (a b c : Reg)
  /-- SAR (R225). -/
  | sar (a b c : Reg)
  /-- ROR (R225). -/
  | ror (a b c : Reg)
  /-- MIN (R225). -/
  | min (a b c : Reg)
  /-- MINU (R225). -/
  | minu (a b c : Reg)
  /-- MAX (R225). -/
  | max (a b c : Reg)
  /-- MAXU (R225). -/
  | maxu (a b c : Reg)
  /-- CSET (R226). -/
  | cset (a b c : Reg) (f : BitVec 3)
  /-- SEL (R228). -/
  | sel (a b c d : Reg)
  /-- CLZ (R225). -/
  | clz (a b : Reg)
  /-- CTZ (R225). -/
  | ctz (a b : Reg)
  /-- POPC (R225). -/
  | popc (a b : Reg)
  /-- BREV (R225). -/
  | brev (a b : Reg)
  /-- SXB (R225). -/
  | sxb (a b : Reg)
  /-- SXH (R225). -/
  | sxh (a b : Reg)
  /-- SXW (R225). -/
  | sxw (a b : Reg)
  /-- ZXW (R225). -/
  | zxw (a b : Reg)
  /-- ADDI (R230). -/
  | addi (a b : Reg) (i : BitVec 12)
  /-- ANDI (R230). -/
  | andi (a b : Reg) (i : BitVec 12)
  /-- ORI (R230). -/
  | ori (a b : Reg) (i : BitVec 12)
  /-- XORI (R230). -/
  | xori (a b : Reg) (i : BitVec 12)
  /-- SHLI (R230). -/
  | shli (a b : Reg) (i : BitVec 6)
  /-- SHRI (R230). -/
  | shri (a b : Reg) (i : BitVec 6)
  /-- SARI (R230). -/
  | sari (a b : Reg) (i : BitVec 6)
  /-- RORI (R230). -/
  | rori (a b : Reg) (i : BitVec 6)
  /-- SEQI (R230). -/
  | seqi (a b : Reg) (i : BitVec 12)
  /-- SNEI (R230). -/
  | snei (a b : Reg) (i : BitVec 12)
  /-- SLTI (R230). -/
  | slti (a b : Reg) (i : BitVec 12)
  /-- SLTUI (R230). -/
  | sltui (a b : Reg) (i : BitVec 12)
  /-- MOVI_U (R231). -/
  | moviU (a : Reg) (i : BitVec 16)
  /-- MOVI_U_ZERO (R231). -/
  | moviUZero (a : Reg) (i : BitVec 16)
  /-- MOVI_K (R231). -/
  | moviK (a : Reg) (i : BitVec 32)
  /-- MOVI_K_ZERO (R231). -/
  | moviKZero (a : Reg) (i : BitVec 32)
  /-- MOVI_X (R231). -/
  | moviX (a : Reg) (i : BitVec 64)
  /-- BFX (R235). -/
  | bfx (a b : Reg) (p w : BitVec 6)
  /-- BFI (R235). -/
  | bfi (a b : Reg) (p w : BitVec 6)
  /-- LEA (R233). -/
  | lea (a b c : Reg) (x : Bool) (sc : BitVec 3) (d : BitVec 20)
  /-- LEAP (R234). -/
  | leap (a : Reg) (d : BitVec 26) (h : BitVec 6)
  /-- BR_J (R237). -/
  | brJ (d : BitVec 10) (h : BitVec 6)
  /-- BR_L (R237). -/
  | brL (d : BitVec 26) (h : BitVec 6)
  /-- BEQ (R237). -/
  | beq (a b : Reg) (d : BitVec 22) (h : BitVec 6)
  /-- BNE (R237). -/
  | bne (a b : Reg) (d : BitVec 22) (h : BitVec 6)
  /-- BLT (R237). -/
  | blt (a b : Reg) (d : BitVec 22) (h : BitVec 6)
  /-- BGE (R237). -/
  | bge (a b : Reg) (d : BitVec 22) (h : BitVec 6)
  /-- BLTU (R237). -/
  | bltu (a b : Reg) (d : BitVec 22) (h : BitVec 6)
  /-- BGEU (R237). -/
  | bgeu (a b : Reg) (d : BitVec 22) (h : BitVec 6)
  /-- LOOP (R237). -/
  | loop (a : Reg) (d : BitVec 10) (h : BitVec 6)
  /-- BRX (R238). -/
  | brx (a : Reg)
  /-- CALL (R238). -/
  | call (d : BitVec 26) (h : BitVec 6)
  /-- CALLR (R238). -/
  | callr (a : Reg)
  /-- RET (R238). -/
  | ret
  /-- LD (R243). -/
  | ld (m : BitVec 2) (sx : Bool) (a b : Reg) (d : BitVec 20)
  /-- ST (R243). -/
  | st (m : BitVec 2) (a b : Reg) (d : BitVec 20)
  /-- LDP (R243). -/
  | ldp (a b : Reg) (d : BitVec 20)
  /-- STP (R243). -/
  | stp (a b : Reg) (d : BitVec 20)
  /-- LDC (R245). -/
  | ldc (a b : Reg) (d : BitVec 20)
  /-- STC (R245). -/
  | stc (a b : Reg) (d : BitVec 20)
  /-- LDCG (R246). -/
  | ldcg (a b : Reg) (d : BitVec 20)
  /-- STCG (R246). -/
  | stcg (a b : Reg) (d : BitVec 20)
  /-- MOVP (R247). -/
  | movp (a b : Reg)
  /-- LDG (R258). -/
  | ldg (m sc : BitVec 2) (acq sx : Bool) (a b : Reg) (d : BitVec 20)
  /-- STG (R258). -/
  | stg (m sc : BitVec 2) (rel : Bool) (a b : Reg) (d : BitVec 20)
  /-- LDGP (R258). -/
  | ldgp (sc : BitVec 2) (acq : Bool) (a b : Reg) (d : BitVec 20)
  /-- STGP (R258). -/
  | stgp (sc : BitVec 2) (rel : Bool) (a b : Reg) (d : BitVec 20)
  /-- AADD (R261). -/
  | aadd (o : AtomOps)
  /-- AAND (R261). -/
  | aand (o : AtomOps)
  /-- AOR (R261). -/
  | aor (o : AtomOps)
  /-- AXOR (R261). -/
  | axor (o : AtomOps)
  /-- AMIN (R261). -/
  | amin (o : AtomOps)
  /-- AMINU (R261). -/
  | aminu (o : AtomOps)
  /-- AMAX (R261). -/
  | amax (o : AtomOps)
  /-- AMAXU (R261). -/
  | amaxu (o : AtomOps)
  /-- AXCHG (R261). -/
  | axchg (o : AtomOps)
  /-- ACAS (R261). -/
  | acas (o : AtomOps)
  /-- AFADD (R261). -/
  | afadd (o : AtomOps)
  /-- REDADD (R266). -/
  | redadd (o : RedOps)
  /-- REDAND (R266). -/
  | redand (o : RedOps)
  /-- REDOR (R266). -/
  | redor (o : RedOps)
  /-- REDXOR (R266). -/
  | redxor (o : RedOps)
  /-- REDMIN (R266). -/
  | redmin (o : RedOps)
  /-- REDMINU (R266). -/
  | redminu (o : RedOps)
  /-- REDMAX (R266). -/
  | redmax (o : RedOps)
  /-- REDMAXU (R266). -/
  | redmaxu (o : RedOps)
  /-- REDFADD (R266). -/
  | redfadd (o : RedOps)
  /-- FENCE (R142). -/
  | fence (m : BitVec 2)
  /-- FENCER (R143). -/
  | fencer (m : BitVec 2) (b c : Reg)
  /-- SNAPSET (R271). -/
  | snapset (a : Reg)
  /-- SNAPREG (R271). -/
  | snapreg (a : Reg)
  /-- SNAPREL (R272). -/
  | snaprel
  /-- TXB (R275). -/
  | txb (a : Reg)
  /-- TXC (R276). -/
  | txc (a : Reg)
  /-- TXA (R277). -/
  | txa
  /-- PUB (R279). -/
  | pub (a : Reg)
  /-- RDTO (R282). -/
  | rdto (a b c : Reg)
  /-- RDTO_WITH_REPORT (R282). -/
  | rdtoWithReport (a b c : Reg) (f : BitVec 8)
  /-- RDTOX (R282). -/
  | rdtox (a b c : Reg)
  /-- RDTOX_WITH_REPORT (R282). -/
  | rdtoxWithReport (a b c : Reg) (f : BitVec 8)
  /-- RDTOG (R282). -/
  | rdtog (a b c : Reg)
  /-- RDTOG_WITH_REPORT (R282). -/
  | rdtogWithReport (a b c : Reg) (f : BitVec 8)
  /-- RDTOGX (R282). -/
  | rdtogx (a b c : Reg)
  /-- RDTOGX_WITH_REPORT (R282). -/
  | rdtogxWithReport (a b c : Reg) (f : BitVec 8)
  /-- LDTAG (R288). -/
  | ldtag (a b : Reg) (d : BitVec 20)
  /-- CHOPEN (R296). -/
  | chopen (a b c : Reg)
  /-- CHCLOSE (R297). -/
  | chclose (a : Reg)
  /-- SEND (R299). -/
  | send (a b : Reg)
  /-- SENDB (R299). -/
  | sendb (a b c : Reg)
  /-- SENDT (R299). -/
  | sendt (a : BitVec 3) (b : Reg)
  /-- SENDH (R299). -/
  | sendh (a b : Reg)
  /-- RECV (R303). -/
  | recv (a : Reg) (t : Bool) (b c d : Reg)
  /-- RECVB (R303). -/
  | recvb (a : Reg) (t : Bool) (b c d : Reg)
  /-- RECVT (R303). -/
  | recvt (a : BitVec 3) (t : Bool) (b c d : Reg)
  /-- RECVH (R303). -/
  | recvh (a : Reg) (t : Bool) (b c d : Reg)
  /-- ALTP (R306). -/
  | altp (a : Reg) (t : Bool) (b c d : Reg) (n : BitVec 4)
  /-- ALTF (R306). -/
  | altf (a : Reg) (t : Bool) (b c d : Reg) (n : BitVec 4)
  /-- SPAWN (R308). -/
  | spawn (a b c : Reg) (p : BitVec 2)
  /-- STOP (R310). -/
  | stop
  /-- JOIN (R303). -/
  | join (a : Reg) (t : Bool) (b c d : Reg)
  /-- YIELD (R311). -/
  | yield
  /-- SETPRI (R312). -/
  | setpri (a : Reg)
  /-- TIME (R313). -/
  | time (a : Reg)
  /-- TWAIT (R314). -/
  | twait (a : Reg)
  /-- BARA (R316). -/
  | bara (sc : BitVec 3)
  /-- BARW (R316). -/
  | barw (a : Reg) (t : Bool) (b : Reg) (sc : BitVec 3)
  /-- BARX (R316). -/
  | barx (a : Reg) (t : Bool) (b : Reg) (sc : BitVec 3)
  /-- RDEN (R318). -/
  | rden (a b : Reg) (f : Bool)
  /-- RDSV (R319). -/
  | rdsv (a : Reg) (f : BitVec 8)
  /-- VSETL (R322). -/
  | vsetl (a b : Reg) (t : BitVec 8)
  /-- VADD (R336). -/
  | vadd (o : VOps)
  /-- VSUB (R336). -/
  | vsub (o : VOps)
  /-- VMUL (R336). -/
  | vmul (o : VOps)
  /-- VDIV (R336). -/
  | vdiv (o : VOps)
  /-- VFMA (R337). -/
  | vfma (o : VOps)
  /-- VMIN (R337). -/
  | vmin (o : VOps)
  /-- VMAX (R337). -/
  | vmax (o : VOps)
  /-- VABS (R337). -/
  | vabs (o : VOps)
  /-- VNEG (R337). -/
  | vneg (o : VOps)
  /-- VCMP (R338). -/
  | vcmp (o : VOps)
  /-- VSEL (R339). -/
  | vsel (o : VOps)
  /-- VAND (R337). -/
  | vand (o : VOps)
  /-- VOR (R337). -/
  | vor (o : VOps)
  /-- VXOR (R337). -/
  | vxor (o : VOps)
  /-- VNOT (R337). -/
  | vnot (o : VOps)
  /-- VSHL (R337). -/
  | vshl (o : VOps)
  /-- VSHR (R337). -/
  | vshr (o : VOps)
  /-- VSAR (R337). -/
  | vsar (o : VOps)
  /-- VCVT (R342). -/
  | vcvt (o : VOps)
  /-- VEXP2 (R341). -/
  | vexp2 (o : VOps)
  /-- VLOG2 (R341). -/
  | vlog2 (o : VOps)
  /-- VRCP (R341). -/
  | vrcp (o : VOps)
  /-- VRSQ (R341). -/
  | vrsq (o : VOps)
  /-- VTANH (R341). -/
  | vtanh (o : VOps)
  /-- VSQRT (R341). -/
  | vsqrt (o : VOps)
  /-- VRED (R344). -/
  | vred (o : VOps)
  /-- VSCAN (R345). -/
  | vscan (o : VOps)
  /-- VBCAST (R346). -/
  | vbcast (o : VOps)
  /-- VPERM (R347). -/
  | vperm (o : VOps)
  /-- VGATHER (R348). -/
  | vgather (o : VOps)
  /-- VSCATTER (R348). -/
  | vscatter (o : VOps)
  /-- VRAND (R350). -/
  | vrand (o : VOps)
  /-- VMOV (R337). -/
  | vmov (o : VOps)
  /-- VFLG (R349). -/
  | vflg (a : Reg) (m : BitVec 2)
  /-- VSADD (R337). -/
  | vsadd (o : VOps)
  /-- VSSUB (R337). -/
  | vssub (o : VOps)
  /-- VMULH (R337). -/
  | vmulh (o : VOps)
  /-- TACQ (R359). -/
  | tacq
  /-- TREL (R359). -/
  | trel
  /-- TSET (R365). -/
  | tset (a : BitVec 3) (b : Reg)
  /-- TLD (R366). -/
  | tld (a : BitVec 3) (b c : Reg) (mx : Bool) (d : BitVec 20)
  /-- TST (R366). -/
  | tst (a : BitVec 3) (b c : Reg) (mx : Bool) (d : BitVec 20)
  /-- TZC_C (R368). -/
  | tzcC (a : BitVec 3)
  /-- TZC_T (R368). -/
  | tzcT (a : BitVec 3)
  /-- TMMA_BF16 (R370). -/
  | tmmaBf16 (a b c : BitVec 3)
  /-- TMMA_F16 (R370). -/
  | tmmaF16 (a b c : BitVec 3)
  /-- TMMA_E4M3 (R370). -/
  | tmmaE4m3 (a b c : BitVec 3)
  /-- TMMA_E5M2 (R370). -/
  | tmmaE5m2 (a b c : BitVec 3)
  /-- TMMA_MXF8 (R370). -/
  | tmmaMxf8 (a b c : BitVec 3)
  /-- TMMA_MXF6 (R370). -/
  | tmmaMxf6 (a b c : BitVec 3)
  /-- TMMA_MXF4 (R370). -/
  | tmmaMxf4 (a b c : BitVec 3)
  /-- TMMA_I8 (R370). -/
  | tmmaI8 (a b c : BitVec 3)
  /-- TCVT (R371). -/
  | tcvt (a b : BitVec 3) (c : Reg) (i32 : Bool) (r : BitVec 3) (sat : Bool)
  /-- TTRAN (R372). -/
  | ttran (a b : BitVec 3)
  /-- TLDC (R367). -/
  | tldc (a : BitVec 3) (b c : Reg) (d : BitVec 20)
  /-- TSTC (R367). -/
  | tstc (a : BitVec 3) (b c : Reg) (d : BitVec 20)
  /-- CPSET (R378). -/
  | cpset (b : Reg) (f : BitVec 4)
  /-- CPGO (R379). -/
  | cpgo (a : Reg)
  /-- CPWAIT (R388). -/
  | cpwait (a : Reg)
  /-- RGWAIT (R394). -/
  | rgwait (a b : Reg)
  /-- RGREL (R395). -/
  | rgrel (a b : Reg)
  /-- SCRUB (R396). -/
  | scrub (a b c : Reg)
  /-- TRAP (R422). -/
  | trap (a : Reg) (i : BitVec 12)
  /-- ERET (R416). -/
  | eret
  /-- KRD (R412). -/
  | krd (a b : Reg) (t : Bool) (n : BitVec 11)
  /-- KWR (R412). -/
  | kwr (a b : Reg) (t : Bool) (n : BitVec 11)
  /-- RESUME (R421). -/
  | resume (a b : Reg)
  /-- KILL (R421). -/
  | kill (a b : Reg)
  /-- MINT_GROUP (R423). -/
  | mintGroup (a b c : Reg) (f : BitVec 2)
  /-- MINT_FAR_POINTER (R423). -/
  | mintFarPointer (a b c : Reg) (f : BitVec 4)
  /-- RIGHTS (R424). -/
  | rights (a b c : Reg)
  /-- PLBINV (R425). -/
  | plbinv (b c : Reg)
  /-- IFENCE (R426). -/
  | ifence
  /-- WAITI (R427). -/
  | waiti (a : Reg)
  /-- QUIESCE (R428). -/
  | quiesce (a : Reg) (m : Bool)
  /-- BRK (R422). -/
  | brk
  /-- UNALLOCATED_OPCODE (R201). -/
  | unallocatedOpcode (w : BitVec 16)
  /-- LINE_PREFETCH (R194). -/
  | linePrefetch (g : Nat)
  /-- SLICE_END (R21). -/
  | sliceEnd (g : Nat)
  /-- PRIORITY_0_PREEMPTION (R48). -/
  | priority0Preemption (g : Nat)
  /-- DEADLINE_COMPARISON (R44). -/
  | deadlineComparison (g : Nat)
  /-- CHANNEL_HEADER_ARRIVAL (R35). -/
  | channelHeaderArrival (n : Nat)
  /-- HEADER_RESEND (R445). -/
  | headerResend (n : Nat)
  /-- TRANSFER_GRANT (R36). -/
  | transferGrant (n : Nat)
  /-- TRANSFER_DONE (R36). -/
  | transferDone (n : Nat)
  /-- DONE_MESSAGE (R36). -/
  | doneMessage (n : Nat)
  /-- GRANTED_DATA_ARRIVAL (R38). -/
  | grantedDataArrival (n : Nat)
  /-- ACCEPTANCE (R39). -/
  | acceptance (n : Nat)
  /-- CLOSED_REPLY (R40). -/
  | closedReply (n : Nat)
  /-- LOAD_DATA_ARRIVAL (R85). -/
  | loadDataArrival (n : Nat)
  /-- ERROR_RESPONSE (R251). -/
  | errorResponse (n : Nat)
  /-- DEFERRED_FAULT_TRAP (R251). -/
  | deferredFaultTrap (g : Nat)
  /-- WRITE_QUEUE_DRAIN (R90). -/
  | writeQueueDrain (c k : Nat)
  /-- STORE_ACKNOWLEDGEMENT (R139). -/
  | storeAcknowledgement (n : Nat)
  /-- HOME_READ (R128). -/
  | homeRead (n : Nat) (e : Ecc)
  /-- HOME_WRITE (R101). -/
  | homeWrite (n : Nat)
  /-- HOME_ATOMIC (R86). -/
  | homeAtomic (n : Nat) (e : Ecc)
  /-- ATOMIC_WATCHDOG (R86). -/
  | atomicWatchdog (n : Nat)
  /-- TRANSLATION_WALK (R459). -/
  | translationWalk (c : Nat) (dva : BitVec 52)
  /-- PLB_MISS (R467). -/
  | plbMiss (g : Nat) (dva : BitVec 52)
  /-- SNAPSHOT_REQUEST (R99). -/
  | snapshotRequest (k : Nat)
  /-- EPOCH_MARKER (R99). -/
  | epochMarker (k srv : Nat)
  /-- EPOCH_MARKER_ACKNOWLEDGEMENT (R99). -/
  | epochMarkerAcknowledgement (k srv : Nat)
  /-- SNAPSHOT_REPLY (R536). -/
  | snapshotReply (k : Nat)
  /-- WATERMARK_BROADCAST (R100). -/
  | watermarkBroadcast (srv v : Nat)
  /-- VHELD_BROADCAST (R146). -/
  | vheldBroadcast (g v : Nat)
  /-- FIRN_LINE_BROADCAST (R115). -/
  | firnLineBroadcast (srv : Nat)
  /-- PREPARE (R109). -/
  | prepare (tx srv : Nat)
  /-- VOTE (R108). -/
  | vote (tx srv : Nat)
  /-- APPLY (R110). -/
  | apply (tx srv : Nat)
  /-- ABORT_TXID (R108). -/
  | abortTxid (tx srv : Nat)
  /-- ABORT_ACKNOWLEDGEMENT (R107). -/
  | abortAcknowledgement (tx srv : Nat)
  /-- PUBLISH_APPLY (R114). -/
  | publishApply (k srv : Nat)
  /-- COPY_REGISTRATION (R379). -/
  | copyRegistration (g slot : Nat)
  /-- REVOCATION (R117). -/
  | revocation (line : Nat)
  /-- REVOCATION_NOTICE (R273). -/
  | revocationNotice (g ts : Nat)
  /-- ABLATION_RECLAIM (R511). -/
  | ablationReclaim (line ts : Nat)
  /-- SOURCE_READ (R124). -/
  | sourceRead (k u : Nat) (e : Ecc)
  /-- THIRD_PARTY_DELIVERY (R120). -/
  | thirdPartyDelivery (k i : Nat)
  /-- FAILED_VOID_DELIVERY (R123). -/
  | failedVoidDelivery (k i : Nat)
  /-- ERROR_COMPLETION (R123). -/
  | errorCompletion (k : Nat)
  /-- REPORT (R284). -/
  | report (k : Nat)
  /-- COPY_TRANSFER (R380). -/
  | copyTransfer (c id : Nat) (u : CopyMove) (e : Ecc)
  /-- COPY_COMPLETION (R151). -/
  | copyCompletion (c id : Nat)
  /-- TILE_COMMAND_START (R375). -/
  | tileCommandStart (g : Nat)
  /-- TILE_COMMAND_COMPLETE (R363). -/
  | tileCommandComplete (g : Nat)
  /-- BARRIER_ARRIVAL (R317). -/
  | barrierArrival (g slot : Nat)
  /-- BARRIER_RELEASE (R59). -/
  | barrierRelease (part lid sc unit : Nat)
  /-- FROST_SWEEP (R66). -/
  | frostSweep (part lid g : Nat)
  /-- SWEEP_RESULT (R67). -/
  | sweepResult (part lid : Nat)
  /-- COMPLETION_RECORD (R447). -/
  | completionRecord (fn : Nat)
  /-- NRGO (R432). -/
  | nrgo (fn : Nat)
  /-- LAUNCH (R437). -/
  | launch (fn : Nat) (w : Word)
  /-- LAUNCH_START (R438). -/
  | launchStart (fn : Nat)
  /-- NETDEL (R432). -/
  | netdel (fn : Nat) (w : Word)
  /-- CRCONS (R447). -/
  | crcons (fn : Nat) (w : Word)
  /-- ABORT (R439). -/
  | abort (fn : Nat) (w : Word)
  /-- HOLD (R451). -/
  | hold (fn : Nat) (w : Word)
  /-- REGISTER_WRITE (R430). -/
  | registerWrite (fn : BlockView) (off : Nat) (w : Word)
  /-- HELD (R450). -/
  | held (part : Nat)
  /-- PARTITION_RESUME (R454). -/
  | partitionResume (part : Nat)
  /-- QUOTA_COMPARISON (R456). -/
  | quotaComparison
  /-- METER_FLUSH (R482). -/
  | meterFlush (u : Nat)
  /-- CORRECTION_FACTOR (R483). -/
  | correctionFactor (rail measured : Nat)
  /-- EQUOTA (R482). -/
  | equota (part : Nat) (w : Word)
  /-- CREATE (R474). -/
  | create (node part : Nat)
  /-- DESTROY (R475). -/
  | destroy (part : Nat)
  /-- MERGE (R475). -/
  | merge (node : Nat)
  /-- SPLIT (R475). -/
  | split (node part : Nat)
  /-- RETIRE (R476). -/
  | retire (quad part : Nat)
  /-- BAD_OP (R473). -/
  | badOp (op : BitVec 4)
  /-- PTMAP (R497). -/
  | ptmap (o : MbOps) (tables : List Nat)
  /-- PTUNMAP (R497). -/
  | ptunmap (o : MbOps)
  /-- DOMSET (R465). -/
  | domset (o : MbOps)
  /-- RANGESET (R470). -/
  | rangeset (o : MbOps)
  /-- CEWEIGHT (R480). -/
  | ceweight (o : MbOps)
  /-- FARMAP (R493). -/
  | farmap (o : MbOps)
  /-- FAREPOCH (R497). -/
  | farepoch (o : MbOps)
  /-- QPCREATE (R504). -/
  | qpcreate (o : MbOps)
  /-- QPRESET (R505). -/
  | qpreset (o : MbOps)
  /-- SPAREROW (R517). -/
  | sparerow (o : MbOps) (row : SpareRow)
  /-- POISONSET (R525). -/
  | poisonset (o : MbOps)
  /-- MAILBOX_BAD_OP (R496). -/
  | mailboxBadOp (o : MbOps) (op : BitVec 8)
  /-- DBELL (R427). -/
  | dbell (fn : Nat) (w : Word)
  /-- SRES (R496). -/
  | sres (fn : Nat) (w : Word)
  /-- SKILL (R496). -/
  | skill (fn : Nat) (w : Word)
  /-- FLCONS (R496). -/
  | flcons (fn : Nat) (w : Word)
  /-- HVGO (R520). -/
  | hvgo (fn : Nat) (w : Word)
  /-- HARVEST_END (R521). -/
  | harvestEnd (fn lines : Nat)
  /-- RCGO (R532). -/
  | rcgo (fn : Nat) (w : Word) (ok : Bool)
  /-- PODCFG (R530). -/
  | podcfg (w : Word)
  /-- PERST_DEASSERT (R526). -/
  | perstDeassert
  /-- UNIT_READY (R528). -/
  | unitReady (u : UnitId) (pass : Bool) (failedQuads : List Nat)
  /-- FUNCTION_LEVEL_RESET (R503). -/
  | functionLevelReset (fn : Nat)
  /-- PHYSICAL_FUNCTION_RESET (R535). -/
  | physicalFunctionReset
  /-- FLIT_RECEIVE (R489): number, whether the CRC matches, the acknowledgement field: the number after the last flit taken in order; the packet
  that the flit completes, if it completes one. -/
  | flitReceive (port : Nat) (seqn : BitVec 12) (crcGood : Bool) (ack : BitVec 12) (p : Option Packet)
  /-- NEGATIVE_ACKNOWLEDGEMENT (R489). -/
  | negativeAcknowledgement (port : Nat) (seqn : BitVec 12)
  /-- LANE_FAILURE (R490). -/
  | laneFailure (port : Nat) (lane : LaneErrors)
  /-- DEAD_LIST (R488). -/
  | deadList (pkgs links : List Nat)
  /-- PACKET_RETURN (R488). -/
  | packetReturn (k : Nat)
  /-- UNREACHABLE_WATCHDOG (R491). -/
  | unreachableWatchdog (k : Nat)
  /-- WORK_REQUEST (R504). -/
  | workRequest (n : Nat)
  /-- SCALE_OUT_PACKET (R504). -/
  | scaleOutPacket (port qp : Nat) (p : ScaleArrival)
  /-- RETRANSMIT (R504). -/
  | retransmit (port qp : Nat)
  /-- BAR2_READ (R495). -/
  | bar2Read (fn addr n : Nat)
  /-- BAR2_WRITE (R495). -/
  | bar2Write (fn addr : Nat) (bytes : List Byte)
  /-- LOCK_INTERFACE (R498). -/
  | lockInterface (fn : Nat)
  /-- START_INTERFACE (R498). -/
  | startInterface (fn : Nat)
  /-- STOP_INTERFACE (R498). -/
  | stopInterface (fn : Nat)
  /-- GET_DEVICE_INTERFACE_REPORT (R498). -/
  | getDeviceInterfaceReport (fn : Nat)
  /-- IDE_KM (R499). -/
  | ideKm (fn : Nat) (keyed : Bool)
  /-- KEY_LOAD (R499). -/
  | keyLoad (fn slot : Nat) (key : BitVec 256) (fixed : BitVec 32) (start : Word)
  /-- KEY_DROP (R499). -/
  | keyDrop (fn slot : Nat)
  /-- GET_VERSION (R501). -/
  | getVersion (fn : Nat)
  /-- GET_CAPABILITIES (R501). -/
  | getCapabilities (fn : Nat)
  /-- NEGOTIATE_ALGORITHMS (R501). -/
  | negotiateAlgorithms (fn : Nat)
  /-- GET_DIGESTS (R501). -/
  | getDigests (fn : Nat)
  /-- GET_CERTIFICATE (R501). -/
  | getCertificate (fn : Nat)
  /-- CHALLENGE (R501). -/
  | challenge (fn : Nat)
  /-- GET_MEASUREMENTS (R502). -/
  | getMeasurements (fn idx : Nat) (signed : Bool)
  /-- KEY_EXCHANGE (R501). -/
  | keyExchange (fn : Nat)
  /-- FINISH (R501). -/
  | finish (fn : Nat) (verified : Bool)
  /-- END_SESSION (R501). -/
  | endSession (fn : Nat)
  /-- ROWSPARE (R518). -/
  | rowspare (srv : Nat) (row : SpareRow)
  /-- PARITY (R519). -/
  | parity (u : ParityUnit)
  /-- ELEMENT_GROUP (R333). -/
  | elementGroup (g : Nat)
  /-- CONFIGURATION_WRITE (R498). -/
  | configurationWrite (fn : Nat)
  /-- LINK_RETRAINING_END (R489). -/
  | linkRetrainingEnd (port : Nat) (up : Bool)
  /-- FIRMWARE_IMAGE_VERIFIED (R531). -/
  | firmwareImageVerified (verdict : PushVerdict) (svn : BitVec 32) (raises : Bool) (root : Nat)
  /-- POD_SYNCHRONISATION (R530). -/
  | podSynchronisation (ns : Nat)
  deriving DecidableEq, Repr

end Sys2Proof
end

