-- ==== Sys2Proof/Machine/State.lean ====
section
/-! DEFINITION. The state of a QX2 package as plain data, and its value right after reset.
INVENTORY.md lists every piece with the rule of spec/ that names it. -/

namespace Sys2Proof.Machine

/-- A sparse table: entries in ascending key order; an absent key has the default its reader names. -/
abbrev Tbl (α : Type) := List (Nat × α)

/-- A memory: (address, byte) pairs, addresses strictly rising, no zero byte listed; an unlisted byte reads zero
(01 R55, 18 R528; for host memory log entry 3). -/
abbrev Mem := List Host.Cell

/-- The agents that send and receive messages (00 R4-R6, 02 R84, R536). -/
inductive Node where
  | core (g : Nat)
  | cluster (c : Nat)
  | dm (d : Nat)
  | server (s : Nat)
  | host
  | tss
  | egress
  | scale (p : Nat)
  deriving DecidableEq, Repr

/-- A process named over its slot's lifetime (13 R410 PREF): core, slot, slot generation. -/
structure PRef where
  g : Nat
  slot : Nat
  gen : BitVec 16
  deriving DecidableEq, Repr

/-- A launch named by its function and launch id (14 R437); id 0 for a steward process. -/
structure LRef where
  fn : Nat
  lid : Nat
  deriving DecidableEq, Repr

/-- Process states (01 R20); `parked` is PKT or PKH with the remembered state (13 R409). -/
inductive PState where
  | ready | running | chan | timer | barrier | stopped
  deriving DecidableEq, Repr

/-- Trap causes, codes 1 to 15 (13 R413). -/
inductive Cause where
  | xlate | bounds | rights | poison | revoked | closed | type | illegal | line | priv | align | segment | captag
  | watchdog | break_
  deriving DecidableEq, Repr

/-- Where an address lies (02 R78, R84, R87): an LM, CM or DM byte; an HBM byte by DPA with its server; a host byte
by I/O virtual address; a byte of another package by far-map entry (16 R493). -/
inductive Loc where
  | lm (g off : Nat)
  | cm (c off : Nat)
  | dm (d off : Nat)
  | hbm (srv dpa : Nat)
  | host (iova : Nat)
  | far (pkg part : Nat) (epoch : BitVec 8) (dva : Nat)
  deriving DecidableEq, Repr

/-- How an HBM read chooses its version (02 R103-R106, 03 R145). -/
inductive ReadMode where
  | current (vseen : Nat)
  | snapshot (ts : Nat)
  | tx (txid ts : Nat)
  deriving DecidableEq, Repr

/-- The owner of a tentative version (02 R97): a transaction or a write set of a launch. -/
inductive Owner where
  | tx (txid : Nat)
  | set (l : LRef) (id : Nat)
  deriving DecidableEq, Repr

/-- The operations of 07 R261. -/
inductive AtOp where
  | add | and | or | xor | min | minu | max | maxu | xchg | cas | fadd
  deriving DecidableEq, Repr

/-- What a request asks of a home (07 R257-R266, R288, 10 R396: one line of a scrub, by its place). A capability
read is gated by the G right for LDCG (06 R246), not for a group's descriptor (07 R282). -/
inductive GOp where
  | read (n : Nat)
  | readCap (gated : Bool)
  | readTags
  | write (bytes : List Byte) (tag : Bool) (own : Option Owner) (floor : Nat)
  | atomic (op : AtOp) (width : Nat) (bf16 : Bool) (x v : Word) (floor : Nat) (returns : Bool)
  | scrub (line : Nat)
  deriving DecidableEq, Repr

/-- What an outstanding split-phase operation writes when it returns (07 R258, R261, R246, R288, 10 R396). -/
inductive Dest where
  | reg (a : Reg) (bytes : Nat) (signed : Bool)
  | pair (a : Reg) (cap : Bool)
  | tags (a : Reg)
  | scrub (a : Reg) (lines done : Nat) (fixed bad : Word)
  /-- Member i of the group descriptor that RDTOG reads at issue (07 R282). -/
  | desc (i : Nat)
  deriving DecidableEq, Repr

/-- An outstanding operation of a process (02 R85, 07 R252): identity, program order, PC, address and bytes, destination. -/
structure Out where
  oid : Nat
  seq : Nat
  pc : Pc
  ea : Word
  len : Nat
  dest : Dest
  acquire : Bool
  /-- The location it reads, when it is a load (03 R136). -/
  loc : Option Loc := none
  /-- Its response brings floating-point flags (07 R264). -/
  flags : Bool := false
  deriving DecidableEq, Repr

/-- How a write leaves its core (02 R89, R92): straight to its home, through the cluster write queue, on through the egress queue; or a
reduction for a memory server, the host or another package (07 R252). -/
inductive StoreKind where
  | direct | queued | far | reduction
  deriving DecidableEq, Repr

/-- A write or reduction not yet acknowledged (03 R139, 07 R252). -/
structure StoreRec where
  oid : Nat
  seq : Nat
  pc : Pc
  ea : Word
  len : Nat
  kind : StoreKind
  deriving DecidableEq, Repr

/-- A pending deferred fault (07 R250, R251): program order, cause, faulting PC, INFO. -/
structure PFault where
  seq : Nat
  cause : Cause
  fpc : Pc
  info : Word
  deriving DecidableEq, Repr

/-- Phase of an instruction that waits at its head (03 R139-R143, 07 R271-R280, 10 R379, 13 R428). -/
inductive Wait where
  | none
  /-- Drain markers placed: every older entry of the cluster write queue, then of the egress queue, must leave first. -/
  | marks (pc : Pc) (wq : Nat) (eq : Option Nat)
  /-- A snapshot was asked for under request k. -/
  | snap (pc : Pc) (k : Nat)
  /-- TXC sent PREPARE. -/
  | txc (pc : Pc)
  /-- PUB's request has reached the service: the copies that count (07 R280), by their places in the order. -/
  | pubCopies (pc : Pc) (copies : List Nat)
  /-- PUB has its timestamp. -/
  | pub (pc : Pc) (ts : Nat)
  /-- A tagged copy is being registered; done tells that the service has replied. What CPGO has read of LM: the crypto descriptor, the ring's IP, and D. -/
  | copyReg (pc : Pc) (done : Bool) (desc : List Byte) (ip d : Nat)
  /-- RDTOG reads its group's descriptor: members that have come, with a clear tag as none, and a fault. -/
  | desc (pc : Pc) (got : List (Nat × Option (BitVec 128))) (fault : Option Cause)
  /-- A vector instruction is in progress (09 R333, 10 R373): its place in the scoreboard, the physical intervals that it reads and writes, and the
  element that VBCAST has read (09 R346). -/
  | vec (pc : Pc) (id : Nat) (reads writes : Int × Int) (elem : Option Nat)
  /-- QUIESCE waits until its hold has settled; whether the hold was already as requested. -/
  | quiesce (pc : Pc) (was : Bool)
  deriving DecidableEq, Repr

/-- What a blocked process waits for (01 R25, R35, R38; 08 R299-R316, 13 R427): `pc` is the blocking instruction's own. -/
inductive Blk where
  | none
  | send (pc : Pc) (hid : Nat) (ek : BitVec 2) (a : Reg) (addr len : Nat)
  | recv (pc : Pc) (e : Nat) (ek : BitVec 2) (a c : Reg) (addr : Nat) (join : Bool)
  /-- ALT, with its enabled guards' endpoints. -/
  | alt (pc : Pc) (guards : List Nat)
  | timer (pc : Pc)
  | barrier (pc : Pc) (a : Reg) (sc : Nat)
  | doorbell (pc : Pc) (a : Reg)
  /-- The reply trap that the next dispatch takes at the sending instruction (08 R299). -/
  | replyTrap (pc : Pc) (cause : Cause)
  deriving DecidableEq, Repr

/-- A process: its workspace and PSB (13 R409, R410) and what the core keeps beside them: `acks` the stamps of acknowledged writes above
the floor, with address and length (03 R143). -/
structure Proc where
  regs : Vector Word 16
  tags : BitVec 8
  pc : Pc
  ten : BitVec 16
  flags : BitVec 5
  ap : Bool
  sm : Bool
  h : Bool
  stw : Bool
  mode : Bool
  pceil : BitVec 2
  pri : BitVec 2
  rseq : BitVec 16
  dye : BitVec 16
  live : BitVec 16
  dmk : BitVec 16
  snap : Word
  vl : BitVec 17
  vty : BitVec 8
  txid : BitVec 13
  tcode : BitVec 12
  trh : Pc
  tpc : Pc
  tinfo : Word
  aps : BitVec 3
  rot : BitVec 4
  tcause : BitVec 4
  tfpc : Pc
  tvrc : BitVec 20
  vrc : BitVec 20
  vrpc : Pc
  cpn : Word
  floor : Word
  vseen : Word
  xidx : BitVec 8
  xv : Bool
  repl : BitVec 48
  pkh : Bool
  pkt : Bool
  state : PState
  stg : BitVec 6
  nextSlot : BitVec 6
  sl : BitVec 19
  sb : BitVec 19
  deadline : Word
  staging : Vector Word 13
  copies : List (Nat × Word)
  outs : List Out
  stores : List StoreRec
  faults : List PFault
  ackMax : Nat
  acks : List (Nat × Nat × Nat)
  wait : Wait
  blk : Blk
  lid : BitVec 16
  netH : BitVec 24
  bars : BitVec 5
  arrPhase : Nat
  lastPc : Pc
  slice : Nat
  seq : Nat
  deriving DecidableEq, Repr

/-- A process as SPAWN and the launch sequencer leave it before they write their values (01 R54, R55, 13 R409): zero but
for LIVE and DMK; no deadline. -/
def Proc.zero : Proc where
  regs := Vector.replicate 16 0
  tags := 0
  pc := 0
  ten := 0
  flags := 0
  ap := false
  sm := false
  h := false
  stw := false
  mode := false
  pceil := 0
  pri := 0
  rseq := 0
  dye := 0
  live := 0xFFFF
  dmk := 0x0FC0
  snap := 0
  vl := 0
  vty := 0
  txid := 0
  tcode := 0
  trh := 0
  tpc := 0
  tinfo := 0
  aps := 0
  rot := 0
  tcause := 0
  tfpc := 0
  tvrc := 0
  vrc := 0
  vrpc := 0
  cpn := 0
  floor := 0
  vseen := 0
  xidx := 0
  xv := false
  repl := 0
  pkh := false
  pkt := false
  state := .ready
  stg := 0
  nextSlot := 0
  sl := 0
  sb := 0
  deadline := Config.never
  staging := Vector.replicate 13 0
  copies := []
  outs := []
  stores := []
  faults := []
  ackMax := 0
  acks := []
  wait := .none
  blk := .none
  lid := 0
  netH := 0
  bars := 0
  arrPhase := 0
  lastPc := 0
  slice := 0
  seq := 0

/-- Who sent a channel header (01 R31, 02 R120, 13 R417, 16 R491, R504). -/
inductive Sender where
  | proc (p : PRef)
  /-- Member i of third-party read k. -/
  | third (k i : Nat)
  /-- The report of third-party read k (07 R284). -/
  | report (k : Nat)
  /-- The fault descriptor of a parked process (13 R417). -/
  | trap (p : PRef)
  /-- An exit word or the failed void delivery of a killed child (08 R309). -/
  | exit (p : PRef)
  /-- A scale-out port's delivery, announcement or completion word (16 R504, R505). -/
  | scale (port qp : Nat) (completion : Bool)
  /-- A header from another package, by its identity there (16 R489). -/
  | far (pkg ident : Nat)
  deriving DecidableEq, Repr

/-- A channel header with what travels with it (01 R36, R38, R39): the element's bytes (a word or a handle in the header, a
buffered block or tile with it, else empty), the handle's tag, and the mark of a failed void delivery (02 R123). -/
structure Hdr where
  hid : Nat
  from_ : Sender
  part : Nat
  dye : BitVec 16
  gen : BitVec 32
  ek : BitVec 2
  len : Nat
  bytes : List Byte
  tag : Bool
  failed : Bool
  launch : LRef
  /-- A third-party delivery that came from another package (02 R120). -/
  third : Bool := false
  deriving DecidableEq, Repr

/-- States of an endpoint (01 R34, 14 R444 STATE). -/
inductive EpState where
  | closed | empty | waitr | guard | pend | xfer | buffered | forwarding
  deriving DecidableEq, Repr

/-- One slot of a buffered endpoint in slot order (01 R38): filled or reserved for the header named; a filled slot may hold a
failed void delivery. -/
structure Slot where
  filled : Bool
  failed : Bool
  hid : Nat
  deriving DecidableEq, Repr

/-- An endpoint of a core's channel table (01 R28-R40, 14 R444). `hq` holds queued or refused headers in arrival order,
`grant` the header whose transfer is in progress, `xword` the exit word, `child` the slot of an exit endpoint's child (08 R309). -/
structure Endp where
  st : EpState
  ek : BitVec 2
  esz : BitVec 12
  mode : Bool
  depth : BitVec 5
  owner : Nat
  acc : BitVec 16
  gen : BitVec 32
  ring : BitVec 32
  exit : Bool
  xword : Word
  hq : List Hdr
  grant : Option Hdr
  slots : List Slot
  hs : Nat
  child : Option Nat
  fwd : Nat × Nat
  closing : Bool
  deriving DecidableEq, Repr

/-- A closed endpoint that was never opened. -/
def Endp.zero : Endp where
  st := .closed
  ek := 0
  esz := 0
  mode := false
  depth := 0
  owner := 0
  acc := 0
  gen := 0
  ring := 0
  exit := false
  xword := 0
  hq := []
  grant := none
  slots := []
  hs := 0
  child := none
  fwd := (0, 0)
  closing := false

/-- A tile command with the operands it captured at issue (10 R362). -/
inductive TCmd where
  | tld (t : Nat) (shape : Word) (ea st sb : Nat) (mx : Bool)
  | tst (t : Nat) (shape : Word) (ea st sb : Nat) (mx : Bool)
  | tldc (c : Nat) (ea st : Nat)
  | tstc (c : Nat) (ea st : Nat)
  | zeroC (c : Nat)
  | zeroT (t : Nat)
  | mma (c a b : Nat) (ec : Nat) (k : Nat)
  | cvt (t c : Nat) (i32 : Bool) (ec : Nat) (rnd : BitVec 3) (sat : Bool) (key base : Word)
  | tran (t s : Nat) (shape : Word)
  deriving DecidableEq, Repr

/-- A queued command with its issuing process (10 R362, R363) and dye, its place among the core's scoreboard entries (10 R374) and its
segment base for LM addresses. -/
structure TEntry where
  seq : Nat
  who : PRef
  dye : BitVec 16
  sb : Nat
  cmd : TCmd
  deriving DecidableEq, Repr

/-- The tile unit of a core (10 R354): tile registers and scale arrays as sparse bytes, accumulators as sparse bytes (element
(i, j) at 48i + 4j), shapes, owner slot, queue (the head runs when `busy`), dirty bits (14 R451). -/
structure Tile where
  t : Tbl Mem
  sc : Tbl Mem
  c : Tbl Mem
  shapes : Vector Word 8
  owner : Option Nat
  queue : List TEntry
  busy : Bool
  dirty : BitVec 24
  deriving DecidableEq, Repr

/-- The tile unit as the launch sequencer zeroes it (01 R55, 10 R354). -/
def Tile.zero : Tile where
  t := []
  sc := []
  c := []
  shapes := Vector.replicate 8 0
  owner := none
  queue := []
  busy := false
  dirty := 0

/-- The two-line fetch buffer (05 R194): the current line with its local address, the other line, the line whose prefetch is
under way with the cycle at which it completes, and whether the running process has entered the line its PC names (05 R191): a transfer, a fall-through and a
dispatch leave the entry to the next step; `fell` tells that it is a fall-through's. -/
structure FetchBuf where
  entered : Bool
  cur : Option (Nat × List Byte)
  other : Option (Nat × List Byte)
  prefetch : Option (Nat × Nat)
  fell : Bool := false
  deriving DecidableEq, Repr

/-- A Madder meter slot and counter are picojoules in units of 1/256 (15 R481). -/
abbrev Energy := Nat

/-- A core (00 R2, 01, 14 R443-R445). -/
structure Core where
  lm : Mem
  lmTags : List Nat
  lmDirty : List Nat
  lmBad : List Nat
  procs : Tbl Proc
  gens : Tbl (BitVec 16)
  eps : Tbl Endp
  rq0 : List Nat
  rq1 : List Nat
  rq2 : List Nat
  rq3 : List Nat
  run : Option Nat
  sliceCnt : Nat
  cached : List Nat
  fb : FetchBuf
  lid : BitVec 16
  netH : BitVec 24
  fn : Nat
  sent : Word
  rcvd : Word
  vheld : Nat
  notices : List Nat
  plb : List Nat
  tile : Tile
  fenced : Bool
  weight : BitVec 4
  deriving DecidableEq, Repr

/-- A core after its self-test or a partition's creation (18 R528, 01 R55). -/
def Core.zero : Core where
  lm := []
  lmTags := []
  lmDirty := []
  lmBad := []
  procs := []
  gens := []
  eps := []
  rq0 := []
  rq1 := []
  rq2 := []
  rq3 := []
  run := none
  sliceCnt := 0
  cached := []
  fb := { entered := false, cur := none, other := none, prefetch := none }
  lid := 0
  netH := 0
  fn := 0
  sent := 0
  rcvd := 0
  vheld := 0
  notices := []
  plb := []
  tile := Tile.zero
  fenced := false
  weight := 1

/-- A request to a home (02 R84), with the queue entries it must follow (02 R91). -/
structure GReq where
  oid : Nat
  who : PRef
  dye : BitVec 16
  part : Nat
  loc : Loc
  op : GOp
  mode : ReadMode
  behind : List Nat
  behindEq : List Nat
  /-- It stores a capability granule (06 R246). -/
  cap : Bool := false
  /-- It came in at the package's ingress, so its energy goes to dye 0 (16 R494). -/
  ingress : Bool := false
  /-- For a copy's write, which of its bytes come from a poisoned line (10 R385); empty for any other. -/
  bad : List Bool := []
  /-- The stamp that the home of an atomic gave its write, which comes back with the response (02 R101, R102). -/
  stamp : Option Nat := none
  deriving DecidableEq, Repr

/-- An entry of a cluster write queue or of the egress queue (02 R89, R92): place in the order, writer, home and bytes,
dye, version tag, epoch floor, capability tag of STCG. -/
structure WqE where
  seq : Nat
  oid : Nat
  who : PRef
  dye : BitVec 16
  part : Nat
  ea : Nat
  loc : Loc
  bytes : List Byte
  own : Option Owner
  cap : Bool
  isCap : Bool
  floor : Nat
  /-- For a copy's write, which of its bytes come from a poisoned line (10 R385); empty for any other. -/
  bad : List Bool := []
  deriving DecidableEq, Repr

/-- A version of an HBM line (02 R97): timestamp, 128 bytes, eight tags, poison bit, writer's dye, whether plainly written,
and the timestamp V must reach before it may go (02 R112). -/
structure Ver where
  ts : Nat
  data : Mem
  tags : BitVec 8
  poison : Bool
  dye : BitVec 16
  plain : Bool
  holdV : Nat
  deriving DecidableEq, Repr

/-- The version every line holds after bring-up (18 R528). -/
def Ver.zero : Ver where
  ts := 0
  data := []
  tags := 0
  poison := false
  dye := 0
  plain := true
  holdV := 0

/-- A write-set version of a line while it can still be undone (10 R383): the version it was made from, and the writes since, in order: the
copy's place, offset, bytes, and whether the bytes were poisoned. -/
structure SetLine where
  line : Nat
  own : Owner
  base : Ver
  writes : List (Nat × Nat × List Byte × Bool)
  deriving DecidableEq, Repr

/-- A source transfer of a copy that other packages still answer (10 R385): pieces `u` to `u` + `count` − 1, in a row, and the parts that are outstanding,
each by its request identity, its place in the row and its bytes. -/
structure CopyAsk where
  u : Nat
  count : Nat
  row : Nat
  parts : List (Nat × Nat × Nat)
  deriving DecidableEq, Repr

/-- A copy in the issue journal (10 R379, R390) with its place among the core's scoreboard entries (10 R374), its captured state and its progress, in
aligned 16-byte pieces of its rows: `reads` the pieces of the source that have come, `got` their bytes by row and place in the row, those of a
poisoned line marked; `asked` the transfers asked of other packages; `done` the pieces of the destination written; `errs` the error lines; `farW` the far writes by request identity. -/
structure Copy where
  id : Nat
  seq : Nat
  who : PRef
  part : Nat
  launch : LRef
  dye : BitVec 16
  sbase : Nat
  x : Vector Word 13
  dst : Nat
  txid : Nat
  snap : Nat
  sm : Bool
  vseen : Nat
  floor : Nat
  ringN : Nat
  desc : List Byte
  reads : List Nat
  got : List (Nat × Nat × List Byte × Bool)
  asked : List CopyAsk
  done : List Nat
  errs : List Nat
  fault : Option Cause
  farW : List Nat
  finished : Option Word
  deriving DecidableEq, Repr

/-- A cluster (00 R2): CM, write queue (02 R89), the leaves and the pointers of its translation cache (15 R461), issue journal
(10 R390), and what each core may still transfer in its engine's round, in bytes (10 R389). -/
structure Cluster where
  ready : Bool
  failed : Bool
  cm : Mem
  cmTags : List Nat
  cmBad : List Nat
  wq : List WqE
  wqSeq : Nat
  tc : List (Nat × Word × Nat)
  tp : List (Nat × Nat × Nat)
  journal : List Copy
  deficit : Tbl Nat
  deriving DecidableEq, Repr

/-- A cluster before it reports ready (18 R528, R533). -/
def Cluster.zero : Cluster where
  ready := false
  failed := false
  cm := []
  cmTags := []
  cmBad := []
  wq := []
  wqSeq := 0
  tc := []
  tp := []
  journal := []
  deficit := []

/-- The DM of a die (02 R82, R93). -/
structure Die where
  dm : Mem
  dmTags : List Nat
  dmBad : List Nat
  deriving DecidableEq, Repr

/-- A line of HBM (02 R97, R110): the in-place version, committed pool versions newest first, tentative versions with their
owners, the transaction whose prepared mark it carries, and the operations held meanwhile, with what the error-correcting code finds. -/
structure Line where
  cur : Ver
  pool : List Ver
  tent : List (Owner × Ver)
  prep : Option Nat
  held : List (GReq × Ecc)
  deriving DecidableEq, Repr

/-- A line after bring-up. -/
def Line.zero : Line where
  cur := Ver.zero
  pool := []
  tent := []
  prep := none
  held := []

/-- A memory server (02 R99-R117, 17 R508-R517); `rr` is the partition served last (15 R479). `threads` holds the atomics and reductions that occupy
a handler thread, each by its requester's core, its identity and its partition (17 R510); `lastReq` the cycle at which it took up its last request, `since` the requests it has taken up since
Ablation's last reclaim (17 R511); `rows` the corrected errors of each row, by their times (17 R517), `lostRows` the rows with an uncorrectable read. -/
structure Server where
  ready : Bool
  failed : Bool
  eh : Nat
  v : Nat
  firn : Option Nat
  newest : Option Nat
  poolCfg : BitVec 2
  spthr : BitVec 8
  revokes : Nat
  remap : List (BitVec 64)
  rr : Nat
  threads : List (Nat × Nat × Nat) := []
  lastReq : Nat := 0
  since : Nat := 0
  rows : Tbl (List Nat) := []
  lostRows : List Nat := []
  deriving DecidableEq, Repr

/-- A server before it reports ready (17 R508 resets). -/
def Server.zero : Server where
  ready := false
  failed := false
  eh := 0
  v := 0
  firn := none
  newest := none
  poolCfg := 1
  spthr := 8
  revokes := 0
  remap := []
  rr := 0

/-- A live or revoked snapshot at the timestamp service (07 R270): `tx` for a transaction's, `harvest` for a harvest's (17 R521). A revoked one is
kept, so that a later read at it is known to be REVOKED (02 R104). -/
structure Snap where
  ts : Nat
  tx : Bool
  holders : Nat
  part : Nat
  launch : LRef
  revoked : Bool
  harvest : Bool := false
  deriving DecidableEq, Repr

/-- What asked for a snapshot (02 R99): a process by SNAPSET or TXB, or a function's harvest. -/
inductive SnapFor where
  | set (p : PRef)
  | tx (p : PRef) (txid : Nat)
  | harvest (fn : Nat)
  deriving DecidableEq, Repr

/-- A snapshot in progress (02 R99): timestamp once issued, servers whose marker or acknowledgement is outstanding. -/
structure SnapReq where
  k : Nat
  for_ : SnapFor
  ts : Nat
  issued : Bool
  marks : List Nat
  acks : List Nat
  replied : Bool
  /-- The core that asked, and the dye that its messages are charged to. -/
  g : Nat := 0
  dye : BitVec 16 := 0
  deriving DecidableEq, Repr

/-- Phases of a transaction at its cluster engine (02 R106-R108). -/
inductive TxPhase where
  | open_
  | preparing
  | applying (c : Nat)
  | ended (status c : Nat)
  deriving DecidableEq, Repr

/-- A transaction by TXID (02 R107, R108): snapshot, homes written, lines held, the capacity and package marks, votes
(server, code: 0 YES, 1 conflict, 2 revoked, and whether it has arrived), homes that still owe APPLY or an abort's acknowledgement, and
whether its process is done with it. -/
structure Tx where
  who : PRef
  launch : LRef
  snap : Nat
  homes : List Nat
  lines : List Nat
  overCap : Bool
  span : Bool
  phase : TxPhase
  asked : List Nat
  votes : List (Nat × Nat × Bool)
  applied : List Nat
  toAbort : List Nat
  aborted : List Nat
  closed : Bool
  dye : BitVec 16 := 0
  deriving DecidableEq, Repr

/-- A publish in progress (02 R114): its timestamp and the homes that have not applied it. -/
structure Publish where
  k : Nat
  launch : LRef
  id : Nat
  ts : Nat
  homes : List Nat
  /-- The core whose process publishes, and its dye. -/
  g : Nat := 0
  dye : BitVec 16 := 0
  deriving DecidableEq, Repr

/-- The timestamp service (02 R98-R115). -/
structure Tss where
  ready : Bool
  last : Nat
  v : Nat
  held : Nat
  acked : Tbl Nat
  snaps : List Snap
  reqs : List SnapReq
  txs : Tbl Tx
  pubs : List Publish
  deriving DecidableEq, Repr

/-- The timestamp service after bring-up. -/
def Tss.zero : Tss where
  ready := false
  last := 0
  v := 0
  held := 0
  acked := []
  snaps := []
  reqs := []
  txs := []
  pubs := []

/-- One recipient of a third-party read (02 R120-R125): its handle, and whether its delivery was sent, accepted, or refused
with a cause. -/
structure Member where
  handle : BitVec 128
  sent : Bool
  answered : Bool
  refused : Option Cause
  deriving DecidableEq, Repr

/-- A third-party read in flight with its relay-buffer data (02 R120-R127, 07 R281-R287): `parts` the parts of the source that have been
read, `asked` those asked of another package by request identity, `shared` whether it uses the buffer's shared space. -/
structure Tpr where
  k : Nat
  who : PRef
  part : Nat
  launch : LRef
  dye : BitVec 16
  pc : Pc
  seq : Nat
  report : Option Nat
  rgen : BitVec 32
  rseq : BitVec 16
  src : Word
  far : Option (BitVec 128)
  len : Nat
  mode : ReadMode
  behind : List Nat
  behindEq : List Nat
  members : List Member
  shared : Bool
  parts : List (Nat × List Byte)
  asked : List (Nat × Nat)
  data : Option (List Byte)
  fault : Option Cause
  reported : Bool
  deriving DecidableEq, Repr

/-- A template of a registered net (14 R433), its image with it. -/
structure Tmpl where
  entry : Pc
  image : List Byte
  seg : Nat
  n0 : Nat
  n1 : Nat
  n2 : Nat
  pri : BitVec 2
  shape : Nat
  bars : BitVec 5
  acct : BitVec 12
  eidx : Nat
  ecnt : Nat
  deriving DecidableEq, Repr

/-- A channel of a registered net (14 R433). -/
structure ChanD where
  ek : BitVec 2
  mode : Bool
  depth : BitVec 5
  hint : Nat
  esz : BitVec 12
  deriving DecidableEq, Repr

/-- An end-table entry (14 R433). -/
structure EndD where
  chan : Nat
  recv : Bool
  g : Bool
  t : Bool
  deriving DecidableEq, Repr

/-- A home-table entry (14 R433), with the address of an HBM home allocated at registration (14 R435). -/
structure HomeD where
  size : Nat
  level : Nat
  align : Nat
  near : Nat
  addr : Nat
  deriving DecidableEq, Repr

/-- A relocation of kind 2 (14 R433, R434). -/
structure RelocD where
  tpl : Nat
  off : Nat
  home : Nat
  addend : Word
  deriving DecidableEq, Repr

/-- A registered net (14 R432). -/
structure Net where
  tmpls : List Tmpl
  chans : List ChanD
  ends : List EndD
  homes : List HomeD
  relocs : List RelocD
  deriving DecidableEq, Repr

/-- One barrier of a running launch (01 R59): scope, unit, phase number, members, members arrived this phase. -/
structure Barrier where
  sc : Nat
  unit : Nat
  phase : Nat
  members : List PRef
  arrived : List PRef
  pending : List PRef
  deriving DecidableEq, Repr

/-- A sweep in progress (14 R446): cores that have latched with idle, SENT and RCVD summed. -/
structure Sweep where
  latched : List Nat
  idle : Nat
  sent : Nat
  rcvd : Nat
  deriving DecidableEq, Repr

/-- A running launch (14 R437-R439, R446, R447), its net as registered with it. -/
structure Launch where
  ref : LRef
  net : Nat
  desc : Net
  procs : List PRef
  cores : List Nat
  homes : List (Nat × Nat × Nat × Nat)
  bars : List Barrier
  sweep : Option Sweep
  agree : Nat
  last : Nat × Nat
  tstart : Nat
  energy0 : Energy
  dyes : List (BitVec 16)
  nproc : Nat
  wasHeld : Bool
  theld : Nat
  aborting : Bool
  /-- The other packages on which a pod-wide launch has processes (16 R491). -/
  pkgs : List Nat := []
  /-- The status with which it ends when it is aborting: 2 ABORTED, or 6 RESET (14 R439, 16 R491). -/
  endStatus : Nat := 2
  deriving DecidableEq, Repr

/-- A far-map entry (16 R493). -/
structure FarEnt where
  lbase : Nat
  cap : BitVec 128
  deriving DecidableEq, Repr

/-- A partition (13 R411, R427, 14 R449, 15 R465, R474, R482, 16 R493). `node` 0 means that none is assigned; `stopping`: processes are held or
being held, until the resume; `full`: the stewards among them (14 R449, R450);
`heldFor`: the causes that have joined the hold (14 R452); `resetting`: a function reset waits for its hold (16 R503); `imaged`: the images of the hold
have been sent (14 R450 step 5). -/
structure Part where
  node : Nat
  steward : Nat
  fcidx : Nat
  domains : Tbl Word
  farMap : Tbl FarEnt
  farEpoch : BitVec 8
  doorbell : Word
  chst : Bool
  cqta : Bool
  cqsc : Bool
  cres : Bool
  stopping : Bool
  full : Bool
  held : Bool
  resetting : Bool
  holdCount : Nat
  heldSince : Nat
  heldFor : BitVec 4
  equota : Word
  img : Word
  imaged : Bool := false
  deriving DecidableEq, Repr

/-- A partition without a node (15 R482: EQUOTA all ones). -/
def Part.zero : Part where
  node := 0
  steward := 0
  fcidx := 0
  domains := []
  farMap := []
  farEpoch := 0
  doorbell := 0
  chst := false
  cqta := false
  cqsc := false
  cres := false
  stopping := false
  full := false
  held := false
  resetting := false
  holdCount := 0
  heldSince := 0
  heldFor := 0
  equota := 0xFFFFFFFFFFFFFFFF
  img := 0

/-- States of a TDI (16 R498). -/
inductive Tdi where
  | unlocked | locked | run | error
  deriving DecidableEq, Repr

/-- Phases of a function's SPDM exchange (16 R501). -/
inductive Spdm where
  | fresh | version | capabilities | negotiated | exchanging | session
  deriving DecidableEq, Repr

/-- A harvest in progress (17 R521): whether its snapshot has been taken, entry, dense form, next line's DPA, bytes written, poisoned lines met. -/
structure Harvest where
  started : Bool
  entry : Nat
  dense : Bool
  next : Nat
  out : Nat
  bad : List Nat
  /-- A destination write has been refused by its package (17 R521). -/
  fault : Bool := false
  /-- What follows the lines has been written (17 R522). -/
  tailed : Bool := false
  deriving DecidableEq, Repr

/-- A completion record that waits (14 R447, 01 R68): its 64 bytes, a report with its address, and what must leave or be performed
first, by identity. -/
structure Rec where
  bytes : List Byte
  report : Option (Nat × List Byte)
  behind : List Nat
  deriving DecidableEq, Repr

/-- A PCI Express function's registers and queues (14 R430-R437, 16 R496, 17 R512, R520). -/
structure Fn where
  enabled : Bool
  nrsrc : Word
  nrdata : Word
  nrHandle : BitVec 24
  nrBusy : Bool
  nrStatus : BitVec 8
  crbase : Word
  crctl : BitVec 5
  crprod : Word
  crcons : Word
  rpbase : Word
  ctxbase : Word
  mbarg : Vector Word 4
  mbSeq : BitVec 16
  mbBusy : Bool
  mbStatus : BitVec 8
  flbase : Word
  flprod : Word
  flcons : Word
  fldrop : Word
  elbase : Word
  elprod : Word
  elcons : Word
  eldrop : Word
  hvdst : Word
  hvlim : Word
  hvprev : Word
  hvPsn : Bool
  hvStatus : BitVec 4
  hvsnap : Word
  hvcnt : Word
  nets : Tbl Net
  nextHandle : Nat
  nextLid : Nat
  queue : List (Nat × Word × Option Net)
  records : List Rec
  faultWait : List (List Byte)
  /-- Event-log entries whose place a walk has still to find (17 R512, 02 R110). -/
  logWait : List (List Byte)
  harvest : Option Harvest
  tdi : Tdi
  ide : Bool
  spdm : Spdm
  deriving DecidableEq, Repr

/-- A function at reset (14 R430, 16 R496, 17 R520 resets). -/
def Fn.zero : Fn where
  enabled := false
  nrsrc := 0
  nrdata := 0
  nrHandle := 0
  nrBusy := false
  nrStatus := 0
  crbase := 0
  crctl := 0
  crprod := 0
  crcons := 0
  rpbase := 0
  ctxbase := 0
  mbarg := Vector.replicate 4 0
  mbSeq := 0
  mbBusy := false
  mbStatus := 0
  flbase := 0
  flprod := 0
  flcons := 0
  fldrop := 0
  elbase := 0
  elprod := 0
  elcons := 0
  eldrop := 0
  hvdst := 0
  hvlim := 0
  hvprev := 0
  hvPsn := false
  hvStatus := 0
  hvsnap := 0
  hvcnt := 0
  nets := []
  nextHandle := 1
  nextLid := 1
  queue := []
  records := []
  faultWait := []
  logWait := []
  harvest := none
  tdi := .unlocked
  ide := false
  spdm := .fresh

/-- A key slot (16 R499, R500). -/
structure KeySlot where
  part : Nat
  key : BitVec 256
  fixed : BitVec 32
  floor : Word
  high : Word
  mask : BitVec 64
  deriving DecidableEq, Repr

/-- A flit on a port (16 R489): its number, its packet, how many flits of the packet follow it, and the dye that pays for it here. -/
structure Flit where
  seq : BitVec 12
  pk : Packet
  left : Nat
  pay : BitVec 16 := 0
  deriving DecidableEq, Repr

/-- A packet that this package sent and its destination's ingress has not acknowledged (16 R488): `pk` holds the whole route; `back` tells that it has
come back from a failed hop. -/
structure Sent where
  num : Nat
  dst : Nat
  pk : Packet
  back : Bool
  deriving DecidableEq, Repr

/-- A Solom port (16 R489, R490). `replay` holds sent flits not yet acknowledged, oldest first; `again` counts the replays of the oldest. -/
structure Port where
  ready : Bool
  state : BitVec 2
  width : BitVec 2
  peer : BitVec 12
  slane : BitVec 5
  replays : Nat
  pthr : BitVec 32
  txSeq : BitVec 12
  rxSeq : BitVec 12
  replay : List Flit
  again : Nat
  failed : List Nat
  nak : Bool
  deriving DecidableEq, Repr

/-- A port at reset (16 R490). -/
def Port.zero : Port where
  ready := false
  state := 0
  width := 0
  peer := 0
  slane := 0x1F
  replays := 0
  pthr := 1024
  txSeq := 0
  rxSeq := 0
  replay := []
  again := 0
  failed := []
  nak := false

/-- A scale-out work request (16 R504): identity, op, length, local and remote DVA, work id, sender's launch and core. -/
structure WorkReq where
  wid : Nat
  op : Nat
  len : Nat
  ldva : Word
  rdva : Word
  work : Word
  launch : LRef
  g : Nat
  dye : BitVec 16
  sent : Bool
  result : Option (Nat × Nat)
  deriving DecidableEq, Repr

/-- A piece of a read, or a write, by a unit of the device that another package answers (16 R493): its request, the unit, what it reads or writes, and
the answer. -/
structure DevFar where
  oid : Nat
  kind : Nat
  part : Nat
  dva : Nat
  len : Nat
  done : Bool
  cause : Option Cause
  bytes : List Byte
  tags : BitVec 8
  write : Bool := false
  deriving DecidableEq, Repr

/-- Where a unit of the device enters the mesh, the partition and dye it acts for, the cluster that translates for it, and its number: 0 the
firmware and the launch unit, 1 the host interface unit, 2 a scale-out port, 3 the harvest, 4 a core that writes its image. -/
structure Unit_ where
  node : Node
  kind : Nat
  part : Nat
  cluster : Nat
  dye : BitVec 16
  deriving DecidableEq, Repr

/-- A line of a write by a unit of the device whose address a walk has still to find (02 R110, 15 R459). -/
structure DevWrite where
  u : Unit_
  dva : Nat
  bytes : List Byte
  deriving DecidableEq, Repr

/-- A scale-out queue pair (16 R504, R505): endpoints as (core, index). -/
structure Qp where
  part : Nat
  desc : List Byte
  comp : Nat × Nat
  deliv : Nat × Nat
  error : Bool
  reqs : List WorkReq
  counter : Nat
  retries : Nat
  dropped : Nat
  undelivered : Nat
  rcv : Nat
  deriving DecidableEq, Repr

/-- Bodies of the messages in flight (00 R11 Send; 01 R34-R40; 02 R84, R101, R124, R125). -/
inductive Body where
  /-- A channel header to endpoint e of the destination core (01 R35). -/
  | header (e : Nat) (h : Hdr)
  /-- A header that a full header store sent back (14 R445), with the cycle of its resend. -/
  | returned (g e : Nat) (h : Hdr) (due : Nat)
  /-- Another message that a full spill ring sent back (14 R453), with the cycle of its resend. -/
  | bounced (g : Nat) (b : Body) (due : Nat)
  /-- The release of a barrier's phase for a member (01 R59), while a spill ring holds it (01 R71). -/
  | release (r : PRef) (sc phase : Nat)
  /-- A grant for header hid to its sender, with the destination of the data (01 R36, R39): slot position or owner's address. -/
  | grant (g e : Nat) (h : Hdr) (addr : Nat) (slot : Bool)
  /-- Granted data for the endpoint (01 R38). -/
  | data (e : Nat) (h : Hdr) (bytes : List Byte) (addr : Nat) (slot : Bool)
  /-- Rendezvous done message, or buffered acceptance (01 R36, R39), and whether the receiving core counted it (01 R64). -/
  | done (h : Hdr) (counted : Bool)
  | accept (h : Hdr) (counted : Bool)
  /-- Closed reply with its cause, and the refusing core (01 R40, 08 R299). -/
  | refuse (h : Hdr) (cause : Cause)
  /-- A header on its way to another package: package, core, endpoint (16 R491). -/
  | farHeader (pkg g e : Nat) (h : Hdr)
  /-- A request to a home (02 R84). -/
  | req (r : GReq)
  /-- A read or atomic response: bytes, tags, version timestamp, the home's V, flags (07 R257, R264). -/
  | resp (r : GReq) (bytes : List Byte) (tags : BitVec 8) (ts v : Nat) (flags : BitVec 5) (fixed bad : Bool)
  /-- An acknowledgement of a write or reduction with its stamp, none when tentative (03 R139, 07 R266). -/
  | ack (r : GReq) (stamp : Option Nat) (flags : BitVec 5)
  /-- An error response (07 R250). -/
  | err (r : GReq) (cause : Cause)
  /-- The revocation notice for a snapshot (07 R273). -/
  | notice (ts : Nat)
  /-- A queue-pair work request (16 R504). -/
  | work (port qp : Nat) (h : Hdr)
  deriving DecidableEq, Repr

/-- A message in flight; messages of one source and destination keep their order (00 R11, 03 R134). -/
structure Msg where
  src : Node
  dst : Node
  body : Body
  deriving DecidableEq, Repr

/-- The algorithms of the device's SPDM responder (16 R501): the measurement and transcript hash SHA3-384; ECDHE on secp384r1; AES-256-GCM; XMSS^MT
with XMSSMT-SHAKE256_20/2_256. -/
inductive Algorithm where
  | sha3_384 | secp384r1 | aes256Gcm | xmssmtShake256_20_2_256
  deriving DecidableEq, Repr

/-- The registry under whose id an extended algorithm is advertised (16 R501). -/
inductive Registry where
  | ecanmos
  deriving DecidableEq, Repr

/-- What a reply to an SPDM or TDISP request says (16 R498, R501, R502). `open_`: content that the spec does not give; `unexpectedRequest`: ERROR with
UnexpectedRequest; `version`: major and minor; `algorithms`: hash, key exchange, AEAD, base signature algorithm if any, extended ones; `image`, `pageTable`, `ranges`, `tables`, `interface` and `sigLeft`: measurement
blocks 1 to 5 and 0xF0; `report`: an interface report, the BARs with their sizes, the MSI-X table's and pending-bit array's places in BAR4, and its
vectors. -/
inductive Report where
  | open_ (bits : Word)
  | unexpectedRequest
  | version (major minor : Nat)
  | algorithms (hash exchange aead : Algorithm) (base : Option Algorithm) (extended : List (Registry × Algorithm))
  | image (digest : BitVec 384)
  | pageTable (root : Nat) (digest : BitVec 384)
  | ranges (entries : List (Nat × BitVec 128 × Nat))
  | tables (domains : Tbl Word) (farMap : Tbl FarEnt)
  | interface (tdi : Tdi) (ide : Bool)
  | sigLeft (n : Nat)
  | report (bars : List (Nat × Nat)) (table pending vectors : Nat)
  deriving DecidableEq, Repr

/-- What the host sees: MSI-X vectors, read completions, protocol replies (16 R495, R498, R501). -/
inductive HostOut where
  | msix (fn vector : Nat)
  | readData (fn : Nat) (bytes : List Byte)
  | unsupported (fn : Nat)
  | spdm (fn : Nat) (request : Nat) (ok : Bool) (reply : Report)
  | tdisp (fn : Nat) (request : Nat) (ok : Bool) (reply : Report)
  deriving DecidableEq, Repr

/-- Bring-up (18 R526-R532). -/
inductive BootState where
  | booting | running | recovery
  deriving DecidableEq, Repr

/-- The bring-up block and the nonvolatile store (18 R527, R531-R533): `image` the stored firmware image, `pushed` a pushed one under verification. -/
structure Bring where
  state : BootState
  svn : BitVec 32
  minSvn : BitVec 32
  placement : Bool
  madder : Bool
  scale : BitVec 2
  rcaddr : Word
  rclen : BitVec 32
  rcstat : BitVec 4
  podWritten : Bool
  pkgid : BitVec 12
  sizes : BitVec 12
  tbOff : Nat
  podSynced : Bool
  sigLeft : Nat
  autoret : Bool
  image : List Byte
  pushed : Option (List Byte)
  deriving DecidableEq, Repr

/-- The Madder controller and meters (15 R481-R483): counters by dye, meter slots not yet sent by unit and dye, per-rail
factor (in units of 1/65536), carry and the millisecond's sums. -/
structure Madder where
  counters : Tbl Energy
  meters : Tbl (Tbl Energy)
  coeff : List Nat
  factors : List Nat
  carry : List Int
  charged : List Nat
  metered : List Nat
  deriving DecidableEq, Repr

/-- What moves next (log entry 1): a core, a step of the device, or time alone; or what comes from outside the package: an error that the next read of
a location finds (17 R515, R516), or word that a launch of a function has processes in another package too (16 R491). -/
inductive Turn where
  | core (g : Nat)
  | event (i : Instr)
  | tick (n : Nat)
  | upset (l : Loc) (e : Ecc)
  | podLaunch (fn lid pkg : Nat)
  deriving DecidableEq, Repr

/-- A whole package. `farHdrs` holds the headers sent to other packages, `farIn` the headers from other packages
whose transfers were granted here: core, endpoint, destination, slot or not. `hbm` holds the lines by DPA; `hbmIdle` those that no enabled
range entry reaches, by server and place in its data space (15 R470). `spilled` holds the messages of the spill rings, in arrival order (14 R453). `corr` holds, by unit, the millisecond of its last CORRECTED entry and the errors merged since (17 R512);
`upsets` the errors that the next reads of locations find (17 R515, R516); `retireQueue` the quads of fenced cores that firmware is still to retire, with
their partitions (17 R519); `owed` the packets of other packages that are still to go back: their source and number (16 R488). -/
structure State where
  cycle : Nat
  cur : Nat
  agenda : List Turn
  freeCtr : Nat
  nextId : Nat
  cores : Tbl Core
  clusters : Tbl Cluster
  dies : Tbl Die
  servers : Tbl Server
  hbm : Tbl Line
  hbmIdle : Tbl Line
  setLog : List SetLine
  net : List Msg
  spilled : List Msg
  hostMem : Mem
  tss : Tss
  parts : Tbl Part
  fns : Tbl Fn
  pcimg : Word
  pcRetire : Option (Nat × Nat)
  pcStatus : BitVec 8
  ranges : Tbl (BitVec 128)
  ptroot : Nat
  retired : List Nat
  tprs : List Tpr
  launches : List Launch
  madder : Madder
  keys : Tbl KeySlot
  ports : Tbl Port
  deadPkgs : List Nat
  deadLinks : List Nat
  unacked : List Sent
  egress : List WqE
  egressSeq : Nat
  farOut : List GReq
  devFar : List DevFar
  devHeld : List DevWrite
  farHdrs : List (Nat × Hdr)
  farIn : List (Nat × Nat × Nat × Bool × Hdr)
  qps : Tbl (Tbl Qp)
  bring : Bring
  corr : Tbl (Nat × Nat)
  hostOut : List HostOut
  upsets : List (Loc × Ecc)
  retireQueue : List (Nat × Nat)
  owed : List (Nat × Nat)
  deriving DecidableEq, Repr

/-- Why the machine stops with a fault. -/
inductive Fault where
  /-- Raised by `exec` when an instruction is asked of a core that runs no process; no run does that through `step`. Safe: the
  spec gives such a request no meaning. -/
  | idleCore
  deriving DecidableEq, Repr

/-- Why the machine answers no meaning. -/
inductive Refusal where
  /-- Raised by the arm of an instruction that has no meaning yet. Safe. -/
  | notModelled (mnemonic : String)
  deriving DecidableEq, Repr

/-- The nominal coefficients in 1/256 pJ (15 R481), in the table's order (log entry 5): scalar head, LM access, vector step,
TMMA BF16 or FP8, TMMA MXFP4, mesh hop, CM access, DM access, HBM line, handler, Solom flit; then R538: TMMA MXF6, TMMA I8, TZC,
TCVT and TTRAN, die crossing. -/
def nominalCoeff : List Nat :=
  [18, 25, 90, 3400, 3600, 6, 60, 110, 2400, 300, 1100, 3500, 2600, 200, 400, 40].map (· * 256)

/-- The Madder controller at reset (15 R481, R483, 18 R533): counters zero, factors 1, carries 0. -/
def Madder.zero : Madder where
  counters := []
  meters := []
  coeff := nominalCoeff
  factors := [65536, 65536, 65536, 65536]
  carry := [0, 0, 0, 0]
  charged := [0, 0, 0, 0]
  metered := [0, 0, 0, 0]

/-- The bring-up block at reset (18 R527, R533, 17 R519): 2^20 signatures left (16 R501; log entry 8). -/
def Bring.zero : Bring where
  state := .booting
  svn := 0
  minSvn := 0
  placement := false
  madder := false
  scale := 0
  rcaddr := 0
  rclen := 0
  rcstat := 0
  podWritten := false
  pkgid := 0
  sizes := 0
  tbOff := 0
  podSynced := false
  sigLeft := 1048576
  autoret := true
  image := []
  pushed := none

/-- The package right after PERST# is deasserted (18 R526 step 1, R533): booting, no unit ready, no partition. -/
def State.reset : State where
  cycle := 0
  cur := 0
  agenda := []
  freeCtr := 0
  nextId := 0
  cores := []
  clusters := []
  dies := []
  servers := []
  hbm := []
  hbmIdle := []
  setLog := []
  net := []
  spilled := []
  hostMem := []
  tss := Tss.zero
  parts := []
  fns := []
  pcimg := 0
  pcRetire := none
  pcStatus := 0
  ranges := []
  ptroot := 0
  retired := []
  tprs := []
  launches := []
  madder := Madder.zero
  keys := []
  ports := []
  deadPkgs := []
  deadLinks := []
  unacked := []
  egress := []
  egressSeq := 0
  farOut := []
  devFar := []
  devHeld := []
  farHdrs := []
  farIn := []
  qps := []
  bring := Bring.zero
  corr := []
  hostOut := []
  upsets := []
  retireQueue := []
  owed := []

end Sys2Proof.Machine
end

