-- ==== Sys2Proof/Machine/Bits.lean ====
section
/-! DEFINITION. Sparse tables, byte memories, byte order (00 R9) and bit-field helpers. -/

namespace Sys2Proof.Machine

/-! Tables. -/

/-- The entry at a key, or the default. -/
def Tbl.get {α : Type} (d : α) : Tbl α → Nat → α
  | [], _ => d
  | (k, v) :: t, i => if i = k then v else if i < k then d else Tbl.get d t i

/-- The entry at a key, if one is listed. -/
def Tbl.find {α : Type} : Tbl α → Nat → Option α
  | [], _ => none
  | (k, v) :: t, i => if i = k then some v else if i < k then none else Tbl.find t i

/-- The table with one entry replaced or inserted. -/
def Tbl.put {α : Type} : Tbl α → Nat → α → Tbl α
  | [], i, x => [(i, x)]
  | (k, v) :: t, i, x =>
    if i = k then (k, x) :: t else if i < k then (i, x) :: (k, v) :: t else (k, v) :: Tbl.put t i x

/-- The table without an entry. -/
def Tbl.del {α : Type} (t : Tbl α) (i : Nat) : Tbl α := t.filter fun e => e.1 != i

/-- Every entry changed. -/
def Tbl.mapVals {α β : Type} (f : Nat → α → β) (t : Tbl α) : Tbl β := t.map fun e => (e.1, f e.1 e.2)

/-! Memories. -/

/-- The byte at an address; an unlisted byte reads zero (01 R55, 18 R528). -/
def Mem.byte : Mem → Nat → Byte
  | [], _ => 0
  | (k, v) :: t, i => if i = k then v else if i < k then 0 else Mem.byte t i

/-- `n` bytes from an address on, from the entries at or above it. -/
def Mem.take : Mem → Nat → Nat → List Byte
  | _, _, 0 => []
  | [], a, n + 1 => 0 :: Mem.take [] (a + 1) n
  | (k, v) :: t, a, n + 1 => if k = a then v :: Mem.take t (a + 1) n else 0 :: Mem.take ((k, v) :: t) (a + 1) n

/-- `n` bytes from an address, low address first. -/
def Mem.read (m : Mem) (a n : Nat) : List Byte := Mem.take (m.dropWhile fun c => decide (c.1 < a)) a n

/-- The entries of bytes that lie from an address on: a zero byte has none. -/
def Mem.cells : Nat → List Byte → Mem
  | _, [] => []
  | a, b :: bs => if b = 0 then Mem.cells (a + 1) bs else (a, b) :: Mem.cells (a + 1) bs

/-- The memory with bytes written from an address, low address first; writing zero removes the entry. -/
def Mem.write (m : Mem) (a : Nat) (bs : List Byte) : Mem :=
  (m.takeWhile fun c => decide (c.1 < a)) ++ Mem.cells a bs ++ m.dropWhile fun c => decide (c.1 < a + bs.length)

/-- The memory with `n` bytes from an address zero. -/
def Mem.zero (m : Mem) (a n : Nat) : Mem := m.filter fun c => c.1 < a || a + n ≤ c.1

/-- The canonical form: addresses strictly rising from `lo` and no zero byte. -/
def Mem.wfFrom (lo : Nat) : Mem → Bool
  | [] => true
  | (k, v) :: t => decide (lo ≤ k) && v != 0 && Mem.wfFrom (k + 1) t

/-- A memory is in its canonical form. -/
def Memory.wf (m : Mem) : Bool := Mem.wfFrom 0 m

/-! Byte order. -/

/-- The number that little-endian bytes hold (00 R9). -/
def bytesNat : List Byte → Nat
  | [] => 0
  | b :: bs => b.toNat + 256 * bytesNat bs

/-- The `n` little-endian bytes of a number (00 R9). -/
def natBytes : Nat → Nat → List Byte
  | 0, _ => []
  | n + 1, x => BitVec.ofNat 8 x :: natBytes n (x / 256)

/-- The low `n` bytes of a word. -/
def wordBytes (n : Nat) (w : Word) : List Byte := natBytes n w.toNat

/-- The word that up to eight bytes hold, zero-extended. -/
def bytesWord (bs : List Byte) : Word := BitVec.ofNat 64 (bytesNat bs)

/-- The low `bits` bits of a word, sign-extended. -/
def signExt (bits : Nat) (w : Word) : Word := (w.setWidth bits).signExtend 64

/-- A byte displacement (05 R197), sign-extended. -/
def disp (d : BitVec 20) : Word := d.signExtend 64

/-- Bits hi..lo of a number. -/
def bitsOf (x hi lo : Nat) : Nat := (x / 2 ^ lo) % 2 ^ (hi + 1 - lo)

/-- x rounded up to a multiple of m. -/
def roundUp (x m : Nat) : Nat := (x + m - 1) / m * m

/-- The interval [a, a + n) meets [b, b + m). -/
def overlaps (a n b m : Nat) : Bool := decide (a < b + m) && decide (b < a + n) && decide (0 < n) && decide (0 < m)

/-- [a, a + n) covers [b, b + m). -/
def covers (a n b m : Nat) : Bool := decide (a ≤ b) && decide (b + m ≤ a + n)

/-- The elements a list has at least one of twice, once each: insertion into a list without repeats. -/
def insertNat (x : Nat) (l : List Nat) : List Nat := if l.contains x then l else x :: l

/-! State access. -/

/-- Core g (00 R4). -/
def State.coreAt (s : State) (g : Nat) : Core := Tbl.get Core.zero s.cores g

/-- Core g replaced. -/
def State.setCore (s : State) (g : Nat) (c : Core) : State := { s with cores := Tbl.put s.cores g c }

/-- Slot k of core g, as a process (01 R13). -/
def Core.procAt (c : Core) (k : Nat) : Proc := Tbl.get Proc.zero c.procs k

/-- Does slot k hold a process (14 R444 FREE)? -/
def Core.holdsProc (c : Core) (k : Nat) : Bool := (Tbl.find c.procs k).isSome

/-- Slot k's process replaced. -/
def Core.setProc (c : Core) (k : Nat) (p : Proc) : Core := { c with procs := Tbl.put c.procs k p }

/-- The process in slot k of core g. -/
def State.procAt (s : State) (g k : Nat) : Proc := (s.coreAt g).procAt k

/-- The process in slot k of core g replaced. -/
def State.setProc (s : State) (g k : Nat) (p : Proc) : State := s.setCore g ((s.coreAt g).setProc k p)

/-- Endpoint e of a core (01 R28). -/
def Core.epAt (c : Core) (e : Nat) : Endp := Tbl.get Endp.zero c.eps e

/-- A list of 64-byte lines with those that [a, a + n) meets (14 R451). -/
def markDirty (dirty : List Nat) (a n : Nat) : List Nat :=
  if n = 0 then dirty else
    (List.range ((a + n - 1) / 64 - a / 64 + 1)).foldl (fun l i => insertNat (i + a / 64) l) dirty

/-- A structure of the system area is written at some bytes of LM: their lines are dirty (14 R443, R451). -/
def Core.touch (c : Core) (off n : Nat) : Core := { c with lmDirty := markDirty c.lmDirty off n }

/-- Endpoint e replaced, in its entry of the channel table (14 R443). -/
def Core.setEp (c : Core) (e : Nat) (x : Endp) : Core := { c with eps := Tbl.put c.eps e x, lmDirty := markDirty c.lmDirty (0x58000 + 32 * e) 32 }

/-- Endpoint e of core g. -/
def State.epAt (s : State) (g e : Nat) : Endp := (s.coreAt g).epAt e

/-- Endpoint e of core g replaced. -/
def State.setEp (s : State) (g e : Nat) (x : Endp) : State := s.setCore g ((s.coreAt g).setEp e x)

/-- Cluster c (00 R5). -/
def State.clusterAt (s : State) (c : Nat) : Cluster := Tbl.get Cluster.zero s.clusters c

/-- Cluster c replaced. -/
def State.setCluster (s : State) (c : Nat) (x : Cluster) : State := { s with clusters := Tbl.put s.clusters c x }

/-- Die d. -/
def State.dieAt (s : State) (d : Nat) : Die := Tbl.get { dm := [], dmTags := [], dmBad := [] } s.dies d

/-- Die d replaced. -/
def State.setDie (s : State) (d : Nat) (x : Die) : State := { s with dies := Tbl.put s.dies d x }

/-- Memory server v (00 R6). -/
def State.serverAt (s : State) (v : Nat) : Server := Tbl.get Server.zero s.servers v

/-- Memory server v replaced. -/
def State.setServer (s : State) (v : Nat) (x : Server) : State := { s with servers := Tbl.put s.servers v x }

/-- HBM line l, the DPA divided by 128 (02 R97). -/
def State.lineAt (s : State) (l : Nat) : Line := Tbl.get Line.zero s.hbm l

/-- HBM line l replaced. -/
def State.setLine (s : State) (l : Nat) (x : Line) : State := { s with hbm := Tbl.put s.hbm l x }

/-- Partition p (15 R472). -/
def State.partAt (s : State) (p : Nat) : Part := Tbl.get Part.zero s.parts p

/-- Partition p replaced. -/
def State.setPart (s : State) (p : Nat) (x : Part) : State := { s with parts := Tbl.put s.parts p x }

/-- Function p (16 R495); the physical function always answers. -/
def State.fnAt (s : State) (p : Nat) : Fn := Tbl.get Fn.zero s.fns p

/-- Function p replaced. -/
def State.setFn (s : State) (p : Nat) (x : Fn) : State := { s with fns := Tbl.put s.fns p x }

/-- Solom port i (16 R490). -/
def State.portAt (s : State) (i : Nat) : Port := Tbl.get Port.zero s.ports i

/-- Solom port i replaced. -/
def State.setPort (s : State) (i : Nat) (x : Port) : State := { s with ports := Tbl.put s.ports i x }

/-- The running process's slot on the core whose turn it is (14 R444 RUN). -/
def State.runSlot (s : State) : Option Nat := (s.coreAt s.cur).run

/-- A fresh identity for a request, header, copy or third-party read. -/
def State.fresh (s : State) : Nat × State := (s.nextId, { s with nextId := s.nextId + 1 })

/-- A message put in flight, behind every message already there (00 R11 Send). -/
def State.post (s : State) (src dst : Node) (b : Body) : State :=
  { s with net := s.net ++ [{ src := src, dst := dst, body := b }] }

/-- Two places of other packages have one home there (03 R134, R135): a line has one home; which lines share one is free. -/
def sameFarHome (p a x q b y : Nat) : Bool :=
  p == q && ((a == b && x / 128 == y / 128) || Config.farHome p a (x / 128) == Config.farHome q b (y / 128))

/-- A message goes on to another package by the egress port. -/
def Body.leaves : Body → Bool
  | .req r => (match r.loc with | .far _ _ _ _ => true | _ => false)
  | .farHeader _ _ _ _ => true
  | _ => false

/-- Two messages that go on to another package have one destination there: a home, or a core. -/
def Body.sameBeyond (a b : Body) : Bool :=
  match a, b with
  | .req r, .req q => (match r.loc, q.loc with
    | .far p x _ d, .far p' x' _ d' => sameFarHome p x d p' x' d'
    | _, _ => false)
  | .farHeader p g _ _, .farHeader q h _ _ => p == q && g == h
  | _, _ => false

/-- Two messages of one source and destination, which keep their order (00 R11, 03 R134, R135): a home or core of another package is a destination of its
own. -/
def Msg.sameStream (x m : Msg) : Bool :=
  x.src == m.src && x.dst == m.dst && (if x.body.leaves || m.body.leaves then x.body.sameBeyond m.body else true)

/-- Message n of the network may be delivered: no older message has its source and destination (00 R11, 03 R134). -/
def deliverable (net : List Msg) (n : Nat) : Bool :=
  match net[n]? with
  | none => false
  | some m => !(net.take n).any fun x => x.sameStream m

/-- A range cut at 128-byte lines: address and length of each piece. -/
def splitLines : Nat → Nat → Nat → List (Nat × Nat)
  | 0, _, _ => []
  | fuel + 1, a, n =>
    let k := min n (128 - a % 128)
    if n = 0 then [] else (a, k) :: splitLines fuel (a + k) (n - k)

/-- Message n, when it may be delivered, and the state without it. -/
def State.takeMsg (s : State) (n : Nat) : Option (Msg × State) :=
  if deliverable s.net n then
    match s.net[n]? with
    | some m => some (m, { s with net := s.net.eraseIdx n })
    | none => none
  else none

/-- The cluster of core g, as a package number (00 R4, R5). -/
def clusterOf (g : Nat) : Nat := g / 16

/-- The die of core g (00 R4). -/
def dieOf (g : Nat) : Nat := g / 256

/-- Mesh coordinates of core g (00 R4). -/
def meshX (g : Nat) : Nat := 4 * (g / 16 % 16 % 4) + g % 16 % 4

/-- Mesh coordinates of core g (00 R4). -/
def meshY (g : Nat) : Nat := 4 * (g / 16 % 16 / 4) + g % 16 / 4

/-- Package quad number of core g (00 R5). -/
def quadOf (g : Nat) : Nat := dieOf g * 64 + (g / 16 % 16) * 4 + (2 * (g % 16 / 4 / 2) + g % 4 / 2)

/-- The timebase in ns (00 R3, 18 R526, R530): 2.25 cycles a nanosecond, after the step of pod synchronisation. -/
def State.time (s : State) : Word := BitVec.ofNat 64 (s.bring.tbOff + s.cycle * 4 / 9)

/-- The trap cause's code (13 R413). -/
def Cause.code : Cause → BitVec 4
  | .xlate => 1 | .bounds => 2 | .rights => 3 | .poison => 4 | .revoked => 5 | .closed => 6 | .type => 7
  | .illegal => 8 | .line => 9 | .priv => 10 | .align => 11 | .segment => 12 | .captag => 13 | .watchdog => 14
  | .break_ => 15

/-- The cause with a code, BOUNDS for a code that names none. -/
def Cause.ofCode (c : BitVec 4) : Cause :=
  match c.toNat with
  | 1 => .xlate | 3 => .rights | 4 => .poison | 5 => .revoked | 6 => .closed | 7 => .type | 8 => .illegal | 9 => .line
  | 10 => .priv | 11 => .align | 12 => .segment | 13 => .captag | 14 => .watchdog | 15 => .break_ | _ => .bounds

/-! Energy (15 R481, R538). -/

/-- Units of meters: cores, then clusters, servers, ports, scale-out ports and the host interface unit (15 R481). -/
def meterCluster (c : Nat) : Nat := 1024 + c
/-- The meter of memory server v. -/
def meterServer (v : Nat) : Nat := 1088 + v
/-- The meter of Solom port i. -/
def meterPort (i : Nat) : Nat := 1344 + i
/-- The meter of scale-out port p. -/
def meterScale (p : Nat) : Nat := 1352 + p
/-- The meter of the host interface unit. -/
def meterHost : Nat := 1354

/-- The events of 15 R481 and R538, as places in the coefficient table. -/
inductive Ev where
  | head | lm | vstep | mma | mmaMx4 | hop | cm | dm | hbm | handler | flit | mmaMx6 | mmaI8 | tzc | tcvt | die
  deriving DecidableEq, Repr

/-- The place of an event's coefficient. -/
def Ev.idx : Ev → Nat
  | .head => 0 | .lm => 1 | .vstep => 2 | .mma => 3 | .mmaMx4 => 4 | .hop => 5 | .cm => 6 | .dm => 7 | .hbm => 8
  | .handler => 9 | .flit => 10 | .mmaMx6 => 11 | .mmaI8 => 12 | .tzc => 13 | .tcvt => 14 | .die => 15

/-- The rail an event draws on (15 R483): cores and tile arrays, HBM, links, SRAM with uncore. -/
def Ev.rail : Ev → Nat
  | .hbm | .handler => 1
  | .flit => 2
  | .lm | .cm | .dm | .hop | .die => 3
  | _ => 0

/-- Add x at place i of a list. -/
def addAt (l : List Nat) (i x : Nat) : List Nat := l.modify i (· + x)

/-- A meter's slots added to the controller's counters, and empty (15 R482). -/
def Madder.flush (m : Madder) (u : Nat) : Madder :=
  { m with
    counters := (Tbl.get [] m.meters u).foldl (fun t e => Tbl.put t e.1 (Tbl.get 0 t e.1 + e.2)) m.counters
    meters := Tbl.del m.meters u }

/-- A meter with a slot for the dye: where its 64 slots hold other dyes, it sends them to the controller first (15 R482). -/
def Madder.slotFor (m : Madder) (u : Nat) (dye : BitVec 16) : Madder :=
  let t : Tbl Energy := Tbl.get [] m.meters u
  if 64 ≤ t.length && !t.any (fun e => e.1 == dye.toNat) then m.flush u else m

/-- A raw amount of 1/256 pJ charged to a dye at a meter, corrected by its rail's factor (15 R481, R483). -/
def Madder.charge (m : Madder) (u : Nat) (dye : BitVec 16) (rail amount : Nat) : Madder :=
  let c := amount * m.factors.getD rail 65536 / 65536
  let m := m.slotFor u dye
  let t : Tbl Energy := Tbl.get [] m.meters u
  { m with
    meters := Tbl.put m.meters u (Tbl.put t dye.toNat (Tbl.get 0 t dye.toNat + c))
    charged := addAt m.charged rail c
    metered := addAt m.metered rail amount }

/-- `n` events charged to a dye (00 R11 Charge). -/
def State.charge (s : State) (u : Nat) (dye : BitVec 16) (e : Ev) (n : Nat) : State :=
  { s with madder := s.madder.charge u dye e.rail (n * s.madder.coeff.getD e.idx 0) }

/-- A router of the package: die, x, y. -/
structure Router where
  die : Nat
  x : Nat
  y : Nat
  deriving DecidableEq, Repr

/-- The router of core g (00 R4). -/
def coreRouter (g : Nat) : Router := { die := dieOf g, x := meshX g, y := meshY g }

/-- The code corrects an error of the read. -/
def eccFixes (e : Ecc) : Bool := e == .corrected || e == .mixed
/-- The code meets an error of the read that it cannot correct; a directory entry's is a memory server's. -/
def eccFails (e : Ecc) : Bool := e == .uncorrectable || e == .mixed || e == .directory

/-- The distance of two numbers. -/
def absDiff (a b : Nat) : Nat := (a - b) + (b - a)

/-- Mesh hops between two routers; between dies a free value (log entry 17). -/
def Router.hops (a b : Router) : Nat :=
  if a.die = b.die then absDiff a.x b.x + absDiff a.y b.y
  else Config.routeHops (a.die * 256 + a.y * 16 + a.x) (b.die * 256 + b.y * 16 + b.x)

/-- The routers at which a node attaches to the mesh (02 R536): a cluster's units at every core of it, DM at the four ports of its die. -/
def Node.routers : Node → List Router
  | .core g => [coreRouter g]
  | .cluster c => (List.range 16).map fun k => coreRouter (16 * c + k)
  | .dm d => [{ die := d, x := 7, y := 7 }, { die := d, x := 8, y := 7 }, { die := d, x := 7, y := 8 }, { die := d, x := 8, y := 8 }]
  | .server v => [{ die := v / 64, x := v % 32 / 2, y := if v / 32 % 2 = 0 then 0 else 15 }]
  | _ => [{ die := 0, x := 0, y := 0 }]

/-- The die of a node. -/
def Node.die (a : Node) : Nat := match a.routers with | r :: _ => r.die | [] => 0

/-- Mesh hops between two nodes: between the nearest of their routers (02 R536; a cluster's, log entry 17). -/
def Node.hops (a b : Node) : Nat :=
  let h := a.routers.flatMap fun x => b.routers.map fun y => x.hops y
  h.foldl Nat.min (h.headD 0)

/-- The meter that counts the transport of a message sent by a node (15 R481; log entry 61): a unit without a meter of its own uses the host
interface unit's. -/
def Node.meter : Node → Nat
  | .core g => g
  | .cluster c => meterCluster c
  | .server v => meterServer v
  | .scale p => meterScale p
  | _ => meterHost

/-- Flits of 64 bytes that carry a message with n bytes of data (15 R538). -/
def flitsOf (n : Nat) : Nat := max 1 ((n + 63) / 64)

/-- The transport of a message with `n` bytes of data from one node to another, charged to a dye at the sender's meter (15 R538). -/
def State.transport (s : State) (a b : Node) (dye : BitVec 16) (n : Nat) : State :=
  (s.charge a.meter dye .hop (flitsOf n * a.hops b)).charge a.meter dye .die (if a.die = b.die then 0 else flitsOf n)

/-- The transport of a message between core g and a node. -/
def State.carry (s : State) (g : Nat) (dst : Node) (dye : BitVec 16) (n : Nat) : State := s.transport (.core g) dst dye n

/-- A dye's total, meter slots not yet sent included (15 R482). -/
def Madder.total (m : Madder) (dye : Nat) : Energy :=
  Tbl.get 0 m.counters dye + (m.meters.map fun e => Tbl.get 0 e.2 dye).sum

/-- The dyes a controller or meter knows, once each. -/
def Madder.dyes (m : Madder) : List Nat :=
  (m.counters.map (·.1) ++ m.meters.flatMap fun e => e.2.map (·.1)).foldl (fun l d => insertNat d l) []

/-- ETOTAL of a partition in 1/256 pJ: the sum over its dyes (15 R482). -/
def Madder.partTotal (m : Madder) (part : Nat) : Energy :=
  ((m.dyes.filter fun d => d / 4096 == part).map m.total).sum

end Sys2Proof.Machine
end

