-- ==== Sys2Proof/Machine/NumFmt.lean ====
section
/-! DEFINITION. Number formats and arithmetic (04 R158-R182): values are exact, a sign, a natural mantissa and a power of two; a
result is rounded once. -/

namespace Sys2Proof.Machine

/-! Flags (04 R176), as a 5-bit group. -/

/-- NV, invalid. -/
def fNV : BitVec 5 := 16
/-- DZ, divide by zero. -/
def fDZ : BitVec 5 := 8
/-- OF, overflow. -/
def fOF : BitVec 5 := 4
/-- UF, underflow. -/
def fUF : BitVec 5 := 2
/-- NX, inexact. -/
def fNX : BitVec 5 := 1

/-- A floating-point format (04 R161): exponent bits, mantissa bits, bias, and whether it has infinities. -/
structure Fmt where
  e : Nat
  m : Nat
  bias : Nat
  infs : Bool
  deriving DecidableEq, Repr

/-- FP32. -/
def fp32 : Fmt := { e := 8, m := 23, bias := 127, infs := true }
/-- BF16. -/
def bf16 : Fmt := { e := 8, m := 7, bias := 127, infs := true }
/-- FP16. -/
def fp16 : Fmt := { e := 5, m := 10, bias := 15, infs := true }
/-- E4M3. -/
def e4m3 : Fmt := { e := 4, m := 3, bias := 7, infs := false }
/-- E5M2. -/
def e5m2 : Fmt := { e := 5, m := 2, bias := 15, infs := true }
/-- E3M2. -/
def e3m2 : Fmt := { e := 3, m := 2, bias := 3, infs := false }
/-- E2M1. -/
def e2m1 : Fmt := { e := 2, m := 1, bias := 1, infs := false }

/-- Bits of a format. -/
def Fmt.width (f : Fmt) : Nat := 1 + f.e + f.m

/-- Has the format a NaN (04 R161)? -/
def Fmt.hasNan (f : Fmt) : Bool := f.infs || decide (f = e4m3)

/-- The canonical NaN (04 R161, R162). -/
def Fmt.nan (f : Fmt) : Nat := if f.infs then (2 ^ f.e - 1) * 2 ^ f.m + 2 ^ (f.m - 1) else 2 ^ (f.e + f.m) - 1

/-- The magnitude bits of the largest finite value (04 R161). -/
def Fmt.maxBits (f : Fmt) : Nat :=
  if f.infs then (2 ^ f.e - 1) * 2 ^ f.m - 1 else if f = e4m3 then 2 ^ (f.e + f.m) - 2 else 2 ^ (f.e + f.m) - 1

/-- The sign bit in place. -/
def Fmt.sign (f : Fmt) (neg : Bool) : Nat := if neg then 2 ^ (f.e + f.m) else 0

/-- An infinity of a format that has one. -/
def Fmt.inf (f : Fmt) (neg : Bool) : Nat := f.sign neg + (2 ^ f.e - 1) * 2 ^ f.m

/-- A value: NaN (signalling or quiet), infinity, or (-1)^neg * m * 2^e; m = 0 is a signed zero. -/
inductive FV where
  | nan (signalling : Bool)
  | inf (neg : Bool)
  | fin (neg : Bool) (m : Nat) (e : Int)
  deriving DecidableEq, Repr

/-- The value that bits of a format stand for (04 R161, R162). -/
def Fmt.value (f : Fmt) (x : Nat) : FV :=
  let neg := x / 2 ^ (f.e + f.m) % 2 == 1
  let ex := x / 2 ^ f.m % 2 ^ f.e
  let mt := x % 2 ^ f.m
  if f.infs && ex == 2 ^ f.e - 1 then
    if mt = 0 then .inf neg else .nan (decide (mt < 2 ^ (f.m - 1)))
  else if f = e4m3 ∧ ex = 15 ∧ mt = 7 then .nan false
  else if ex = 0 then .fin neg mt (1 - f.bias - f.m)
  else .fin neg (2 ^ f.m + mt) (ex - f.bias - f.m)

/-- A magnitude between m * 2^e and (m + 1) * 2^e: exactly m * 2^e unless `more`. -/
structure Mag where
  m : Nat
  e : Int
  more : Bool
  deriving DecidableEq, Repr

/-- A magnitude cut at 2^q: the units below it, the numerator of the remainder and the power of two it is over. -/
def Mag.cut (x : Mag) (q : Int) : Nat × Nat × Nat :=
  if x.e < q then
    let sh := (q - x.e).toNat
    (x.m / 2 ^ sh, x.m % 2 ^ sh, sh)
  else (x.m * 2 ^ (x.e - q).toNat, 0, 0)

/-- Does a rounding mode go away from zero (04 R169, R170)? `lo` units, remainder `r` over 2^sh and more. -/
def roundsUp (mode : Nat) (neg : Bool) (rnd : Nat) (lo r sh : Nat) (more : Bool) : Bool :=
  let half := 2 ^ sh
  match mode with
  | 0 => decide (half < 2 * r) || (2 * r == half && (more || lo % 2 == 1))
  | 1 => false
  | 2 => neg
  | 3 => !neg
  | _ => decide (2 ^ 32 ≤ rnd + r * 2 ^ 32 / 2 ^ sh)

/-- The bits of a magnitude of `n` units of 2^q that fits the format. -/
def Fmt.bitsOf (f : Fmt) (n : Nat) (q : Int) : Nat :=
  if n < 2 ^ f.m then n
  else if n < 2 ^ (f.m + 1) then ((q + f.m + f.bias).toNat) * 2 ^ f.m + (n - 2 ^ f.m)
  else ((q + f.m + f.bias + 1).toNat) * 2 ^ f.m

/-- An overflowed result (04 R172): `away` tells that the neighbour away from zero was chosen or that the value was representable
with an unbounded exponent. -/
def Fmt.overflow (f : Fmt) (mode : Nat) (sat neg away : Bool) : Nat :=
  let big := if f.infs then f.inf neg else f.nan
  let mx := f.sign neg + f.maxBits
  if sat || !f.hasNan then mx
  else match mode with
    | 0 => big
    | 1 => mx
    | 2 => if neg then big else mx
    | 3 => if neg then mx else big
    | _ => if away then big else mx

/-- RoundTo for a nonzero magnitude (04 R168-R174): bits and flags. -/
def Fmt.roundMag (f : Fmt) (mode : Nat) (sat : Bool) (rnd : Nat) (neg : Bool) (x : Mag) : Nat × BitVec 5 :=
  let top : Int := x.e + Nat.log2 x.m
  let emin : Int := 1 - f.bias
  let q : Int := max top emin - f.m
  let (lo, r, sh) := x.cut q
  let inexact := r != 0 || x.more
  let up := inexact && roundsUp mode neg rnd lo r sh x.more
  let n := if up then lo + 1 else lo
  let code := f.bitsOf n q
  if n ≠ 0 ∧ (f.maxBits < code ∨ emin + 2 ^ f.e < top) then
    (f.overflow mode sat neg (up || !inexact), fOF ||| fNX)
  else
    (f.sign neg + code,
      (if inexact then fNX else 0) ||| (if inexact && decide (top < emin) then fUF else 0))

/-- RoundTo for any exact value (00 R11, 04 R168-R174), sign of zero as given; a NaN gives the canonical NaN, an exact infinity
R172's result without flags. -/
def Fmt.round (f : Fmt) (mode : Nat) (sat : Bool) (rnd : Nat) (v : FV) : Nat × BitVec 5 :=
  match v with
  | .nan _ => (f.nan, 0)
  | .inf neg => (if f.infs then f.inf neg else f.nan, 0)
  | .fin neg m e => if m = 0 then (f.sign neg, 0) else f.roundMag mode sat rnd neg { m := m, e := e, more := false }

/-! Exact arithmetic. -/

/-- Is a value a NaN? -/
def FV.isNan : FV → Bool
  | .nan _ => true
  | _ => false

/-- Is a value a signalling NaN? -/
def FV.isSnan : FV → Bool
  | .nan s => s
  | _ => false

/-- NV for a signalling NaN among the inputs (04 R176). -/
def nvOf (vs : List FV) : BitVec 5 := if vs.any FV.isSnan then fNV else 0

/-- A finite value as an integer multiple of 2^q, for q at or below its exponent. -/
def scaleTo (neg : Bool) (m : Nat) (e q : Int) : Int :=
  let n : Int := (m * 2 ^ (e - q).toNat : Nat)
  if neg then -n else n

/-- The zero of an exact cancellation (04 R171). -/
def zeroSign (mode : Nat) : Bool := mode == 2

/-- An integer multiple of 2^q as a value, zero with the sign given. -/
def ofScaled (x q : Int) (zneg : Bool) : FV :=
  if x = 0 then .fin zneg 0 0 else .fin (decide (x < 0)) x.natAbs q

/-- x + y, exact, with the flags of the operation itself (04 R171, R176, R178). -/
def FV.add (mode : Nat) (x y : FV) : FV × BitVec 5 :=
  match x, y with
  | .nan _, _ => (.nan false, nvOf [x, y])
  | _, .nan _ => (.nan false, nvOf [x, y])
  | .inf a, .inf b => if a = b then (.inf a, 0) else (.nan false, fNV)
  | .inf a, .fin _ _ _ => (.inf a, 0)
  | .fin _ _ _, .inf b => (.inf b, 0)
  | .fin a m e, .fin b n k =>
    if m = 0 ∧ n = 0 then (.fin (if a = b then a else zeroSign mode) 0 0, 0)
    else
      let q := min e k
      (ofScaled (scaleTo a m e q + scaleTo b n k q) q (zeroSign mode), 0)

/-- -x; a NaN stays as it is. -/
def FV.neg : FV → FV
  | .nan s => .nan s
  | .inf a => .inf !a
  | .fin a m e => .fin (!a) m e

/-- x * y, exact (04 R171, R176). -/
def FV.mul (x y : FV) : FV × BitVec 5 :=
  match x, y with
  | .nan _, _ => (.nan false, nvOf [x, y])
  | _, .nan _ => (.nan false, nvOf [x, y])
  | .inf a, .inf b => (.inf (a != b), 0)
  | .inf a, .fin b n _ => if n = 0 then (.nan false, fNV) else (.inf (a != b), 0)
  | .fin a m _, .inf b => if m = 0 then (.nan false, fNV) else (.inf (a != b), 0)
  | .fin a m e, .fin b n k => (.fin (a != b) (m * n) (e + k), 0)

/-- Bits of quotient, root and series kept beyond any format's precision. -/
def guardBits : Nat := 400

/-- x / y as a value or a magnitude between neighbours (04 R172, R176). -/
def FV.div (x y : FV) : (FV ⊕ Bool × Mag) × BitVec 5 :=
  match x, y with
  | .nan _, _ => (.inl (.nan false), nvOf [x, y])
  | _, .nan _ => (.inl (.nan false), nvOf [x, y])
  | .inf _, .inf _ => (.inl (.nan false), fNV)
  | .inf a, .fin b _ _ => (.inl (.inf (a != b)), 0)
  | .fin a _ _, .inf b => (.inl (.fin (a != b) 0 0), 0)
  | .fin a m e, .fin b n k =>
    if m = 0 ∧ n = 0 then (.inl (.nan false), fNV)
    else if n = 0 then (.inl (.inf (a != b)), fDZ)
    else if m = 0 then (.inl (.fin (a != b) 0 0), 0)
    else
      let t := m * 2 ^ guardBits
      (.inr (a != b, { m := t / n, e := e - k - guardBits, more := t % n != 0 }), 0)

/-- Round a value or a magnitude. -/
def Fmt.roundAny (f : Fmt) (mode : Nat) (rnd : Nat) (r : (FV ⊕ Bool × Mag) × BitVec 5) : Nat × BitVec 5 :=
  match r with
  | (.inl v, fl) => let (b, g) := f.round mode false rnd v; (b, g ||| fl)
  | (.inr (neg, x), fl) => let (b, g) := f.roundMag mode false rnd neg x; (b, g ||| fl)

/-- The square root of a positive magnitude. -/
def sqrtMag (m : Nat) (e : Int) : Mag :=
  let (m1, e1) := if e % 2 = 0 then (m, e) else (2 * m, e - 1)
  let t := m1 * 2 ^ (2 * guardBits)
  let r := Nat.sqrt t
  { m := r, e := e1 / 2 - guardBits, more := r * r != t }

/-! Series in fixed point with 2^-fixBits as unit (log entry 10). -/

/-- Fraction bits of a fixed-point series. -/
def fixBits : Nat := 448

/-- One, in fixed point. -/
def fixOne : Nat := 2 ^ fixBits

/-- The sum of t^(2i+1) / (2i+1), which is artanh t, for t below 1/2 in fixed point. -/
def artanhFix (t : Nat) : Nat → Nat → Nat → Nat
  | 0, _, _ => 0
  | fuel + 1, pw, i => pw / (2 * i + 1) + artanhFix t fuel (pw * t / fixOne * t / fixOne) (i + 1)

/-- ln 2 in fixed point: 2 artanh (1/3). -/
def ln2Fix : Nat := 2 * artanhFix (fixOne / 3) 200 (fixOne / 3) 0

/-- e^t for t below 1 in fixed point, by its series. -/
def expFix (t : Nat) : Nat → Nat → Nat → Nat
  | 0, _, _ => 0
  | fuel + 1, term, i => term + expFix t fuel (term * t / fixOne / (i + 1)) (i + 1)

/-- 2^x for x = (-1)^neg m 2^e that is not an integer, below 2^20 in magnitude: a magnitude (never exact). -/
def exp2Mag (neg : Bool) (m : Nat) (e : Int) : Mag :=
  let xf : Int := if e + fixBits ≥ 0 then (m * 2 ^ (e + fixBits).toNat : Nat) else (m / 2 ^ (-(e + fixBits)).toNat : Nat)
  let x : Int := if neg then -xf else xf
  let i := x / fixOne
  let f := (x % fixOne).toNat
  let y := expFix (f * ln2Fix / fixOne) 110 fixOne 0
  if f = 0 then
    if neg then { m := fixOne - 1, e := i - fixBits, more := true } else { m := fixOne, e := i - fixBits, more := true }
  else { m := y, e := i - fixBits, more := true }

/-- log2 of a positive finite value that is no power of two: sign and magnitude (never exact). -/
def log2Mag (m : Nat) (e : Int) : Bool × Mag :=
  let k := Nat.log2 m
  let z := m * fixOne / 2 ^ k
  let t := (z - fixOne) * fixOne / (z + fixOne)
  let l := 2 * artanhFix t 200 t 0 * fixOne / ln2Fix
  let v : Int := (e + k) * fixOne + l
  (decide (v < 0), { m := (if v < 0 then v.natAbs - 1 else v.natAbs), e := -(fixBits : Int), more := true })

/-- tanh of a positive magnitude (never exact): x less a sliver when x is tiny, 1 less a sliver when x is large. -/
def tanhMag (m : Nat) (e : Int) : Mag :=
  let top := e + Nat.log2 m
  if top < -60 then { m := m * 2 ^ 200 - 1, e := e - 200, more := true }
  else if 7 ≤ top then { m := 2 ^ 200 - 1, e := -200, more := true }
  else
    -- e^(2x) = 2^(2x / ln 2)
    let xf : Nat := if e + fixBits ≥ 0 then m * 2 ^ (e + fixBits).toNat else m / 2 ^ (-(e + fixBits)).toNat
    let u := 2 * xf * fixOne / ln2Fix
    let i := u / fixOne
    let y := expFix (u % fixOne * ln2Fix / fixOne) 110 fixOne 0
    -- (2^i y - 1) / (2^i y + 1)
    let w := y * 2 ^ i
    { m := (w - fixOne) * fixOne / (w + fixOne), e := -(fixBits : Int), more := true }

/-- The functions of 09 R340, R341. -/
inductive Fun where
  | exp2 | log2 | rcp | rsq | tanh | sqrt
  deriving DecidableEq, Repr

/-- A function's place among the free choices. -/
def Fun.code : Fun → Nat
  | .exp2 => 0 | .log2 => 1 | .rcp => 2 | .rsq => 3 | .tanh => 4 | .sqrt => 5

/-- The exact result of a function or a magnitude between neighbours, with its own flags (09 R340, R341). -/
def Fun.eval (fn : Fun) (x : FV) : (FV ⊕ Bool × Mag) × BitVec 5 :=
  let one : FV := .fin false 1 0
  match fn, x with
  | _, .nan s => (.inl (.nan false), if s then fNV else 0)
  | .exp2, .inf neg => (.inl (if neg then .fin false 0 0 else .inf false), 0)
  | .exp2, .fin neg m e =>
    if m = 0 then (.inl one, 0)
    else if 20 ≤ e + Nat.log2 m then
      -- far beyond every format: an overflow or a tiny value
      (.inr (false, { m := 1, e := if neg then -1048576 else 1048576, more := false }), 0)
    else if 0 ≤ e ∨ m % 2 ^ (-e).toNat = 0 then
      let n : Int := if 0 ≤ e then (m * 2 ^ e.toNat : Nat) else (m / 2 ^ (-e).toNat : Nat)
      (.inr (false, { m := 1, e := if neg then -n else n, more := false }), 0)
    else (.inr (false, exp2Mag neg m e), 0)
  | .log2, .inf neg => if neg then (.inl (.nan false), fNV) else (.inl (.inf false), 0)
  | .log2, .fin neg m e =>
    if m = 0 then (.inl (.inf true), fDZ)
    else if neg then (.inl (.nan false), fNV)
    else if m = 2 ^ Nat.log2 m then
      let v : Int := e + Nat.log2 m
      (.inl (if v = 0 then .fin false 0 0 else .fin (decide (v < 0)) v.natAbs 0), 0)
    else (.inr (log2Mag m e), 0)
  | .rcp, .inf neg => (.inl (.fin neg 0 0), 0)
  | .rcp, .fin neg m e => if m = 0 then (.inl (.inf neg), fDZ) else FV.div one (.fin neg m e)
  | .rsq, .inf neg => if neg then (.inl (.nan false), fNV) else (.inl (.fin false 0 0), 0)
  | .rsq, .fin neg m e =>
    if m = 0 then (.inl (.inf neg), fDZ)
    else if neg then (.inl (.nan false), fNV)
    else
      let (m1, e1) := if e % 2 = 0 then (m, e) else (2 * m, e - 1)
      let t := 2 ^ (2 * guardBits)
      let r := Nat.sqrt (t / m1)
      (.inr (false, { m := r, e := -(e1 / 2) - guardBits, more := r * r * m1 != t }), 0)
  | .tanh, .inf neg => (.inl (.fin neg 1 0), 0)
  | .tanh, .fin neg m e => if m = 0 then (.inl (.fin neg 0 0), 0) else (.inr (neg, tanhMag m e), 0)
  | .sqrt, .inf neg => if neg then (.inl (.nan false), fNV) else (.inl (.inf false), 0)
  | .sqrt, .fin neg m e =>
    if m = 0 then (.inl (.fin neg 0 0), 0)
    else if neg then (.inl (.nan false), fNV)
    else (.inr (false, sqrtMag m e), 0)

/-- An FP32 value of a magnitude's sign by its place from zero upward, in units of 2^-149: a negative place has the other sign. -/
def place32 (t : Int) : Int :=
  let n := t.natAbs
  let v : Nat := if n / 2 ^ 23 = 0 then n else (2 ^ 23 + n % 2 ^ 23) * 2 ^ (n / 2 ^ 23 - 1)
  if t < 0 then -(v : Int) else v

/-- One unit in the last place of a magnitude in FP32, in units of 2^-149. -/
def ulp32 (v : Mag) : Nat := 2 ^ (v.e + Nat.log2 v.m + 126).toNat

/-- The FP32 value at a place lies within `k` units in the last place of a magnitude (09 R341). -/
def within32 (k : Nat) (v : Mag) (t : Int) : Bool :=
  let scale : Int := min v.e (-149)
  let x : Int := v.m * 2 ^ (v.e - scale).toNat
  let unit : Int := 2 ^ (-149 - scale).toNat
  let lo := (place32 t - k * ulp32 v) * unit
  let hi := (place32 t + k * ulp32 v) * unit
  decide (lo ≤ x) && decide (if v.more then x < hi else x ≤ hi)

/-- The places of the finite FP32 values within a function's bound of a magnitude; `t` is the place at or below it. -/
def places32 (k : Nat) (v : Mag) (t : Int) : List Int :=
  ((List.range 8).map fun (i : Nat) => t - 4 + (i : Int)).filter fun x => within32 k v x && decide (x < 0x7F800000)

/-- An FP32 result of an approximate function (09 R341): one of the values within the error bound, chosen by the part; exact when
representable. Which one it is, and the sign of a result that is zero, are free (log entry 10). -/
def approx32 (fn : Fun) (x : Nat) (neg : Bool) (v : Mag) : Nat × BitVec 5 :=
  let lo := fp32.roundMag 1 false 0 neg v
  let (near, fl) := fp32.roundMag 0 false 0 neg v
  if fl &&& fNX == 0 ∨ fl &&& fOF != 0 then (near, fl)
  else
    let l := places32 (if fn = .tanh then 2 else 1) v (lo.1 % 2 ^ 31)
    let c := Config.approxChoice fn.code (BitVec.ofNat 64 x) l.length % l.length
    let t := l.getD c 0
    let turn := if t = 0 then Config.approxChoice (fn.code + 8) (BitVec.ofNat 64 x) 2 % 2 == 1 else decide (t < 0)
    (fp32.sign (neg != turn) + t.natAbs, fl)

/-- A function applied to bits of a format (09 R340, R341). -/
def Fun.apply (fn : Fun) (f : Fmt) (mode rnd x : Nat) : Nat × BitVec 5 :=
  match fn.eval (f.value x) with
  | (.inr (neg, v), fl) =>
    if f = fp32 ∧ fn ≠ .sqrt then let (b, g) := approx32 fn x neg v; (b, g ||| fl)
    else f.roundAny mode rnd (.inr (neg, v), fl)
  | r => f.roundAny mode rnd r

/-! Element codes (04 R158). -/

/-- An element type in ANY: signed or unsigned of some bits, or a float. -/
inductive Ty where
  | int (bits : Nat) (signed : Bool)
  | flt (f : Fmt)
  deriving DecidableEq, Repr

/-- The type of an element code; none for an MX code. -/
def Ty.ofCode (c : Nat) : Option Ty :=
  match c with
  | 0 => some (.int 8 true) | 1 => some (.int 16 true) | 2 => some (.int 32 true) | 3 => some (.int 64 true)
  | 4 => some (.int 8 false) | 5 => some (.int 16 false) | 6 => some (.int 32 false) | 7 => some (.int 64 false)
  | 8 => some (.flt fp32) | 9 => some (.flt bf16) | 10 => some (.flt fp16) | 11 => some (.flt e4m3) | 12 => some (.flt e5m2)
  | _ => none

/-- The element format of an MX code. -/
def mxFmt (c : Nat) : Option Fmt :=
  match c with
  | 13 => some e4m3 | 14 => some e3m2 | 15 => some e2m1 | _ => none

/-- Bits of an element of a type. -/
def Ty.bits : Ty → Nat
  | .int b _ => b
  | .flt f => f.width

/-- Bits of an element of any code (04 R158, R166). -/
def codeBits (c : Nat) : Nat :=
  match Ty.ofCode c with
  | some t => t.bits
  | none => match mxFmt c with | some f => f.width | none => 0

/-- The integer that bits of an iN or nN stand for (04 R159). -/
def intVal (bits : Nat) (signed : Bool) (x : Nat) : Int :=
  let y := x % 2 ^ bits
  if signed && decide (2 ^ (bits - 1) ≤ y) then (y : Int) - 2 ^ bits else y

/-- The low bits of an integer (04 R159). -/
def wrapInt (bits : Nat) (x : Int) : Nat := (x % (2 ^ bits : Nat)).toNat

/-- The smallest value of an iN or nN. -/
def intMin (bits : Nat) (signed : Bool) : Int := if signed then -(2 ^ (bits - 1) : Nat) else 0

/-- The largest value of an iN or nN. -/
def intMax (bits : Nat) (signed : Bool) : Int := if signed then (2 ^ (bits - 1) : Nat) - 1 else (2 ^ bits : Nat) - 1

/-- The nearest value of the range. -/
def clampInt (bits : Nat) (signed : Bool) (x : Int) : Int := max (intMin bits signed) (min (intMax bits signed) x)

/-- A value rounded to an integer in a mode, and whether inexactly (04 R175). -/
def roundInt (mode rnd : Nat) (neg : Bool) (m : Nat) (e : Int) : Int × Bool :=
  let x : Mag := { m := m, e := e, more := false }
  let (lo, r, sh) := x.cut 0
  let up := r != 0 && roundsUp mode neg rnd lo r sh false
  let n : Int := if up then lo + 1 else lo
  (if neg then -n else n, r != 0)

/-- The exact value of bits of a type. -/
def Ty.value (t : Ty) (x : Nat) : FV :=
  match t with
  | .int b sg => let v := intVal b sg x; .fin (decide (v < 0)) v.natAbs 0
  | .flt f => f.value x

/-- A float value into a format by conversion (04 R172, R173, R175). -/
def Fmt.convert (f : Fmt) (mode : Nat) (sat : Bool) (rnd : Nat) (v : FV) : Nat × BitVec 5 :=
  match v with
  | .nan s => (f.nan, if s then fNV else 0)
  | .inf neg =>
    if sat || !f.hasNan then (f.sign neg + f.maxBits, fOF ||| fNX)
    else if f.infs then (f.inf neg, 0)
    else (f.nan, fNV)
  | .fin neg m e => if m = 0 then (f.sign neg, 0) else f.roundMag mode sat rnd neg { m := m, e := e, more := false }

/-- A float value into an integer type (04 R175). -/
def toInt (bits : Nat) (signed : Bool) (mode rnd : Nat) (v : FV) : Nat × BitVec 5 :=
  match v with
  | .nan _ => (0, fNV)
  | .inf neg => (wrapInt bits (if neg then intMin bits signed else intMax bits signed), fNV)
  | .fin neg m e =>
    let (n, nx) := roundInt mode rnd neg m e
    if n < intMin bits signed ∨ intMax bits signed < n then (wrapInt bits (clampInt bits signed n), fNV)
    else (wrapInt bits n, if nx then fNX else 0)

/-- The conversions between types of ANY (04 R175). -/
def convert (src dst : Ty) (mode : Nat) (sat : Bool) (rnd x : Nat) : Nat × BitVec 5 :=
  match src, dst with
  | .flt f, .flt g => g.convert mode sat rnd (f.value x)
  | .flt f, .int b sg => toInt b sg mode rnd (f.value x)
  | .int b sg, .flt g =>
    let v := intVal b sg x
    if v = 0 then (0, 0)
    else g.roundMag mode sat rnd (decide (v < 0)) { m := v.natAbs, e := 0, more := false }
  | .int b sg, .int b' sg' =>
    let v := intVal b sg x
    if sat && b != b' then (wrapInt b' (clampInt b' sg' v), 0) else (wrapInt b' v, 0)

/-! MX blocks (04 R163-R167). -/

/-- The value of an MX element under its scale; a 0xFF scale makes a quiet NaN (04 R165). -/
def mxValue (f : Fmt) (scale x : Nat) : FV :=
  if scale = 255 then .nan false
  else match f.value x with
    | .fin neg m e => .fin neg m (e + (scale : Int) - 127)
    | v => v

/-- The exponent of the largest finite value of an MX element format (04 R167). -/
def mxEmax (f : Fmt) : Int := if f = e4m3 then 8 else if f = e3m2 then 4 else 2

/-- The place of the highest bit of the largest magnitude of a block, when some element is nonzero. -/
def blockTop (vs : List FV) : Option Int :=
  vs.foldl (fun a v => match v with
    | .fin _ m e => if m = 0 then a else
        let t : Int := e + Nat.log2 m
        match a with | none => some t | some b => some (max t b)
    | _ => a) none

/-- The conversion of 32 values to an MX block (04 R167): scale, elements, flags. Element i takes the random value `rnd i`. -/
def toMx (f : Fmt) (mode : Nat) (rnd : Nat → Nat) (vs : List FV) : Nat × List Nat × BitVec 5 :=
  if vs.any fun v => match v with | .fin _ _ _ => false | _ => true then
    (255, vs.map fun _ => 0,
      if vs.any fun v => match v with | .inf _ => true | .nan s => s | _ => false then fNV else 0)
  else
    let scale : Nat := match blockTop vs with
      | none => 0
      | some t => (max 0 (min 254 (t - mxEmax f + 127))).toNat
    let rs := vs.zipIdx.map fun (v, i) => match v with
      | .fin neg m e => if m = 0 then (f.sign neg, (0 : BitVec 5))
          else f.roundMag mode true (rnd i) neg { m := m, e := e - ((scale : Int) - 127), more := false }
      | _ => (0, 0)
    (scale, rs.map (·.1), rs.foldl (fun a r => a ||| r.2) 0)

/-- The packed bytes of MX elements (04 R166): a little-endian number of `width` bits each. -/
def packElems (width : Nat) (xs : List Nat) : Nat :=
  xs.foldr (fun x a => x % 2 ^ width + 2 ^ width * a) 0

/-! Random values (09 R350). -/

/-- A 32-bit rotation to the left. -/
def rotl32 (v n : Nat) : Nat := (v * 2 ^ n) % 2 ^ 32 + v / 2 ^ (32 - n)

/-- The rounds of Gen from round r on. -/
def genRounds (k0 k1 : Nat) : Nat → Nat → Nat → Nat → Nat
  | 0, _, x, y => x ^^^ y
  | fuel + 1, r, x, y =>
    let x1 := (x + y + (if r % 2 = 0 then k0 else k1)) % 2 ^ 32
    let y1 := rotl32 y 12 ^^^ x1
    genRounds k0 k1 fuel (r + 1) (rotl32 x1 8) y1

/-- Gen(key, ctr) (09 R350). -/
def gen (key ctr : Word) : Nat :=
  let k0 := (key.toNat % 2 ^ 32 + 0x9E3779B9) % 2 ^ 32
  let k1 := (key.toNat / 2 ^ 32 + 0x9E3779B9) % 2 ^ 32
  genRounds k0 k1 10 0 (ctr.toNat % 2 ^ 32) (ctr.toNat / 2 ^ 32)

end Sys2Proof.Machine
end

