-- ==== Sys2Proof/WellFormed.lean ====
section
/-! DEFINITION. Which instructions are well formed: the checks of 05 R192 step 2 on the fields that remain once the zero
fields of R197 are gone (05 R198, 06 R226, R233, R241, 07 R255, R260, R266, 08 R302, R305, R315, R319, 09 R326, R336,
10 R366, R371, R378, 13 R412). -/

namespace Sys2Proof

/-- The opcode classes of 05 R197. -/
inductive OpClass where
  | h | s | i | u | j | m | b | l | k | f | v | x
  deriving DecidableEq, Repr

/-- The tail-size field of a class (05 R197). -/
def OpClass.tsz : OpClass → BitVec 2
  | .h => 0 | .s => 1 | .i => 1 | .u => 1 | .j => 1
  | .m => 2 | .b => 2 | .l => 2 | .k => 2 | .f => 2 | .v => 2 | .x => 3

/-- Half-words of tail for a tail-size field (05 R186). -/
def tailHalves (t : BitVec 2) : Nat := match t.toNat with | 0 => 0 | 1 => 1 | 2 => 2 | _ => 4

/-- The opcode of a head (05 R185). -/
def headOp (w : Half) : BitVec 8 := w.extractLsb' 6 8

/-- One row of the opcode map of 05 R199. -/
def opMapRow : Nat → List (Option OpClass)

  | 0 => [some .h, some .s, some .s, some .s, some .s, some .s, some .s, some .s, some .s, some .s, some .s, some .s, some .i, some .i, some .i, some .i]
  | 1 => [some .u, some .k, some .x, some .f, some .f, some .m, some .k, some .j, some .l, some .b, some .b, some .b, some .b, some .b, some .b, some .j]
  | 2 => [some .h, some .l, some .h, some .h, some .m, some .m, some .m, some .m, some .m, some .m, some .s]
  | 3 => [some .m, some .m, some .m, some .m, some .m, some .m, some .m, some .m, some .m, some .m, some .m, some .m, some .m, some .m, some .m, some .m]
  | 4 => [some .h, some .s, some .h, some .h, some .h, some .h, some .h, some .s, some .s, some .m]
  | 5 => [some .s, some .h, some .s, some .s, some .s, some .s, some .s, some .s, some .s, some .s, some .s, some .s, some .s, some .h, some .s, some .h]
  | 6 => [some .h, some .h, some .h, some .i, some .i, some .i, some .s, some .s]
  | 7 => [some .i, some .v, some .v, some .v, some .v, some .v, some .v, some .v, some .v, some .v, some .v, some .v, some .v, some .v, some .v, some .v]
  | 8 => [some .v, some .v, some .v, some .v, some .v, some .v, some .v, some .v, some .v, some .v, some .v, some .v, some .v, some .v, some .v, some .v]
  | 9 => [some .v, some .v, some .h, some .v, some .v, some .v]
  | 10 => [some .h, some .h, some .s, some .m, some .m, some .h, some .s, some .s, some .s, some .s, some .s, some .s, some .s, some .s, some .s, some .s]
  | 11 => [some .i, some .h, some .h, some .s, some .s, some .s, some .m, some .m]
  | 12 => [some .i, some .h, some .i, some .i, some .s, some .s, some .s, some .s, some .s, some .h, some .h, some .h, some .h]
  | _ => []

/-- The class of an opcode; none when the opcode is unallocated (05 R199, R201). -/
def opClass (op : BitVec 8) : Option OpClass :=
  ((opMapRow (op.toNat / 16))[op.toNat % 16]?).join

/-- The widths an atomic's m field may name (07 R260): 4 or 8 bytes, and FP32 or BF16 for AFADD. -/
def AtomOps.widthOk (float : Bool) (o : AtomOps) : Bool :=
  if float then o.m == 1 || o.m == 2 else o.m == 2 || o.m == 3

/-- An atomic without an ordering has scope 0 (07 R260). -/
def AtomOps.scopeOk (o : AtomOps) : Bool := o.ord != 0 || o.sc == 0

/-- The widths a reduction's m field may name (07 R266). -/
def RedOps.widthOk (float : Bool) (o : RedOps) : Bool :=
  if float then o.m == 1 || o.m == 2 else o.m == 2 || o.m == 3

/-- A reduction without an ordering has scope 0 (07 R266 with R260). -/
def RedOps.scopeOk (o : RedOps) : Bool := o.rel || o.sc == 0

/-- How an instruction of 09 R336 uses its operand fields. -/
inductive VShape where
  | arith | binary | compare | unary | unaryR | convert | reduce | scan | broadcast | permute | gather | scatter | random
  deriving DecidableEq, Repr

/-- The fields that name a stream which may carry inc (09 R336), as bits a, b, c in the order of inc: a is bit 2.
VRED's destination and VBCAST's element pointer take neither inc nor str. -/
def VShape.streams (sh : VShape) (scalar : Bool) : BitVec 3 :=
  match sh with
  | .arith | .binary | .compare => if scalar then 0b110 else 0b111
  | .unary | .unaryR | .scan => 0b110
  | .convert => 0b111
  | .reduce => 0b010
  | .broadcast => 0b100
  | .permute => 0b110
  | .gather => 0b101
  | .scatter => 0b011
  | .random => 0b100

/-- The scalar flag SC as 09 R325 and R336 restrict it. -/
def VShape.scalarOk (sh : VShape) (m : BitVec 2) (scalar : Bool) : Bool :=
  match sh with
  | .arith | .binary | .compare => true
  | .permute | .random => scalar
  | .broadcast => if m == 0 then scalar else !scalar
  | _ => !scalar

/-- Does the instruction round (09 R336)? -/
def VShape.roundsOk (sh : VShape) (rnd : BitVec 3) : Bool :=
  match sh with
  | .arith | .unaryR | .convert => decide (rnd.toNat < 5)
  | .reduce | .scan => decide (rnd.toNat < 4)
  | _ => rnd == 0

/-- x10[8:0] as 09 R336 and R343 give it: a condition, an operator, or zero. -/
def VShape.xOk (sh : VShape) (x : BitVec 9) : Bool :=
  match sh with
  | .compare => decide (x.toNat < 8)
  | .reduce | .scan => decide (x.toNat < 6)
  | _ => x == 0

/-- The scalar flag SC (09 R324). -/
def VOps.scalar (o : VOps) : Bool := o.x10.getLsbD 9

/-- Fields that name no operand are zero (05 R198, 09 R325, R336); m is zero but for VBCAST. -/
def VShape.zeroOk (sh : VShape) (o : VOps) : Bool :=
  (match sh with
    | .broadcast => (o.m == 0 && o.b == 0) || (o.m == 1 && o.c == 0)
    | _ => o.m == 0) &&
  (match sh with
    | .unary | .unaryR | .reduce | .scan => o.c == 0
    | _ => true)

/-- The checks of 09 R326 that are made at the head. -/
def VOps.headOk (sh : VShape) (o : VOps) : Bool :=
  let st := sh.streams o.scalar
  o.str &&& ~~~o.inc == 0 &&
  o.inc &&& ~~~st == 0 &&
  !(o.inc.getLsbD 2 && o.inc.getLsbD 1 && o.a == o.b) &&
  !(o.inc.getLsbD 2 && o.inc.getLsbD 0 && o.a == o.c) &&
  !(o.inc.getLsbD 1 && o.inc.getLsbD 0 && o.b == o.c) &&
  sh.roundsOk o.rnd &&
  (o.rnd != 4 || (o.str == 0 && Reg.even o.e)) &&
  (o.str != 0 || o.rnd == 4 || o.e == 0) &&
  (!o.sat || sh == .convert) &&
  sh.scalarOk o.m o.scalar &&
  sh.xOk (o.x10.extractLsb' 0 9) &&
  !(sh == .convert && o.str.getLsbD 0) &&
  sh.zeroOk o

/-- Is the row one of the device's own steps, and so without a word of its own (spec/95)? An unallocated opcode is none: a process meets it in a line. -/
def Instr.isEvent : Instr → Bool

  | .nop => false
  | .add .. => false
  | .sub .. => false
  | .mul .. => false
  | .mulh .. => false
  | .mulhu .. => false
  | .mulhsu .. => false
  | .div .. => false
  | .divu .. => false
  | .rem .. => false
  | .remu .. => false
  | .and .. => false
  | .or .. => false
  | .xor .. => false
  | .andn .. => false
  | .shl .. => false
  | .shr .. => false
  | .sar .. => false
  | .ror .. => false
  | .min .. => false
  | .minu .. => false
  | .max .. => false
  | .maxu .. => false
  | .cset .. => false
  | .sel .. => false
  | .clz .. => false
  | .ctz .. => false
  | .popc .. => false
  | .brev .. => false
  | .sxb .. => false
  | .sxh .. => false
  | .sxw .. => false
  | .zxw .. => false
  | .addi .. => false
  | .andi .. => false
  | .ori .. => false
  | .xori .. => false
  | .shli .. => false
  | .shri .. => false
  | .sari .. => false
  | .rori .. => false
  | .seqi .. => false
  | .snei .. => false
  | .slti .. => false
  | .sltui .. => false
  | .moviU .. => false
  | .moviUZero .. => false
  | .moviK .. => false
  | .moviKZero .. => false
  | .moviX .. => false
  | .bfx .. => false
  | .bfi .. => false
  | .lea .. => false
  | .leap .. => false
  | .brJ .. => false
  | .brL .. => false
  | .beq .. => false
  | .bne .. => false
  | .blt .. => false
  | .bge .. => false
  | .bltu .. => false
  | .bgeu .. => false
  | .loop .. => false
  | .brx .. => false
  | .call .. => false
  | .callr .. => false
  | .ret => false
  | .ld .. => false
  | .st .. => false
  | .ldp .. => false
  | .stp .. => false
  | .ldc .. => false
  | .stc .. => false
  | .ldcg .. => false
  | .stcg .. => false
  | .movp .. => false
  | .ldg .. => false
  | .stg .. => false
  | .ldgp .. => false
  | .stgp .. => false
  | .aadd .. => false
  | .aand .. => false
  | .aor .. => false
  | .axor .. => false
  | .amin .. => false
  | .aminu .. => false
  | .amax .. => false
  | .amaxu .. => false
  | .axchg .. => false
  | .acas .. => false
  | .afadd .. => false
  | .redadd .. => false
  | .redand .. => false
  | .redor .. => false
  | .redxor .. => false
  | .redmin .. => false
  | .redminu .. => false
  | .redmax .. => false
  | .redmaxu .. => false
  | .redfadd .. => false
  | .fence .. => false
  | .fencer .. => false
  | .snapset .. => false
  | .snapreg .. => false
  | .snaprel => false
  | .txb .. => false
  | .txc .. => false
  | .txa => false
  | .pub .. => false
  | .rdto .. => false
  | .rdtoWithReport .. => false
  | .rdtox .. => false
  | .rdtoxWithReport .. => false
  | .rdtog .. => false
  | .rdtogWithReport .. => false
  | .rdtogx .. => false
  | .rdtogxWithReport .. => false
  | .ldtag .. => false
  | .chopen .. => false
  | .chclose .. => false
  | .send .. => false
  | .sendb .. => false
  | .sendt .. => false
  | .sendh .. => false
  | .recv .. => false
  | .recvb .. => false
  | .recvt .. => false
  | .recvh .. => false
  | .altp .. => false
  | .altf .. => false
  | .spawn .. => false
  | .stop => false
  | .join .. => false
  | .yield => false
  | .setpri .. => false
  | .time .. => false
  | .twait .. => false
  | .bara .. => false
  | .barw .. => false
  | .barx .. => false
  | .rden .. => false
  | .rdsv .. => false
  | .vsetl .. => false
  | .vadd .. => false
  | .vsub .. => false
  | .vmul .. => false
  | .vdiv .. => false
  | .vfma .. => false
  | .vmin .. => false
  | .vmax .. => false
  | .vabs .. => false
  | .vneg .. => false
  | .vcmp .. => false
  | .vsel .. => false
  | .vand .. => false
  | .vor .. => false
  | .vxor .. => false
  | .vnot .. => false
  | .vshl .. => false
  | .vshr .. => false
  | .vsar .. => false
  | .vcvt .. => false
  | .vexp2 .. => false
  | .vlog2 .. => false
  | .vrcp .. => false
  | .vrsq .. => false
  | .vtanh .. => false
  | .vsqrt .. => false
  | .vred .. => false
  | .vscan .. => false
  | .vbcast .. => false
  | .vperm .. => false
  | .vgather .. => false
  | .vscatter .. => false
  | .vrand .. => false
  | .vmov .. => false
  | .vflg .. => false
  | .vsadd .. => false
  | .vssub .. => false
  | .vmulh .. => false
  | .tacq => false
  | .trel => false
  | .tset .. => false
  | .tld .. => false
  | .tst .. => false
  | .tzcC .. => false
  | .tzcT .. => false
  | .tmmaBf16 .. => false
  | .tmmaF16 .. => false
  | .tmmaE4m3 .. => false
  | .tmmaE5m2 .. => false
  | .tmmaMxf8 .. => false
  | .tmmaMxf6 .. => false
  | .tmmaMxf4 .. => false
  | .tmmaI8 .. => false
  | .tcvt .. => false
  | .ttran .. => false
  | .tldc .. => false
  | .tstc .. => false
  | .cpset .. => false
  | .cpgo .. => false
  | .cpwait .. => false
  | .rgwait .. => false
  | .rgrel .. => false
  | .scrub .. => false
  | .trap .. => false
  | .eret => false
  | .krd .. => false
  | .kwr .. => false
  | .resume .. => false
  | .kill .. => false
  | .mintGroup .. => false
  | .mintFarPointer .. => false
  | .rights .. => false
  | .plbinv .. => false
  | .ifence => false
  | .waiti .. => false
  | .quiesce .. => false
  | .brk => false
  | .linePrefetch .. => true
  | .sliceEnd .. => true
  | .priority0Preemption .. => true
  | .deadlineComparison .. => true
  | .channelHeaderArrival .. => true
  | .headerResend .. => true
  | .transferGrant .. => true
  | .transferDone .. => true
  | .doneMessage .. => true
  | .grantedDataArrival .. => true
  | .acceptance .. => true
  | .closedReply .. => true
  | .loadDataArrival .. => true
  | .errorResponse .. => true
  | .deferredFaultTrap .. => true
  | .writeQueueDrain .. => true
  | .storeAcknowledgement .. => true
  | .homeRead .. => true
  | .homeWrite .. => true
  | .homeAtomic .. => true
  | .atomicWatchdog .. => true
  | .translationWalk .. => true
  | .plbMiss .. => true
  | .snapshotRequest .. => true
  | .epochMarker .. => true
  | .epochMarkerAcknowledgement .. => true
  | .snapshotReply .. => true
  | .watermarkBroadcast .. => true
  | .vheldBroadcast .. => true
  | .firnLineBroadcast .. => true
  | .prepare .. => true
  | .vote .. => true
  | .apply .. => true
  | .abortTxid .. => true
  | .abortAcknowledgement .. => true
  | .publishApply .. => true
  | .copyRegistration .. => true
  | .revocation .. => true
  | .revocationNotice .. => true
  | .ablationReclaim .. => true
  | .sourceRead .. => true
  | .thirdPartyDelivery .. => true
  | .failedVoidDelivery .. => true
  | .errorCompletion .. => true
  | .report .. => true
  | .copyTransfer .. => true
  | .copyCompletion .. => true
  | .tileCommandStart .. => true
  | .tileCommandComplete .. => true
  | .barrierArrival .. => true
  | .barrierRelease .. => true
  | .frostSweep .. => true
  | .sweepResult .. => true
  | .completionRecord .. => true
  | .nrgo .. => true
  | .launch .. => true
  | .launchStart .. => true
  | .netdel .. => true
  | .crcons .. => true
  | .abort .. => true
  | .hold .. => true
  | .registerWrite .. => true
  | .held .. => true
  | .partitionResume .. => true
  | .quotaComparison => true
  | .meterFlush .. => true
  | .correctionFactor .. => true
  | .equota .. => true
  | .create .. => true
  | .destroy .. => true
  | .merge .. => true
  | .split .. => true
  | .retire .. => true
  | .badOp .. => true
  | .ptmap .. => true
  | .ptunmap .. => true
  | .domset .. => true
  | .rangeset .. => true
  | .ceweight .. => true
  | .farmap .. => true
  | .farepoch .. => true
  | .qpcreate .. => true
  | .qpreset .. => true
  | .sparerow .. => true
  | .poisonset .. => true
  | .mailboxBadOp .. => true
  | .dbell .. => true
  | .sres .. => true
  | .skill .. => true
  | .flcons .. => true
  | .hvgo .. => true
  | .harvestEnd .. => true
  | .rcgo .. => true
  | .podcfg .. => true
  | .perstDeassert => true
  | .unitReady .. => true
  | .functionLevelReset .. => true
  | .physicalFunctionReset => true
  | .flitReceive .. => true
  | .negativeAcknowledgement .. => true
  | .laneFailure .. => true
  | .deadList .. => true
  | .packetReturn .. => true
  | .unreachableWatchdog .. => true
  | .workRequest .. => true
  | .scaleOutPacket .. => true
  | .retransmit .. => true
  | .bar2Read .. => true
  | .bar2Write .. => true
  | .lockInterface .. => true
  | .startInterface .. => true
  | .stopInterface .. => true
  | .getDeviceInterfaceReport .. => true
  | .ideKm .. => true
  | .keyLoad .. => true
  | .keyDrop .. => true
  | .getVersion .. => true
  | .getCapabilities .. => true
  | .negotiateAlgorithms .. => true
  | .getDigests .. => true
  | .getCertificate .. => true
  | .challenge .. => true
  | .getMeasurements .. => true
  | .keyExchange .. => true
  | .finish .. => true
  | .endSession .. => true
  | .rowspare .. => true
  | .parity .. => true
  | .elementGroup .. => true
  | .unallocatedOpcode .. => false
  | .configurationWrite .. => true
  | .linkRetrainingEnd .. => true
  | .firmwareImageVerified .. => true
  | .podSynchronisation .. => true

/-- The field checks of 05 R192 step 2. The device's own steps have no fields to check, but for an unallocated opcode's. -/
def Instr.wf : Instr → Bool

  | .nop => true
  | .add .. => true
  | .sub .. => true
  | .mul .. => true
  | .mulh .. => true
  | .mulhu .. => true
  | .mulhsu .. => true
  | .div .. => true
  | .divu .. => true
  | .rem .. => true
  | .remu .. => true
  | .and .. => true
  | .or .. => true
  | .xor .. => true
  | .andn .. => true
  | .shl .. => true
  | .shr .. => true
  | .sar .. => true
  | .ror .. => true
  | .min .. => true
  | .minu .. => true
  | .max .. => true
  | .maxu .. => true
  | .cset _ _ _ f => decide (f.toNat < 6)
  | .sel .. => true
  | .clz .. => true
  | .ctz .. => true
  | .popc .. => true
  | .brev .. => true
  | .sxb .. => true
  | .sxh .. => true
  | .sxw .. => true
  | .zxw .. => true
  | .addi .. => true
  | .andi .. => true
  | .ori .. => true
  | .xori .. => true
  | .shli .. => true
  | .shri .. => true
  | .sari .. => true
  | .rori .. => true
  | .seqi .. => true
  | .snei .. => true
  | .slti .. => true
  | .sltui .. => true
  | .moviU .. => true
  | .moviUZero .. => true
  | .moviK .. => true
  | .moviKZero .. => true
  | .moviX .. => true
  | .bfx .. => true
  | .bfi .. => true
  | .lea _ _ c x sc _ => (x || (c == 0 && sc == 0))
  | .leap .. => true
  | .brJ .. => true
  | .brL .. => true
  | .beq .. => true
  | .bne .. => true
  | .blt .. => true
  | .bge .. => true
  | .bltu .. => true
  | .bgeu .. => true
  | .loop .. => true
  | .brx .. => true
  | .call .. => true
  | .callr .. => true
  | .ret => true
  | .ld m sx _ _ _ => (m != 3 || !sx)
  | .st .. => true
  | .ldp a _ _ => a.even
  | .stp a _ _ => a.even
  | .ldc a _ _ => a.even
  | .stc a _ _ => a.even
  | .ldcg a _ _ => a.even
  | .stcg a _ _ => a.even
  | .movp a b => a.even && b.even
  | .ldg m sc acq sx _ _ _ => (m != 3 || !sx) && (acq || sc == 0)
  | .stg _ sc rel _ _ _ => (rel || sc == 0)
  | .ldgp sc acq a _ _ => a.even && (acq || sc == 0)
  | .stgp sc rel a _ _ => a.even && (rel || sc == 0)
  | .aadd o => o.widthOk false && o.scopeOk
  | .aand o => o.widthOk false && o.scopeOk
  | .aor o => o.widthOk false && o.scopeOk
  | .axor o => o.widthOk false && o.scopeOk
  | .amin o => o.widthOk false && o.scopeOk
  | .aminu o => o.widthOk false && o.scopeOk
  | .amax o => o.widthOk false && o.scopeOk
  | .amaxu o => o.widthOk false && o.scopeOk
  | .axchg o => o.widthOk false && o.scopeOk
  | .acas o => o.widthOk false && o.scopeOk
  | .afadd o => o.widthOk true && o.scopeOk
  | .redadd o => o.widthOk false && o.scopeOk
  | .redand o => o.widthOk false && o.scopeOk
  | .redor o => o.widthOk false && o.scopeOk
  | .redxor o => o.widthOk false && o.scopeOk
  | .redmin o => o.widthOk false && o.scopeOk
  | .redminu o => o.widthOk false && o.scopeOk
  | .redmax o => o.widthOk false && o.scopeOk
  | .redmaxu o => o.widthOk false && o.scopeOk
  | .redfadd o => o.widthOk true && o.scopeOk
  | .fence .. => true
  | .fencer .. => true
  | .snapset .. => true
  | .snapreg .. => true
  | .snaprel => true
  | .txb .. => true
  | .txc a => a.even
  | .txa => true
  | .pub a => a.even
  | .rdto a _ _ => a.even
  | .rdtoWithReport a _ _ _ => a.even
  | .rdtox a b _ => a.even && b.even
  | .rdtoxWithReport a b _ _ => a.even && b.even
  | .rdtog a _ _ => a.even
  | .rdtogWithReport a _ _ _ => a.even
  | .rdtogx a b _ => a.even && b.even
  | .rdtogxWithReport a b _ _ => a.even && b.even
  | .ldtag .. => true
  | .chopen a _ _ => a.even
  | .chclose .. => true
  | .send _ b => b.even
  | .sendb _ b _ => b.even
  | .sendt _ b => b.even
  | .sendh a b => a.even && b.even
  | .recv _ t _ _ d => (t || d == 0)
  | .recvb _ t _ _ d => (t || d == 0)
  | .recvt _ t _ _ d => (t || d == 0)
  | .recvh a t _ _ d => a.even && (t || d == 0)
  | .altp _ t _ _ d _ => (t || d == 0)
  | .altf _ t _ _ d _ => (t || d == 0)
  | .spawn .. => true
  | .stop => true
  | .join _ t _ _ d => (t || d == 0)
  | .yield => true
  | .setpri .. => true
  | .time .. => true
  | .twait .. => true
  | .bara sc => decide (sc.toNat < 5)
  | .barw _ t b sc => (t || b == 0) && decide (sc.toNat < 5)
  | .barx _ t b sc => (t || b == 0) && decide (sc.toNat < 5)
  | .rden .. => true
  | .rdsv _ f => decide (f.toNat < 11)
  | .vsetl .. => true
  | .vadd o => o.headOk .arith
  | .vsub o => o.headOk .arith
  | .vmul o => o.headOk .arith
  | .vdiv o => o.headOk .arith
  | .vfma o => o.headOk .arith
  | .vmin o => o.headOk .binary
  | .vmax o => o.headOk .binary
  | .vabs o => o.headOk .unary
  | .vneg o => o.headOk .unary
  | .vcmp o => o.headOk .compare
  | .vsel o => o.headOk .binary
  | .vand o => o.headOk .binary
  | .vor o => o.headOk .binary
  | .vxor o => o.headOk .binary
  | .vnot o => o.headOk .unary
  | .vshl o => o.headOk .binary
  | .vshr o => o.headOk .binary
  | .vsar o => o.headOk .binary
  | .vcvt o => o.headOk .convert
  | .vexp2 o => o.headOk .unaryR
  | .vlog2 o => o.headOk .unaryR
  | .vrcp o => o.headOk .unaryR
  | .vrsq o => o.headOk .unaryR
  | .vtanh o => o.headOk .unaryR
  | .vsqrt o => o.headOk .unaryR
  | .vred o => o.headOk .reduce
  | .vscan o => o.headOk .scan
  | .vbcast o => o.headOk .broadcast
  | .vperm o => o.headOk .permute
  | .vgather o => o.headOk .gather
  | .vscatter o => o.headOk .scatter
  | .vrand o => o.headOk .random
  | .vmov o => o.headOk .unary
  | .vflg _ m => (m != 3)
  | .vsadd o => o.headOk .binary
  | .vssub o => o.headOk .binary
  | .vmulh o => o.headOk .binary
  | .tacq => true
  | .trel => true
  | .tset .. => true
  | .tld _ _ c mx _ => (!mx || c.even)
  | .tst _ _ c mx _ => (!mx || c.even)
  | .tzcC .. => true
  | .tzcT .. => true
  | .tmmaBf16 .. => true
  | .tmmaF16 .. => true
  | .tmmaE4m3 .. => true
  | .tmmaE5m2 .. => true
  | .tmmaMxf8 .. => true
  | .tmmaMxf6 .. => true
  | .tmmaMxf4 .. => true
  | .tmmaI8 .. => true
  | .tcvt _ _ c _ r _ => decide (r.toNat < 5) && (if r == 4 then c.even else c == 0)
  | .ttran .. => true
  | .tldc .. => true
  | .tstc .. => true
  | .cpset _ f => decide (f.toNat < 13)
  | .cpgo .. => true
  | .cpwait .. => true
  | .rgwait a _ => a.even
  | .rgrel .. => true
  | .scrub a _ _ => a.even
  | .trap .. => true
  | .eret => true
  | .krd _ b t _ => (t || b == 0)
  | .kwr _ b t _ => (t || b == 0)
  | .resume .. => true
  | .kill .. => true
  | .mintGroup a _ _ _ => a.even
  | .mintFarPointer a _ _ _ => a.even
  | .rights a b _ => a.even && b.even
  | .plbinv .. => true
  | .ifence => true
  | .waiti .. => true
  | .quiesce .. => true
  | .brk => true
  | .linePrefetch .. => true
  | .sliceEnd .. => true
  | .priority0Preemption .. => true
  | .deadlineComparison .. => true
  | .channelHeaderArrival .. => true
  | .headerResend .. => true
  | .transferGrant .. => true
  | .transferDone .. => true
  | .doneMessage .. => true
  | .grantedDataArrival .. => true
  | .acceptance .. => true
  | .closedReply .. => true
  | .loadDataArrival .. => true
  | .errorResponse .. => true
  | .deferredFaultTrap .. => true
  | .writeQueueDrain .. => true
  | .storeAcknowledgement .. => true
  | .homeRead .. => true
  | .homeWrite .. => true
  | .homeAtomic .. => true
  | .atomicWatchdog .. => true
  | .translationWalk .. => true
  | .plbMiss .. => true
  | .snapshotRequest .. => true
  | .epochMarker .. => true
  | .epochMarkerAcknowledgement .. => true
  | .snapshotReply .. => true
  | .watermarkBroadcast .. => true
  | .vheldBroadcast .. => true
  | .firnLineBroadcast .. => true
  | .prepare .. => true
  | .vote .. => true
  | .apply .. => true
  | .abortTxid .. => true
  | .abortAcknowledgement .. => true
  | .publishApply .. => true
  | .copyRegistration .. => true
  | .revocation .. => true
  | .revocationNotice .. => true
  | .ablationReclaim .. => true
  | .sourceRead .. => true
  | .thirdPartyDelivery .. => true
  | .failedVoidDelivery .. => true
  | .errorCompletion .. => true
  | .report .. => true
  | .copyTransfer .. => true
  | .copyCompletion .. => true
  | .tileCommandStart .. => true
  | .tileCommandComplete .. => true
  | .barrierArrival .. => true
  | .barrierRelease .. => true
  | .frostSweep .. => true
  | .sweepResult .. => true
  | .completionRecord .. => true
  | .nrgo .. => true
  | .launch .. => true
  | .launchStart .. => true
  | .netdel .. => true
  | .crcons .. => true
  | .abort .. => true
  | .hold .. => true
  | .registerWrite .. => true
  | .held .. => true
  | .partitionResume .. => true
  | .quotaComparison => true
  | .meterFlush .. => true
  | .correctionFactor .. => true
  | .equota .. => true
  | .create .. => true
  | .destroy .. => true
  | .merge .. => true
  | .split .. => true
  | .retire .. => true
  | .badOp .. => true
  | .ptmap .. => true
  | .ptunmap .. => true
  | .domset .. => true
  | .rangeset .. => true
  | .ceweight .. => true
  | .farmap .. => true
  | .farepoch .. => true
  | .qpcreate .. => true
  | .qpreset .. => true
  | .sparerow .. => true
  | .poisonset .. => true
  | .mailboxBadOp .. => true
  | .dbell .. => true
  | .sres .. => true
  | .skill .. => true
  | .flcons .. => true
  | .hvgo .. => true
  | .harvestEnd .. => true
  | .rcgo .. => true
  | .podcfg .. => true
  | .perstDeassert => true
  | .unitReady .. => true
  | .functionLevelReset .. => true
  | .physicalFunctionReset => true
  | .flitReceive .. => true
  | .negativeAcknowledgement .. => true
  | .laneFailure .. => true
  | .deadList .. => true
  | .packetReturn .. => true
  | .unreachableWatchdog .. => true
  | .workRequest .. => true
  | .scaleOutPacket .. => true
  | .retransmit .. => true
  | .bar2Read .. => true
  | .bar2Write .. => true
  | .lockInterface .. => true
  | .startInterface .. => true
  | .stopInterface .. => true
  | .getDeviceInterfaceReport .. => true
  | .ideKm .. => true
  | .keyLoad .. => true
  | .keyDrop .. => true
  | .getVersion .. => true
  | .getCapabilities .. => true
  | .negotiateAlgorithms .. => true
  | .getDigests .. => true
  | .getCertificate .. => true
  | .challenge .. => true
  | .getMeasurements .. => true
  | .keyExchange .. => true
  | .finish .. => true
  | .endSession .. => true
  | .rowspare .. => true
  | .parity .. => true
  | .elementGroup .. => true
  | .unallocatedOpcode w => (opClass (headOp w)).isNone
  | .configurationWrite .. => true
  | .linkRetrainingEnd .. => true
  | .firmwareImageVerified .. => true
  | .podSynchronisation .. => true

end Sys2Proof
end

