-- ==== Sys2Proof/Decode.lean ====
section
/-! DEFINITION. Decoding of a head and its tail (05 R185, R192, R197-R201), the layout of a line (R183-R187), and after
them the encoder, written from the same tables: `Raw` is a head and tail split into the fields of the class,
`Raw.decode` and `Instr.raw` read and write the fields of each row. -/

namespace Sys2Proof

/-- Why a head is not an instruction (05 R201); each traps ILLEGAL at the head. -/
inductive DecodeError where
  /-- tsz is not the class's (R192 check 1). -/
  | tailSize
  /-- A zero field is not zero, a selector has no meaning, or a register field breaks R198 (R192 check 2). -/
  | field
  deriving DecidableEq, Repr

/-- A head and tail by class (05 R197): the opcode, the fields a and m, and the fields of the tail. -/
inductive Raw where
  | fH (op : BitVec 8) (a : Reg) (m : BitVec 2)
  | fS (op : BitVec 8) (a : Reg) (m : BitVec 2) (b c : Reg) (f : BitVec 8)
  | fI (op : BitVec 8) (a : Reg) (m : BitVec 2) (b : Reg) (k : BitVec 12)
  | fU (op : BitVec 8) (a : Reg) (m : BitVec 2) (k : BitVec 16)
  | fJ (op : BitVec 8) (a : Reg) (m : BitVec 2) (d : BitVec 10) (h : BitVec 6)
  | fM (op : BitVec 8) (a : Reg) (m : BitVec 2) (b c : Reg) (q : BitVec 4) (d : BitVec 20)
  | fB (op : BitVec 8) (a : Reg) (m : BitVec 2) (b : Reg) (d : BitVec 22) (h : BitVec 6)
  | fL (op : BitVec 8) (a : Reg) (m : BitVec 2) (d : BitVec 26) (h : BitVec 6)
  | fK (op : BitVec 8) (a : Reg) (m : BitVec 2) (k : BitVec 32)
  | fF (op : BitVec 8) (a : Reg) (m : BitVec 2) (b c : Reg) (p w : BitVec 6) (z : BitVec 12)
  | fV (op : BitVec 8) (o : VOps)
  | fX (op : BitVec 8) (a : Reg) (m : BitVec 2) (k : BitVec 64)
  deriving DecidableEq, Repr

/-- The head layout of 05 R185. -/
def packHead (tsz : BitVec 2) (op : BitVec 8) (a : Reg) (m : BitVec 2) : Half := tsz ++ op ++ a ++ m

/-- The head and the tail bits (in the low bits of the word) of a class's fields (05 R185, R197). -/
def Raw.pack : Raw → Half × Word
  | .fH op a m => (packHead 0 op a m, 0)
  | .fS op a m b c f => (packHead 1 op a m, (b ++ c ++ f : BitVec 16).setWidth 64)
  | .fI op a m b k => (packHead 1 op a m, (b ++ k : BitVec 16).setWidth 64)
  | .fU op a m k => (packHead 1 op a m, k.setWidth 64)
  | .fJ op a m d h => (packHead 1 op a m, (d ++ h : BitVec 16).setWidth 64)
  | .fM op a m b c q d => (packHead 2 op a m, (b ++ c ++ q ++ d : BitVec 32).setWidth 64)
  | .fB op a m b d h => (packHead 2 op a m, (b ++ d ++ h : BitVec 32).setWidth 64)
  | .fL op a m d h => (packHead 2 op a m, (d ++ h : BitVec 32).setWidth 64)
  | .fK op a m k => (packHead 2 op a m, k.setWidth 64)
  | .fF op a m b c p w z => (packHead 2 op a m, (b ++ c ++ p ++ w ++ z : BitVec 32).setWidth 64)
  | .fV op o => (packHead 2 op o.a o.m,
      (o.b ++ o.c ++ o.e ++ o.rnd ++ BitVec.ofBool o.sat ++ o.inc ++ o.str ++ o.x10 : BitVec 32).setWidth 64)
  | .fX op a m k => (packHead 3 op a m, k)

/-- The fields of a head and tail under a class (05 R185, R197). -/
def Raw.unpack (cl : OpClass) (hd : Half) (t : Word) : Raw :=
  let op := headOp hd
  let a := hd.extractLsb' 2 4
  let m := hd.extractLsb' 0 2
  match cl with
  | .h => .fH op a m
  | .s => .fS op a m (t.extractLsb' 12 4) (t.extractLsb' 8 4) (t.extractLsb' 0 8)
  | .i => .fI op a m (t.extractLsb' 12 4) (t.extractLsb' 0 12)
  | .u => .fU op a m (t.extractLsb' 0 16)
  | .j => .fJ op a m (t.extractLsb' 6 10) (t.extractLsb' 0 6)
  | .m => .fM op a m (t.extractLsb' 28 4) (t.extractLsb' 24 4) (t.extractLsb' 20 4) (t.extractLsb' 0 20)
  | .b => .fB op a m (t.extractLsb' 28 4) (t.extractLsb' 6 22) (t.extractLsb' 0 6)
  | .l => .fL op a m (t.extractLsb' 6 26) (t.extractLsb' 0 6)
  | .k => .fK op a m (t.extractLsb' 0 32)
  | .f => .fF op a m (t.extractLsb' 28 4) (t.extractLsb' 24 4) (t.extractLsb' 18 6) (t.extractLsb' 12 6)
      (t.extractLsb' 0 12)
  | .v => .fV op { a := a, m := m, b := t.extractLsb' 28 4, c := t.extractLsb' 24 4, e := t.extractLsb' 20 4,
                   rnd := t.extractLsb' 17 3, sat := t.getLsbD 16, inc := t.extractLsb' 13 3,
                   str := t.extractLsb' 10 3, x10 := t.extractLsb' 0 10 }
  | .x => .fX op a m t

/-- `some i` when the zero fields hold. -/
def zeroFields (ok : Bool) (i : Instr) : Option Instr := if ok then some i else none

/-- The rows of class H (05 R199, R200). -/
def decodeH (op : Nat) (a : BitVec 4) (m : BitVec 2) : Option Instr :=
  match op with
  | 0x00 => zeroFields (a == 0 && m == 0) (.nop)
  | 0x20 => zeroFields (m == 0) (.brx a)
  | 0x22 => zeroFields (m == 0) (.callr a)
  | 0x23 => zeroFields (a == 0 && m == 0) (.ret)
  | 0x40 => zeroFields (a == 0) (.fence m)
  | 0x42 =>
    if m == 0 then zeroFields (true) (.snapset a) else
    if m == 1 then zeroFields (true) (.snapreg a) else
    if m == 2 then zeroFields (a == 0) (.snaprel) else none
  | 0x43 => zeroFields (m == 0) (.txb a)
  | 0x44 => zeroFields (m == 0) (.txc a)
  | 0x45 => zeroFields (a == 0 && m == 0) (.txa)
  | 0x46 => zeroFields (m == 0) (.pub a)
  | 0x51 => zeroFields (m == 0) (.chclose a)
  | 0x5D => zeroFields (a == 0 && m == 0) (.stop)
  | 0x5F => zeroFields (a == 0 && m == 0) (.yield)
  | 0x60 => zeroFields (m == 0) (.setpri a)
  | 0x61 => zeroFields (m == 0) (.time a)
  | 0x62 => zeroFields (m == 0) (.twait a)
  | 0x92 => zeroFields (true) (.vflg a m)
  | 0xA0 => zeroFields (a == 0 && m == 0) (.tacq)
  | 0xA1 => zeroFields (a == 0 && m == 0) (.trel)
  | 0xA5 =>
    if m == 0 then zeroFields (a.extractLsb' 3 1 == 0) (.tzcC (a.extractLsb' 0 3)) else
    if m == 1 then zeroFields (a.extractLsb' 3 1 == 0) (.tzcT (a.extractLsb' 0 3)) else none
  | 0xB1 => zeroFields (m == 0) (.cpgo a)
  | 0xB2 => zeroFields (m == 0) (.cpwait a)
  | 0xC1 => zeroFields (a == 0 && m == 0) (.eret)
  | 0xC9 => zeroFields (a == 0 && m == 0) (.ifence)
  | 0xCA => zeroFields (m == 0) (.waiti a)
  | 0xCB => zeroFields (m.extractLsb' 1 1 == 0) (.quiesce a (m.getLsbD 0))
  | 0xCC => zeroFields (a == 0 && m == 0) (.brk)
  | _ => none

/-- The rows of class S (05 R199, R200). -/
def decodeS (op : Nat) (a : BitVec 4) (m : BitVec 2) (b : BitVec 4) (c : BitVec 4) (f : BitVec 8) : Option Instr :=
  match op with
  | 0x01 => zeroFields (m == 0 && f == 0) (.add a b c)
  | 0x02 => zeroFields (m == 0 && f == 0) (.sub a b c)
  | 0x03 =>
    if m == 0 then zeroFields (f == 0) (.mul a b c) else
    if m == 1 then zeroFields (f == 0) (.mulh a b c) else
    if m == 2 then zeroFields (f == 0) (.mulhu a b c) else
    if m == 3 then zeroFields (f == 0) (.mulhsu a b c) else none
  | 0x04 =>
    if m == 0 then zeroFields (f == 0) (.div a b c) else
    if m == 1 then zeroFields (f == 0) (.divu a b c) else
    if m == 2 then zeroFields (f == 0) (.rem a b c) else
    if m == 3 then zeroFields (f == 0) (.remu a b c) else none
  | 0x05 =>
    if m == 0 then zeroFields (f == 0) (.and a b c) else
    if m == 1 then zeroFields (f == 0) (.or a b c) else
    if m == 2 then zeroFields (f == 0) (.xor a b c) else
    if m == 3 then zeroFields (f == 0) (.andn a b c) else none
  | 0x06 =>
    if m == 0 then zeroFields (f == 0) (.shl a b c) else
    if m == 1 then zeroFields (f == 0) (.shr a b c) else
    if m == 2 then zeroFields (f == 0) (.sar a b c) else
    if m == 3 then zeroFields (f == 0) (.ror a b c) else none
  | 0x07 =>
    if m == 0 then zeroFields (f == 0) (.min a b c) else
    if m == 1 then zeroFields (f == 0) (.minu a b c) else
    if m == 2 then zeroFields (f == 0) (.max a b c) else
    if m == 3 then zeroFields (f == 0) (.maxu a b c) else none
  | 0x08 => zeroFields (m == 0 && f.extractLsb' 3 5 == 0) (.cset a b c (f.extractLsb' 0 3))
  | 0x09 => zeroFields (m == 0 && f.extractLsb' 4 4 == 0) (.sel a b c (f.extractLsb' 0 4))
  | 0x0A =>
    if m == 0 then zeroFields (c == 0 && f == 0) (.clz a b) else
    if m == 1 then zeroFields (c == 0 && f == 0) (.ctz a b) else
    if m == 2 then zeroFields (c == 0 && f == 0) (.popc a b) else
    if m == 3 then zeroFields (c == 0 && f == 0) (.brev a b) else none
  | 0x0B =>
    if m == 0 then zeroFields (c == 0 && f == 0) (.sxb a b) else
    if m == 1 then zeroFields (c == 0 && f == 0) (.sxh a b) else
    if m == 2 then zeroFields (c == 0 && f == 0) (.sxw a b) else
    if m == 3 then zeroFields (c == 0 && f == 0) (.zxw a b) else none
  | 0x2A => zeroFields (m == 0 && c == 0 && f == 0) (.movp a b)
  | 0x41 => zeroFields (a == 0 && f == 0) (.fencer m b c)
  | 0x47 =>
    if m == 0 then zeroFields (f == 0) (.rdto a b c) else
    if m == 1 then zeroFields (true) (.rdtoWithReport a b c f) else
    if m == 2 then zeroFields (f == 0) (.rdtox a b c) else
    if m == 3 then zeroFields (true) (.rdtoxWithReport a b c f) else none
  | 0x48 =>
    if m == 0 then zeroFields (f == 0) (.rdtog a b c) else
    if m == 1 then zeroFields (true) (.rdtogWithReport a b c f) else
    if m == 2 then zeroFields (f == 0) (.rdtogx a b c) else
    if m == 3 then zeroFields (true) (.rdtogxWithReport a b c f) else none
  | 0x50 => zeroFields (m == 0 && f == 0) (.chopen a b c)
  | 0x52 => zeroFields (m == 0 && c == 0 && f == 0) (.send a b)
  | 0x53 => zeroFields (m == 0 && f == 0) (.sendb a b c)
  | 0x54 => zeroFields (a.extractLsb' 3 1 == 0 && m == 0 && c == 0 && f == 0) (.sendt (a.extractLsb' 0 3) b)
  | 0x55 => zeroFields (m == 0 && c == 0 && f == 0) (.sendh a b)
  | 0x56 => zeroFields (m.extractLsb' 1 1 == 0 && f.extractLsb' 4 4 == 0) (.recv a (m.getLsbD 0) b c (f.extractLsb' 0 4))
  | 0x57 => zeroFields (m.extractLsb' 1 1 == 0 && f.extractLsb' 4 4 == 0) (.recvb a (m.getLsbD 0) b c (f.extractLsb' 0 4))
  | 0x58 => zeroFields (a.extractLsb' 3 1 == 0 && m.extractLsb' 1 1 == 0 && f.extractLsb' 4 4 == 0) (.recvt (a.extractLsb' 0 3) (m.getLsbD 0) b c (f.extractLsb' 0 4))
  | 0x59 => zeroFields (m.extractLsb' 1 1 == 0 && f.extractLsb' 4 4 == 0) (.recvh a (m.getLsbD 0) b c (f.extractLsb' 0 4))
  | 0x5A => zeroFields (m.extractLsb' 1 1 == 0) (.altp a (m.getLsbD 0) b c (f.extractLsb' 4 4) (f.extractLsb' 0 4))
  | 0x5B => zeroFields (m.extractLsb' 1 1 == 0) (.altf a (m.getLsbD 0) b c (f.extractLsb' 4 4) (f.extractLsb' 0 4))
  | 0x5C => zeroFields (m == 0 && f.extractLsb' 2 6 == 0) (.spawn a b c (f.extractLsb' 0 2))
  | 0x5E => zeroFields (m.extractLsb' 1 1 == 0 && f.extractLsb' 4 4 == 0) (.join a (m.getLsbD 0) b c (f.extractLsb' 0 4))
  | 0x66 => zeroFields (m == 0 && c == 0 && f.extractLsb' 1 7 == 0) (.rden a b (f.getLsbD 0))
  | 0x67 => zeroFields (m == 0 && b == 0 && c == 0) (.rdsv a f)
  | 0xA2 => zeroFields (a.extractLsb' 3 1 == 0 && m == 0 && c == 0 && f == 0) (.tset (a.extractLsb' 0 3) b)
  | 0xA6 => zeroFields (a.extractLsb' 3 1 == 0 && m == 0 && b.extractLsb' 3 1 == 0 && c.extractLsb' 3 1 == 0 && f == 0) (.tmmaBf16 (a.extractLsb' 0 3) (b.extractLsb' 0 3) (c.extractLsb' 0 3))
  | 0xA7 => zeroFields (a.extractLsb' 3 1 == 0 && m == 0 && b.extractLsb' 3 1 == 0 && c.extractLsb' 3 1 == 0 && f == 0) (.tmmaF16 (a.extractLsb' 0 3) (b.extractLsb' 0 3) (c.extractLsb' 0 3))
  | 0xA8 => zeroFields (a.extractLsb' 3 1 == 0 && m == 0 && b.extractLsb' 3 1 == 0 && c.extractLsb' 3 1 == 0 && f == 0) (.tmmaE4m3 (a.extractLsb' 0 3) (b.extractLsb' 0 3) (c.extractLsb' 0 3))
  | 0xA9 => zeroFields (a.extractLsb' 3 1 == 0 && m == 0 && b.extractLsb' 3 1 == 0 && c.extractLsb' 3 1 == 0 && f == 0) (.tmmaE5m2 (a.extractLsb' 0 3) (b.extractLsb' 0 3) (c.extractLsb' 0 3))
  | 0xAA => zeroFields (a.extractLsb' 3 1 == 0 && m == 0 && b.extractLsb' 3 1 == 0 && c.extractLsb' 3 1 == 0 && f == 0) (.tmmaMxf8 (a.extractLsb' 0 3) (b.extractLsb' 0 3) (c.extractLsb' 0 3))
  | 0xAB => zeroFields (a.extractLsb' 3 1 == 0 && m == 0 && b.extractLsb' 3 1 == 0 && c.extractLsb' 3 1 == 0 && f == 0) (.tmmaMxf6 (a.extractLsb' 0 3) (b.extractLsb' 0 3) (c.extractLsb' 0 3))
  | 0xAC => zeroFields (a.extractLsb' 3 1 == 0 && m == 0 && b.extractLsb' 3 1 == 0 && c.extractLsb' 3 1 == 0 && f == 0) (.tmmaMxf4 (a.extractLsb' 0 3) (b.extractLsb' 0 3) (c.extractLsb' 0 3))
  | 0xAD => zeroFields (a.extractLsb' 3 1 == 0 && m == 0 && b.extractLsb' 3 1 == 0 && c.extractLsb' 3 1 == 0 && f == 0) (.tmmaI8 (a.extractLsb' 0 3) (b.extractLsb' 0 3) (c.extractLsb' 0 3))
  | 0xAE => zeroFields (a.extractLsb' 3 1 == 0 && m == 0 && b.extractLsb' 3 1 == 0 && f.extractLsb' 0 3 == 0) (.tcvt (a.extractLsb' 0 3) (b.extractLsb' 0 3) c (f.getLsbD 7) (f.extractLsb' 4 3) (f.getLsbD 3))
  | 0xAF => zeroFields (a.extractLsb' 3 1 == 0 && m == 0 && b.extractLsb' 3 1 == 0 && c == 0 && f == 0) (.ttran (a.extractLsb' 0 3) (b.extractLsb' 0 3))
  | 0xB3 => zeroFields (m == 0 && c == 0 && f == 0) (.rgwait a b)
  | 0xB4 => zeroFields (m == 0 && c == 0 && f == 0) (.rgrel a b)
  | 0xB5 => zeroFields (m == 0 && f == 0) (.scrub a b c)
  | 0xC4 => zeroFields (m == 0 && c == 0 && f == 0) (.resume a b)
  | 0xC5 => zeroFields (m == 0 && c == 0 && f == 0) (.kill a b)
  | 0xC6 =>
    if f.extractLsb' 6 2 == 0 then zeroFields (m == 0 && f.extractLsb' 2 6 == 0) (.mintGroup a b c (f.extractLsb' 0 2)) else
    if f.extractLsb' 6 2 == 1 then zeroFields (m == 0 && f.extractLsb' 4 2 == 0) (.mintFarPointer a b c (f.extractLsb' 0 4)) else none
  | 0xC7 => zeroFields (m == 0 && f == 0) (.rights a b c)
  | 0xC8 => zeroFields (a == 0 && m == 0 && f == 0) (.plbinv b c)
  | _ => none

/-- The rows of class I (05 R199, R200). -/
def decodeI (op : Nat) (a : BitVec 4) (m : BitVec 2) (b : BitVec 4) (k : BitVec 12) : Option Instr :=
  match op with
  | 0x0C => zeroFields (m == 0) (.addi a b k)
  | 0x0D =>
    if m == 0 then zeroFields (true) (.andi a b k) else
    if m == 1 then zeroFields (true) (.ori a b k) else
    if m == 2 then zeroFields (true) (.xori a b k) else none
  | 0x0E =>
    if m == 0 then zeroFields (k.extractLsb' 6 6 == 0) (.shli a b (k.extractLsb' 0 6)) else
    if m == 1 then zeroFields (k.extractLsb' 6 6 == 0) (.shri a b (k.extractLsb' 0 6)) else
    if m == 2 then zeroFields (k.extractLsb' 6 6 == 0) (.sari a b (k.extractLsb' 0 6)) else
    if m == 3 then zeroFields (k.extractLsb' 6 6 == 0) (.rori a b (k.extractLsb' 0 6)) else none
  | 0x0F =>
    if m == 0 then zeroFields (true) (.seqi a b k) else
    if m == 1 then zeroFields (true) (.snei a b k) else
    if m == 2 then zeroFields (true) (.slti a b k) else
    if m == 3 then zeroFields (true) (.sltui a b k) else none
  | 0x63 => zeroFields (a == 0 && m == 0 && b == 0 && k.extractLsb' 3 9 == 0) (.bara (k.extractLsb' 0 3))
  | 0x64 => zeroFields (m.extractLsb' 1 1 == 0 && k.extractLsb' 3 9 == 0) (.barw a (m.getLsbD 0) b (k.extractLsb' 0 3))
  | 0x65 => zeroFields (m.extractLsb' 1 1 == 0 && k.extractLsb' 3 9 == 0) (.barx a (m.getLsbD 0) b (k.extractLsb' 0 3))
  | 0x70 => zeroFields (m == 0 && k.extractLsb' 8 4 == 0) (.vsetl a b (k.extractLsb' 0 8))
  | 0xB0 => zeroFields (a == 0 && m == 0 && k.extractLsb' 4 8 == 0) (.cpset b (k.extractLsb' 0 4))
  | 0xC0 => zeroFields (m == 0 && b == 0) (.trap a k)
  | 0xC2 => zeroFields (m == 0) (.krd a b (k.getLsbD 11) (k.extractLsb' 0 11))
  | 0xC3 => zeroFields (m == 0) (.kwr a b (k.getLsbD 11) (k.extractLsb' 0 11))
  | _ => none

/-- The rows of class U (05 R199, R200). -/
def decodeU (op : Nat) (a : BitVec 4) (m : BitVec 2) (k : BitVec 16) : Option Instr :=
  match op with
  | 0x10 =>
    if m == 0 then zeroFields (true) (.moviU a k) else
    if m == 1 then zeroFields (true) (.moviUZero a k) else none
  | _ => none

/-- The rows of class J (05 R199, R200). -/
def decodeJ (op : Nat) (a : BitVec 4) (m : BitVec 2) (d : BitVec 10) (h : BitVec 6) : Option Instr :=
  match op with
  | 0x17 => zeroFields (a == 0 && m == 0) (.brJ d h)
  | 0x1F => zeroFields (m == 0) (.loop a d h)
  | _ => none

/-- The rows of class M (05 R199, R200). -/
def decodeM (op : Nat) (a : BitVec 4) (m : BitVec 2) (b : BitVec 4) (c : BitVec 4) (q : BitVec 4) (d : BitVec 20) : Option Instr :=
  match op with
  | 0x15 => zeroFields (m == 0) (.lea a b c (q.getLsbD 3) (q.extractLsb' 0 3) d)
  | 0x24 => zeroFields (c == 0 && q.extractLsb' 1 3 == 0) (.ld m (q.getLsbD 0) a b d)
  | 0x25 => zeroFields (c == 0 && q == 0) (.st m a b d)
  | 0x26 => zeroFields (m == 0 && c == 0 && q == 0) (.ldp a b d)
  | 0x27 => zeroFields (m == 0 && c == 0 && q == 0) (.stp a b d)
  | 0x28 =>
    if m == 0 then zeroFields (c == 0 && q == 0) (.ldc a b d) else
    if m == 1 then zeroFields (c == 0 && q == 0) (.ldcg a b d) else none
  | 0x29 =>
    if m == 0 then zeroFields (c == 0 && q == 0) (.stc a b d) else
    if m == 1 then zeroFields (c == 0 && q == 0) (.stcg a b d) else none
  | 0x30 => zeroFields (c == 0) (.ldg m (q.extractLsb' 2 2) (q.getLsbD 1) (q.getLsbD 0) a b d)
  | 0x31 => zeroFields (c == 0 && q.extractLsb' 0 1 == 0) (.stg m (q.extractLsb' 2 2) (q.getLsbD 1) a b d)
  | 0x32 => zeroFields (m == 0 && c == 0 && q.extractLsb' 0 1 == 0) (.ldgp (q.extractLsb' 2 2) (q.getLsbD 1) a b d)
  | 0x33 => zeroFields (m == 0 && c == 0 && q.extractLsb' 0 1 == 0) (.stgp (q.extractLsb' 2 2) (q.getLsbD 1) a b d)
  | 0x34 => zeroFields (true) (.aadd { m := m, sc := (q.extractLsb' 2 2), ord := (q.extractLsb' 0 2), a := a, b := b, c := c, d := d })
  | 0x35 => zeroFields (true) (.aand { m := m, sc := (q.extractLsb' 2 2), ord := (q.extractLsb' 0 2), a := a, b := b, c := c, d := d })
  | 0x36 => zeroFields (true) (.aor { m := m, sc := (q.extractLsb' 2 2), ord := (q.extractLsb' 0 2), a := a, b := b, c := c, d := d })
  | 0x37 => zeroFields (true) (.axor { m := m, sc := (q.extractLsb' 2 2), ord := (q.extractLsb' 0 2), a := a, b := b, c := c, d := d })
  | 0x38 => zeroFields (true) (.amin { m := m, sc := (q.extractLsb' 2 2), ord := (q.extractLsb' 0 2), a := a, b := b, c := c, d := d })
  | 0x39 => zeroFields (true) (.aminu { m := m, sc := (q.extractLsb' 2 2), ord := (q.extractLsb' 0 2), a := a, b := b, c := c, d := d })
  | 0x3A => zeroFields (true) (.amax { m := m, sc := (q.extractLsb' 2 2), ord := (q.extractLsb' 0 2), a := a, b := b, c := c, d := d })
  | 0x3B => zeroFields (true) (.amaxu { m := m, sc := (q.extractLsb' 2 2), ord := (q.extractLsb' 0 2), a := a, b := b, c := c, d := d })
  | 0x3C => zeroFields (true) (.axchg { m := m, sc := (q.extractLsb' 2 2), ord := (q.extractLsb' 0 2), a := a, b := b, c := c, d := d })
  | 0x3D => zeroFields (true) (.acas { m := m, sc := (q.extractLsb' 2 2), ord := (q.extractLsb' 0 2), a := a, b := b, c := c, d := d })
  | 0x3E => zeroFields (true) (.afadd { m := m, sc := (q.extractLsb' 2 2), ord := (q.extractLsb' 0 2), a := a, b := b, c := c, d := d })
  | 0x3F =>
    if a == 0 then zeroFields (q.extractLsb' 0 1 == 0) (.redadd { m := m, sc := (q.extractLsb' 2 2), rel := (q.getLsbD 1), b := b, c := c, d := d }) else
    if a == 1 then zeroFields (q.extractLsb' 0 1 == 0) (.redand { m := m, sc := (q.extractLsb' 2 2), rel := (q.getLsbD 1), b := b, c := c, d := d }) else
    if a == 2 then zeroFields (q.extractLsb' 0 1 == 0) (.redor { m := m, sc := (q.extractLsb' 2 2), rel := (q.getLsbD 1), b := b, c := c, d := d }) else
    if a == 3 then zeroFields (q.extractLsb' 0 1 == 0) (.redxor { m := m, sc := (q.extractLsb' 2 2), rel := (q.getLsbD 1), b := b, c := c, d := d }) else
    if a == 4 then zeroFields (q.extractLsb' 0 1 == 0) (.redmin { m := m, sc := (q.extractLsb' 2 2), rel := (q.getLsbD 1), b := b, c := c, d := d }) else
    if a == 5 then zeroFields (q.extractLsb' 0 1 == 0) (.redminu { m := m, sc := (q.extractLsb' 2 2), rel := (q.getLsbD 1), b := b, c := c, d := d }) else
    if a == 6 then zeroFields (q.extractLsb' 0 1 == 0) (.redmax { m := m, sc := (q.extractLsb' 2 2), rel := (q.getLsbD 1), b := b, c := c, d := d }) else
    if a == 7 then zeroFields (q.extractLsb' 0 1 == 0) (.redmaxu { m := m, sc := (q.extractLsb' 2 2), rel := (q.getLsbD 1), b := b, c := c, d := d }) else
    if a == 8 then zeroFields (q.extractLsb' 0 1 == 0) (.redfadd { m := m, sc := (q.extractLsb' 2 2), rel := (q.getLsbD 1), b := b, c := c, d := d }) else none
  | 0x49 => zeroFields (m == 0 && c == 0 && q == 0) (.ldtag a b d)
  | 0xA3 => zeroFields (a.extractLsb' 3 1 == 0 && m == 0 && q.extractLsb' 1 3 == 0) (.tld (a.extractLsb' 0 3) b c (q.getLsbD 0) d)
  | 0xA4 => zeroFields (a.extractLsb' 3 1 == 0 && m == 0 && q.extractLsb' 1 3 == 0) (.tst (a.extractLsb' 0 3) b c (q.getLsbD 0) d)
  | 0xB6 => zeroFields (a.extractLsb' 3 1 == 0 && m == 0 && q == 0) (.tldc (a.extractLsb' 0 3) b c d)
  | 0xB7 => zeroFields (a.extractLsb' 3 1 == 0 && m == 0 && q == 0) (.tstc (a.extractLsb' 0 3) b c d)
  | _ => none

/-- The rows of class B (05 R199, R200). -/
def decodeB (op : Nat) (a : BitVec 4) (m : BitVec 2) (b : BitVec 4) (d : BitVec 22) (h : BitVec 6) : Option Instr :=
  match op with
  | 0x19 => zeroFields (m == 0) (.beq a b d h)
  | 0x1A => zeroFields (m == 0) (.bne a b d h)
  | 0x1B => zeroFields (m == 0) (.blt a b d h)
  | 0x1C => zeroFields (m == 0) (.bge a b d h)
  | 0x1D => zeroFields (m == 0) (.bltu a b d h)
  | 0x1E => zeroFields (m == 0) (.bgeu a b d h)
  | _ => none

/-- The rows of class L (05 R199, R200). -/
def decodeL (op : Nat) (a : BitVec 4) (m : BitVec 2) (d : BitVec 26) (h : BitVec 6) : Option Instr :=
  match op with
  | 0x18 => zeroFields (a == 0 && m == 0) (.brL d h)
  | 0x21 => zeroFields (a == 0 && m == 0) (.call d h)
  | _ => none

/-- The rows of class K (05 R199, R200). -/
def decodeK (op : Nat) (a : BitVec 4) (m : BitVec 2) (k : BitVec 32) : Option Instr :=
  match op with
  | 0x11 =>
    if m == 0 then zeroFields (true) (.moviK a k) else
    if m == 1 then zeroFields (true) (.moviKZero a k) else none
  | 0x16 => zeroFields (m == 0) (.leap a (k.extractLsb' 6 26) (k.extractLsb' 0 6))
  | _ => none

/-- The rows of class F (05 R199, R200). -/
def decodeF (op : Nat) (a : BitVec 4) (m : BitVec 2) (b : BitVec 4) (c : BitVec 4) (p : BitVec 6) (w : BitVec 6) (z : BitVec 12) : Option Instr :=
  match op with
  | 0x13 => zeroFields (m == 0 && c == 0 && z == 0) (.bfx a b p w)
  | 0x14 => zeroFields (m == 0 && c == 0 && z == 0) (.bfi a b p w)
  | _ => none

/-- The rows of class X (05 R199, R200). -/
def decodeX (op : Nat) (a : BitVec 4) (m : BitVec 2) (k : BitVec 64) : Option Instr :=
  match op with
  | 0x12 => zeroFields (m == 0) (.moviX a k)
  | _ => none

/-- The rows of class V (09 R336). -/
def decodeV (op : Nat) (o : VOps) : Option Instr :=
  match op with
  | 0x71 => some (.vadd o)
  | 0x72 => some (.vsub o)
  | 0x73 => some (.vmul o)
  | 0x74 => some (.vdiv o)
  | 0x75 => some (.vfma o)
  | 0x76 => some (.vmin o)
  | 0x77 => some (.vmax o)
  | 0x78 => some (.vabs o)
  | 0x79 => some (.vneg o)
  | 0x7A => some (.vcmp o)
  | 0x7B => some (.vsel o)
  | 0x7C => some (.vand o)
  | 0x7D => some (.vor o)
  | 0x7E => some (.vxor o)
  | 0x7F => some (.vnot o)
  | 0x80 => some (.vshl o)
  | 0x81 => some (.vshr o)
  | 0x82 => some (.vsar o)
  | 0x83 => some (.vcvt o)
  | 0x84 => some (.vexp2 o)
  | 0x85 => some (.vlog2 o)
  | 0x86 => some (.vrcp o)
  | 0x87 => some (.vrsq o)
  | 0x88 => some (.vtanh o)
  | 0x89 => some (.vsqrt o)
  | 0x8A => some (.vred o)
  | 0x8B => some (.vscan o)
  | 0x8C => some (.vbcast o)
  | 0x8D => some (.vperm o)
  | 0x8E => some (.vgather o)
  | 0x8F => some (.vscatter o)
  | 0x90 => some (.vrand o)
  | 0x91 => some (.vmov o)
  | 0x93 => some (.vsadd o)
  | 0x94 => some (.vssub o)
  | 0x95 => some (.vmulh o)
  | _ => none

/-- The row that a head and tail belong to, before the checks of `Instr.wf`. -/
def Raw.decode : Raw → Option Instr
  | .fH op a m => decodeH op.toNat a m
  | .fS op a m b c f => decodeS op.toNat a m b c f
  | .fI op a m b k => decodeI op.toNat a m b k
  | .fU op a m k => decodeU op.toNat a m k
  | .fJ op a m d h => decodeJ op.toNat a m d h
  | .fM op a m b c q d => decodeM op.toNat a m b c q d
  | .fB op a m b d h => decodeB op.toNat a m b d h
  | .fL op a m d h => decodeL op.toNat a m d h
  | .fK op a m k => decodeK op.toNat a m k
  | .fF op a m b c p w z => decodeF op.toNat a m b c p w z
  | .fX op a m k => decodeX op.toNat a m k
  | .fV op o => decodeV op.toNat o

/-- The instruction that a head and its tail are, or why they are none (05 R192 checks 1 and 2, R201). An unallocated
opcode is the row UNALLOCATED_OPCODE, whatever its tail-size field. -/
def decode (hd : Half) (t : Word) : Except DecodeError Instr :=
  match opClass (headOp hd) with
  | none => .ok (.unallocatedOpcode hd)
  | some cl =>
    if hd.extractLsb' 14 2 != cl.tsz then .error .tailSize
    else match (Raw.unpack cl hd t).decode with
      | none => .error .field
      | some i => if i.wf then .ok i else .error .field

/-- The half-words of a line's bytes, low address first (05 R183). -/
def halfWords : List Byte → List Half
  | lo :: hi :: rest => (hi ++ lo) :: halfWords rest
  | _ => []

/-- The head count of a line (05 R184). -/
def lineHeads (hw : List Half) : Nat := ((hw.getD 0 0).extractLsb' 11 5).toNat

/-- Half-words of tail of heads 1 to k (05 R186). -/
def tailSum (hw : List Half) (k : Nat) : Nat :=
  ((List.range k).map fun j => tailHalves ((hw.getD (j + 1) 0).extractLsb' 14 2)).sum

/-- Is a line well formed (05 R187)? -/
def lineWf (hw : List Half) : Bool :=
  let n := lineHeads hw
  let t := tailSum hw n
  decide (1 ≤ n) && (hw.getD 0 0).extractLsb' 0 11 == 0 && decide (1 + n + t ≤ 32) &&
    (List.range (31 - t - n)).all fun k => hw.getD (n + 1 + k) 0 == 0

/-- Head h of a line (05 R185). -/
def lineHead (hw : List Half) (h : Nat) : Half := hw.getD h 0

/-- The tail of head h of a line, its lowest half-word in the low bits (05 R186). -/
def lineTail (hw : List Half) (h : Nat) : Word :=
  let st := 32 - tailSum hw h
  match tailHalves ((lineHead hw h).extractLsb' 14 2) with
  | 0 => 0
  | 1 => (hw.getD st 0).setWidth 64
  | 2 => (hw.getD (st + 1) 0 ++ hw.getD st 0 : BitVec 32).setWidth 64
  | _ => hw.getD (st + 3) 0 ++ hw.getD (st + 2) 0 ++ hw.getD (st + 1) 0 ++ hw.getD st 0

/-- Head h of a line as an instruction. -/
def decodeLine (hw : List Half) (h : Nat) : Except DecodeError Instr :=
  decode (lineHead hw h) (lineTail hw h)

/-! The encoder. -/

/-- The fields of an instruction's head and tail (05 R197, R199, R200); none for a step that has no word. -/
def Instr.raw : Instr → Option Raw

  | .nop => some (.fH 0x00 0 0)
  | .add a b c => some (.fS 0x01 a 0 b c 0)
  | .sub a b c => some (.fS 0x02 a 0 b c 0)
  | .mul a b c => some (.fS 0x03 a 0 b c 0)
  | .mulh a b c => some (.fS 0x03 a 1 b c 0)
  | .mulhu a b c => some (.fS 0x03 a 2 b c 0)
  | .mulhsu a b c => some (.fS 0x03 a 3 b c 0)
  | .div a b c => some (.fS 0x04 a 0 b c 0)
  | .divu a b c => some (.fS 0x04 a 1 b c 0)
  | .rem a b c => some (.fS 0x04 a 2 b c 0)
  | .remu a b c => some (.fS 0x04 a 3 b c 0)
  | .and a b c => some (.fS 0x05 a 0 b c 0)
  | .or a b c => some (.fS 0x05 a 1 b c 0)
  | .xor a b c => some (.fS 0x05 a 2 b c 0)
  | .andn a b c => some (.fS 0x05 a 3 b c 0)
  | .shl a b c => some (.fS 0x06 a 0 b c 0)
  | .shr a b c => some (.fS 0x06 a 1 b c 0)
  | .sar a b c => some (.fS 0x06 a 2 b c 0)
  | .ror a b c => some (.fS 0x06 a 3 b c 0)
  | .min a b c => some (.fS 0x07 a 0 b c 0)
  | .minu a b c => some (.fS 0x07 a 1 b c 0)
  | .max a b c => some (.fS 0x07 a 2 b c 0)
  | .maxu a b c => some (.fS 0x07 a 3 b c 0)
  | .cset a b c f => some (.fS 0x08 a 0 b c (0#5 ++ f))
  | .sel a b c d => some (.fS 0x09 a 0 b c (0#4 ++ d))
  | .clz a b => some (.fS 0x0A a 0 b 0 0)
  | .ctz a b => some (.fS 0x0A a 1 b 0 0)
  | .popc a b => some (.fS 0x0A a 2 b 0 0)
  | .brev a b => some (.fS 0x0A a 3 b 0 0)
  | .sxb a b => some (.fS 0x0B a 0 b 0 0)
  | .sxh a b => some (.fS 0x0B a 1 b 0 0)
  | .sxw a b => some (.fS 0x0B a 2 b 0 0)
  | .zxw a b => some (.fS 0x0B a 3 b 0 0)
  | .addi a b i => some (.fI 0x0C a 0 b i)
  | .andi a b i => some (.fI 0x0D a 0 b i)
  | .ori a b i => some (.fI 0x0D a 1 b i)
  | .xori a b i => some (.fI 0x0D a 2 b i)
  | .shli a b i => some (.fI 0x0E a 0 b (0#6 ++ i))
  | .shri a b i => some (.fI 0x0E a 1 b (0#6 ++ i))
  | .sari a b i => some (.fI 0x0E a 2 b (0#6 ++ i))
  | .rori a b i => some (.fI 0x0E a 3 b (0#6 ++ i))
  | .seqi a b i => some (.fI 0x0F a 0 b i)
  | .snei a b i => some (.fI 0x0F a 1 b i)
  | .slti a b i => some (.fI 0x0F a 2 b i)
  | .sltui a b i => some (.fI 0x0F a 3 b i)
  | .moviU a i => some (.fU 0x10 a 0 i)
  | .moviUZero a i => some (.fU 0x10 a 1 i)
  | .moviK a i => some (.fK 0x11 a 0 i)
  | .moviKZero a i => some (.fK 0x11 a 1 i)
  | .moviX a i => some (.fX 0x12 a 0 i)
  | .bfx a b p w => some (.fF 0x13 a 0 b 0 p w 0)
  | .bfi a b p w => some (.fF 0x14 a 0 b 0 p w 0)
  | .lea a b c x sc d => some (.fM 0x15 a 0 b c (BitVec.ofBool x ++ sc) d)
  | .leap a d h => some (.fK 0x16 a 0 (d ++ h))
  | .brJ d h => some (.fJ 0x17 0 0 d h)
  | .brL d h => some (.fL 0x18 0 0 d h)
  | .beq a b d h => some (.fB 0x19 a 0 b d h)
  | .bne a b d h => some (.fB 0x1A a 0 b d h)
  | .blt a b d h => some (.fB 0x1B a 0 b d h)
  | .bge a b d h => some (.fB 0x1C a 0 b d h)
  | .bltu a b d h => some (.fB 0x1D a 0 b d h)
  | .bgeu a b d h => some (.fB 0x1E a 0 b d h)
  | .loop a d h => some (.fJ 0x1F a 0 d h)
  | .brx a => some (.fH 0x20 a 0)
  | .call d h => some (.fL 0x21 0 0 d h)
  | .callr a => some (.fH 0x22 a 0)
  | .ret => some (.fH 0x23 0 0)
  | .ld m sx a b d => some (.fM 0x24 a m b 0 (0#3 ++ BitVec.ofBool sx) d)
  | .st m a b d => some (.fM 0x25 a m b 0 0 d)
  | .ldp a b d => some (.fM 0x26 a 0 b 0 0 d)
  | .stp a b d => some (.fM 0x27 a 0 b 0 0 d)
  | .ldc a b d => some (.fM 0x28 a 0 b 0 0 d)
  | .stc a b d => some (.fM 0x29 a 0 b 0 0 d)
  | .ldcg a b d => some (.fM 0x28 a 1 b 0 0 d)
  | .stcg a b d => some (.fM 0x29 a 1 b 0 0 d)
  | .movp a b => some (.fS 0x2A a 0 b 0 0)
  | .ldg m sc acq sx a b d => some (.fM 0x30 a m b 0 (sc ++ BitVec.ofBool acq ++ BitVec.ofBool sx) d)
  | .stg m sc rel a b d => some (.fM 0x31 a m b 0 (sc ++ BitVec.ofBool rel ++ 0#1) d)
  | .ldgp sc acq a b d => some (.fM 0x32 a 0 b 0 (sc ++ BitVec.ofBool acq ++ 0#1) d)
  | .stgp sc rel a b d => some (.fM 0x33 a 0 b 0 (sc ++ BitVec.ofBool rel ++ 0#1) d)
  | .aadd o => some (.fM 0x34 o.a o.m o.b o.c (o.sc ++ o.ord) o.d)
  | .aand o => some (.fM 0x35 o.a o.m o.b o.c (o.sc ++ o.ord) o.d)
  | .aor o => some (.fM 0x36 o.a o.m o.b o.c (o.sc ++ o.ord) o.d)
  | .axor o => some (.fM 0x37 o.a o.m o.b o.c (o.sc ++ o.ord) o.d)
  | .amin o => some (.fM 0x38 o.a o.m o.b o.c (o.sc ++ o.ord) o.d)
  | .aminu o => some (.fM 0x39 o.a o.m o.b o.c (o.sc ++ o.ord) o.d)
  | .amax o => some (.fM 0x3A o.a o.m o.b o.c (o.sc ++ o.ord) o.d)
  | .amaxu o => some (.fM 0x3B o.a o.m o.b o.c (o.sc ++ o.ord) o.d)
  | .axchg o => some (.fM 0x3C o.a o.m o.b o.c (o.sc ++ o.ord) o.d)
  | .acas o => some (.fM 0x3D o.a o.m o.b o.c (o.sc ++ o.ord) o.d)
  | .afadd o => some (.fM 0x3E o.a o.m o.b o.c (o.sc ++ o.ord) o.d)
  | .redadd o => some (.fM 0x3F 0 o.m o.b o.c (o.sc ++ BitVec.ofBool o.rel ++ 0#1) o.d)
  | .redand o => some (.fM 0x3F 1 o.m o.b o.c (o.sc ++ BitVec.ofBool o.rel ++ 0#1) o.d)
  | .redor o => some (.fM 0x3F 2 o.m o.b o.c (o.sc ++ BitVec.ofBool o.rel ++ 0#1) o.d)
  | .redxor o => some (.fM 0x3F 3 o.m o.b o.c (o.sc ++ BitVec.ofBool o.rel ++ 0#1) o.d)
  | .redmin o => some (.fM 0x3F 4 o.m o.b o.c (o.sc ++ BitVec.ofBool o.rel ++ 0#1) o.d)
  | .redminu o => some (.fM 0x3F 5 o.m o.b o.c (o.sc ++ BitVec.ofBool o.rel ++ 0#1) o.d)
  | .redmax o => some (.fM 0x3F 6 o.m o.b o.c (o.sc ++ BitVec.ofBool o.rel ++ 0#1) o.d)
  | .redmaxu o => some (.fM 0x3F 7 o.m o.b o.c (o.sc ++ BitVec.ofBool o.rel ++ 0#1) o.d)
  | .redfadd o => some (.fM 0x3F 8 o.m o.b o.c (o.sc ++ BitVec.ofBool o.rel ++ 0#1) o.d)
  | .fence m => some (.fH 0x40 0 m)
  | .fencer m b c => some (.fS 0x41 0 m b c 0)
  | .snapset a => some (.fH 0x42 a 0)
  | .snapreg a => some (.fH 0x42 a 1)
  | .snaprel => some (.fH 0x42 0 2)
  | .txb a => some (.fH 0x43 a 0)
  | .txc a => some (.fH 0x44 a 0)
  | .txa => some (.fH 0x45 0 0)
  | .pub a => some (.fH 0x46 a 0)
  | .rdto a b c => some (.fS 0x47 a 0 b c 0)
  | .rdtoWithReport a b c f => some (.fS 0x47 a 1 b c f)
  | .rdtox a b c => some (.fS 0x47 a 2 b c 0)
  | .rdtoxWithReport a b c f => some (.fS 0x47 a 3 b c f)
  | .rdtog a b c => some (.fS 0x48 a 0 b c 0)
  | .rdtogWithReport a b c f => some (.fS 0x48 a 1 b c f)
  | .rdtogx a b c => some (.fS 0x48 a 2 b c 0)
  | .rdtogxWithReport a b c f => some (.fS 0x48 a 3 b c f)
  | .ldtag a b d => some (.fM 0x49 a 0 b 0 0 d)
  | .chopen a b c => some (.fS 0x50 a 0 b c 0)
  | .chclose a => some (.fH 0x51 a 0)
  | .send a b => some (.fS 0x52 a 0 b 0 0)
  | .sendb a b c => some (.fS 0x53 a 0 b c 0)
  | .sendt a b => some (.fS 0x54 (0#1 ++ a) 0 b 0 0)
  | .sendh a b => some (.fS 0x55 a 0 b 0 0)
  | .recv a t b c d => some (.fS 0x56 a (0#1 ++ BitVec.ofBool t) b c (0#4 ++ d))
  | .recvb a t b c d => some (.fS 0x57 a (0#1 ++ BitVec.ofBool t) b c (0#4 ++ d))
  | .recvt a t b c d => some (.fS 0x58 (0#1 ++ a) (0#1 ++ BitVec.ofBool t) b c (0#4 ++ d))
  | .recvh a t b c d => some (.fS 0x59 a (0#1 ++ BitVec.ofBool t) b c (0#4 ++ d))
  | .altp a t b c d n => some (.fS 0x5A a (0#1 ++ BitVec.ofBool t) b c (d ++ n))
  | .altf a t b c d n => some (.fS 0x5B a (0#1 ++ BitVec.ofBool t) b c (d ++ n))
  | .spawn a b c p => some (.fS 0x5C a 0 b c (0#6 ++ p))
  | .stop => some (.fH 0x5D 0 0)
  | .join a t b c d => some (.fS 0x5E a (0#1 ++ BitVec.ofBool t) b c (0#4 ++ d))
  | .yield => some (.fH 0x5F 0 0)
  | .setpri a => some (.fH 0x60 a 0)
  | .time a => some (.fH 0x61 a 0)
  | .twait a => some (.fH 0x62 a 0)
  | .bara sc => some (.fI 0x63 0 0 0 (0#9 ++ sc))
  | .barw a t b sc => some (.fI 0x64 a (0#1 ++ BitVec.ofBool t) b (0#9 ++ sc))
  | .barx a t b sc => some (.fI 0x65 a (0#1 ++ BitVec.ofBool t) b (0#9 ++ sc))
  | .rden a b f => some (.fS 0x66 a 0 b 0 (0#7 ++ BitVec.ofBool f))
  | .rdsv a f => some (.fS 0x67 a 0 0 0 f)
  | .vsetl a b t => some (.fI 0x70 a 0 b (0#4 ++ t))
  | .vadd o => some (.fV 0x71 o)
  | .vsub o => some (.fV 0x72 o)
  | .vmul o => some (.fV 0x73 o)
  | .vdiv o => some (.fV 0x74 o)
  | .vfma o => some (.fV 0x75 o)
  | .vmin o => some (.fV 0x76 o)
  | .vmax o => some (.fV 0x77 o)
  | .vabs o => some (.fV 0x78 o)
  | .vneg o => some (.fV 0x79 o)
  | .vcmp o => some (.fV 0x7A o)
  | .vsel o => some (.fV 0x7B o)
  | .vand o => some (.fV 0x7C o)
  | .vor o => some (.fV 0x7D o)
  | .vxor o => some (.fV 0x7E o)
  | .vnot o => some (.fV 0x7F o)
  | .vshl o => some (.fV 0x80 o)
  | .vshr o => some (.fV 0x81 o)
  | .vsar o => some (.fV 0x82 o)
  | .vcvt o => some (.fV 0x83 o)
  | .vexp2 o => some (.fV 0x84 o)
  | .vlog2 o => some (.fV 0x85 o)
  | .vrcp o => some (.fV 0x86 o)
  | .vrsq o => some (.fV 0x87 o)
  | .vtanh o => some (.fV 0x88 o)
  | .vsqrt o => some (.fV 0x89 o)
  | .vred o => some (.fV 0x8A o)
  | .vscan o => some (.fV 0x8B o)
  | .vbcast o => some (.fV 0x8C o)
  | .vperm o => some (.fV 0x8D o)
  | .vgather o => some (.fV 0x8E o)
  | .vscatter o => some (.fV 0x8F o)
  | .vrand o => some (.fV 0x90 o)
  | .vmov o => some (.fV 0x91 o)
  | .vflg a m => some (.fH 0x92 a m)
  | .vsadd o => some (.fV 0x93 o)
  | .vssub o => some (.fV 0x94 o)
  | .vmulh o => some (.fV 0x95 o)
  | .tacq => some (.fH 0xA0 0 0)
  | .trel => some (.fH 0xA1 0 0)
  | .tset a b => some (.fS 0xA2 (0#1 ++ a) 0 b 0 0)
  | .tld a b c mx d => some (.fM 0xA3 (0#1 ++ a) 0 b c (0#3 ++ BitVec.ofBool mx) d)
  | .tst a b c mx d => some (.fM 0xA4 (0#1 ++ a) 0 b c (0#3 ++ BitVec.ofBool mx) d)
  | .tzcC a => some (.fH 0xA5 (0#1 ++ a) 0)
  | .tzcT a => some (.fH 0xA5 (0#1 ++ a) 1)
  | .tmmaBf16 a b c => some (.fS 0xA6 (0#1 ++ a) 0 (0#1 ++ b) (0#1 ++ c) 0)
  | .tmmaF16 a b c => some (.fS 0xA7 (0#1 ++ a) 0 (0#1 ++ b) (0#1 ++ c) 0)
  | .tmmaE4m3 a b c => some (.fS 0xA8 (0#1 ++ a) 0 (0#1 ++ b) (0#1 ++ c) 0)
  | .tmmaE5m2 a b c => some (.fS 0xA9 (0#1 ++ a) 0 (0#1 ++ b) (0#1 ++ c) 0)
  | .tmmaMxf8 a b c => some (.fS 0xAA (0#1 ++ a) 0 (0#1 ++ b) (0#1 ++ c) 0)
  | .tmmaMxf6 a b c => some (.fS 0xAB (0#1 ++ a) 0 (0#1 ++ b) (0#1 ++ c) 0)
  | .tmmaMxf4 a b c => some (.fS 0xAC (0#1 ++ a) 0 (0#1 ++ b) (0#1 ++ c) 0)
  | .tmmaI8 a b c => some (.fS 0xAD (0#1 ++ a) 0 (0#1 ++ b) (0#1 ++ c) 0)
  | .tcvt a b c i32 r sat => some (.fS 0xAE (0#1 ++ a) 0 (0#1 ++ b) c (BitVec.ofBool i32 ++ r ++ BitVec.ofBool sat ++ 0#3))
  | .ttran a b => some (.fS 0xAF (0#1 ++ a) 0 (0#1 ++ b) 0 0)
  | .tldc a b c d => some (.fM 0xB6 (0#1 ++ a) 0 b c 0 d)
  | .tstc a b c d => some (.fM 0xB7 (0#1 ++ a) 0 b c 0 d)
  | .cpset b f => some (.fI 0xB0 0 0 b (0#8 ++ f))
  | .cpgo a => some (.fH 0xB1 a 0)
  | .cpwait a => some (.fH 0xB2 a 0)
  | .rgwait a b => some (.fS 0xB3 a 0 b 0 0)
  | .rgrel a b => some (.fS 0xB4 a 0 b 0 0)
  | .scrub a b c => some (.fS 0xB5 a 0 b c 0)
  | .trap a i => some (.fI 0xC0 a 0 0 i)
  | .eret => some (.fH 0xC1 0 0)
  | .krd a b t n => some (.fI 0xC2 a 0 b (BitVec.ofBool t ++ n))
  | .kwr a b t n => some (.fI 0xC3 a 0 b (BitVec.ofBool t ++ n))
  | .resume a b => some (.fS 0xC4 a 0 b 0 0)
  | .kill a b => some (.fS 0xC5 a 0 b 0 0)
  | .mintGroup a b c f => some (.fS 0xC6 a 0 b c (0#6 ++ f))
  | .mintFarPointer a b c f => some (.fS 0xC6 a 0 b c (1#2 ++ 0#2 ++ f))
  | .rights a b c => some (.fS 0xC7 a 0 b c 0)
  | .plbinv b c => some (.fS 0xC8 0 0 b c 0)
  | .ifence => some (.fH 0xC9 0 0)
  | .waiti a => some (.fH 0xCA a 0)
  | .quiesce a m => some (.fH 0xCB a (0#1 ++ BitVec.ofBool m))
  | .brk => some (.fH 0xCC 0 0)
  | .linePrefetch .. => none
  | .sliceEnd .. => none
  | .priority0Preemption .. => none
  | .deadlineComparison .. => none
  | .channelHeaderArrival .. => none
  | .headerResend .. => none
  | .transferGrant .. => none
  | .transferDone .. => none
  | .doneMessage .. => none
  | .grantedDataArrival .. => none
  | .acceptance .. => none
  | .closedReply .. => none
  | .loadDataArrival .. => none
  | .errorResponse .. => none
  | .deferredFaultTrap .. => none
  | .writeQueueDrain .. => none
  | .storeAcknowledgement .. => none
  | .homeRead .. => none
  | .homeWrite .. => none
  | .homeAtomic .. => none
  | .atomicWatchdog .. => none
  | .translationWalk .. => none
  | .plbMiss .. => none
  | .snapshotRequest .. => none
  | .epochMarker .. => none
  | .epochMarkerAcknowledgement .. => none
  | .snapshotReply .. => none
  | .watermarkBroadcast .. => none
  | .vheldBroadcast .. => none
  | .firnLineBroadcast .. => none
  | .prepare .. => none
  | .vote .. => none
  | .apply .. => none
  | .abortTxid .. => none
  | .abortAcknowledgement .. => none
  | .publishApply .. => none
  | .copyRegistration .. => none
  | .revocation .. => none
  | .revocationNotice .. => none
  | .ablationReclaim .. => none
  | .sourceRead .. => none
  | .thirdPartyDelivery .. => none
  | .failedVoidDelivery .. => none
  | .errorCompletion .. => none
  | .report .. => none
  | .copyTransfer .. => none
  | .copyCompletion .. => none
  | .tileCommandStart .. => none
  | .tileCommandComplete .. => none
  | .barrierArrival .. => none
  | .barrierRelease .. => none
  | .frostSweep .. => none
  | .sweepResult .. => none
  | .completionRecord .. => none
  | .nrgo .. => none
  | .launch .. => none
  | .launchStart .. => none
  | .netdel .. => none
  | .crcons .. => none
  | .abort .. => none
  | .hold .. => none
  | .registerWrite .. => none
  | .held .. => none
  | .partitionResume .. => none
  | .quotaComparison => none
  | .meterFlush .. => none
  | .correctionFactor .. => none
  | .equota .. => none
  | .create .. => none
  | .destroy .. => none
  | .merge .. => none
  | .split .. => none
  | .retire .. => none
  | .badOp .. => none
  | .ptmap .. => none
  | .ptunmap .. => none
  | .domset .. => none
  | .rangeset .. => none
  | .ceweight .. => none
  | .farmap .. => none
  | .farepoch .. => none
  | .qpcreate .. => none
  | .qpreset .. => none
  | .sparerow .. => none
  | .poisonset .. => none
  | .mailboxBadOp .. => none
  | .dbell .. => none
  | .sres .. => none
  | .skill .. => none
  | .flcons .. => none
  | .hvgo .. => none
  | .harvestEnd .. => none
  | .rcgo .. => none
  | .podcfg .. => none
  | .perstDeassert => none
  | .unitReady .. => none
  | .functionLevelReset .. => none
  | .physicalFunctionReset => none
  | .flitReceive .. => none
  | .negativeAcknowledgement .. => none
  | .laneFailure .. => none
  | .deadList .. => none
  | .packetReturn .. => none
  | .unreachableWatchdog .. => none
  | .workRequest .. => none
  | .scaleOutPacket .. => none
  | .retransmit .. => none
  | .bar2Read .. => none
  | .bar2Write .. => none
  | .lockInterface .. => none
  | .startInterface .. => none
  | .stopInterface .. => none
  | .getDeviceInterfaceReport .. => none
  | .ideKm .. => none
  | .keyLoad .. => none
  | .keyDrop .. => none
  | .getVersion .. => none
  | .getCapabilities .. => none
  | .negotiateAlgorithms .. => none
  | .getDigests .. => none
  | .getCertificate .. => none
  | .challenge .. => none
  | .getMeasurements .. => none
  | .keyExchange .. => none
  | .finish .. => none
  | .endSession .. => none
  | .rowspare .. => none
  | .parity .. => none
  | .elementGroup .. => none
  | .unallocatedOpcode .. => none
  | .configurationWrite .. => none
  | .linkRetrainingEnd .. => none
  | .firmwareImageVerified .. => none
  | .podSynchronisation .. => none

/-- The head and the tail bits of an instruction; none for a step that has no word. -/
def encode (i : Instr) : Option (Half × Word) := i.raw.map Raw.pack

/-- The bytes of a line that holds one head and its tail: header with n = 1, the head, zero fill, the tail at the end
(05 R184-R187). -/
def oneHeadLine (hd : Half) (t : Word) : List Byte :=
  let k := tailHalves (hd.extractLsb' 14 2)
  let tl : List Half := (List.range k).map fun j => t.extractLsb' (16 * j) 16
  let hw : List Half := [0x0800, hd] ++ List.replicate (30 - k) 0 ++ tl
  hw.flatMap fun h => [h.extractLsb' 0 8, h.extractLsb' 8 8]

/-- The head in an instruction numbered as the opcode table numbers its bits: the head is the top half-word of the nbits,
the tail's bits follow below it; bits the table gives the row none are zero. -/
def tableHead (nbits w : Nat) : Half := BitVec.ofNat 16 (w >>> (nbits - 16))

/-- The tail bits that the opcode table's numbering gives. -/
def tableTail (nbits w : Nat) : Word := BitVec.ofNat 64 (w % 2 ^ (nbits - 16))

/-- The instruction that the decoder reads from a word numbered as the opcode table numbers it: the word is laid out in a
line as the hardware stores it and the line's head 1 is decoded. -/
def decodeTableWord (nbits w : Nat) : Option Instr :=
  match decodeLine (halfWords (oneHeadLine (tableHead nbits w) (tableTail nbits w))) 1 with
  | .ok i => some i
  | .error _ => none

end Sys2Proof
end

