-- ==== Sys2Proof/Machine/Home.lean ====
section
/-! DEFINITION. Addresses and homes: the on-chip window (02 R78), rights (15 R464-R466), the address-range table (02 R87, 15 R469),
translation (15 R457-R463), and the versioned lines of HBM at their servers (02 R97-R119). -/

namespace Sys2Proof.Machine

/-! Partitions and rights. -/

/-- Bits of a right in RIGHTS (15 R465). -/
def rightR : Nat := 1
/-- W. -/
def rightW : Nat := 2
/-- X. -/
def rightX : Nat := 4
/-- A. -/
def rightA : Nat := 8
/-- V. -/
def rightV : Nat := 16
/-- M. -/
def rightM : Nat := 32

/-- The level of a tree node (15 R472). -/
def nodeLevel (n : Nat) : Nat := Nat.log2 n

/-- Node n covers leaf j (15 R472). -/
def nodeHasLeaf (n j : Nat) : Bool :=
  let w := 2 ^ (4 - nodeLevel n)
  n != 0 && decide ((n - 2 ^ nodeLevel n) * w ≤ j) && decide (j < (n - 2 ^ nodeLevel n) * w + w)

/-- A package quad in service: its cluster is ready and it is not retired (15 R476, 18 R528, R529). -/
def State.quadLive (s : State) (q : Nat) : Bool :=
  (s.clusterAt (q / 4)).ready && !s.retired.contains q

/-- A cluster with a quad in service. -/
def State.clusterLive (s : State) (c : Nat) : Bool := (List.range 4).any fun i => s.quadLive (4 * c + i)

/-- Partition p's node covers cluster c. -/
def State.partHasCluster (s : State) (p c : Nat) : Bool := nodeHasLeaf (s.partAt p).node (c / 4)

/-- Core g is partition p's: in its leaves and in a live quad (15 R466, R472). -/
def State.coreInPart (s : State) (p g : Nat) : Bool :=
  decide (g < Config.numCores) && s.partHasCluster p (clusterOf g) && s.quadLive (quadOf g)

/-- The cores of a partition in ascending order. -/
def State.partCores (s : State) (p : Nat) : List Nat := (List.range Config.numCores).filter fun g => s.coreInPart p g

/-- The partition that holds core g's leaf, if any. -/
def State.partOfCore (s : State) (g : Nat) : Option Nat :=
  (s.parts.find? fun e => nodeHasLeaf e.2.node (clusterOf g / 4)).map (·.1)

/-- The location that a window address names; none where 02 R78 rejects it. -/
def windowLoc (ea : Nat) : Option Loc :=
  let die := bitsOf ea 48 47
  let cl := bitsOf ea 46 43
  match bitsOf ea 50 49 with
  | 0 =>
    if bitsOf ea 38 19 = 0 ∧ ea % 2 ^ 19 < Config.lmSize then
      some (.lm (die * 256 + cl * 16 + bitsOf ea 42 39) (ea % 2 ^ 19))
    else none
  | 1 => if bitsOf ea 42 23 = 0 then some (.cm (die * 16 + cl) (ea % 2 ^ 23)) else none
  | 2 => if bitsOf ea 46 27 = 0 ∧ ea % 2 ^ 27 < Config.dmSize then some (.dm die (ea % 2 ^ 27)) else none
  | _ => none

/-- The window address of an LM byte (02 R78). -/
def windowLm (g off : Nat) : Nat :=
  2 ^ 51 + dieOf g * 2 ^ 47 + (g / 16 % 16) * 2 ^ 43 + (g % 16) * 2 ^ 39 + off

/-- An address of the on-chip window (02 R76). -/
def isWindow (ea : Nat) : Bool := decide (2 ^ 51 ≤ ea)

/-- The fixed rights of a window location (15 R466). -/
def State.windowRights (s : State) (p : Nat) : Loc → Nat
  | .lm g off =>
    if s.coreInPart p g && decide (off < Config.segArea) then rightR + rightW + rightX + rightA + rightM else 0
  | .cm c off =>
    if s.partHasCluster p c && s.clusterLive c && decide (off < Config.cmUser) then rightR + rightW + rightA + rightM else 0
  | .dm d off =>
    let j := 4 * d + off / Config.dmQuarter
    if nodeHasLeaf (s.partAt p).node j && (List.range 4).any (fun i => s.clusterLive (4 * j + i)) then
      rightR + rightW + rightA + rightM
    else 0
  | _ => 0

/-- A domain-table entry (15 R465): base, size, rights, when enabled. -/
def domainEntry (w : Word) : Option (Nat × Nat × Nat) :=
  if w.getLsbD 63 then some (bitsOf w.toNat 51 16 * 65536, 2 ^ bitsOf w.toNat 15 10, bitsOf w.toNat 5 0) else none

/-- The enabled domain entry of partition p that covers a translated byte. -/
def State.domainAt (s : State) (p ea : Nat) : Option (Nat × Nat × Nat) :=
  (s.partAt p).domains.findSome? fun e =>
    match domainEntry e.2 with
    | some (b, n, r) => if b ≤ ea ∧ ea < b + n then some (b, n, r) else none
    | none => none

/-- All the bits of `need` stand in `have_`. -/
def hasRights (have_ need : Nat) : Bool := have_ &&& need == need

/-- Every byte of a translated range has the rights: entries are taken one after another (15 R464, R465). -/
def State.domainCovers (s : State) (p need : Nat) : Nat → Nat → Nat → Bool
  | 0, _, n => n == 0
  | fuel + 1, a, n =>
    if n = 0 then true
    else match s.domainAt p a with
      | some (b, sz, r) =>
        hasRights r need && (if a + n ≤ b + sz then true else s.domainCovers p need fuel (b + sz) (a + n - (b + sz)))
      | none => false

/-- Every byte of a window range lies at one unit and has the rights there. -/
def State.windowCovers (s : State) (p need a n : Nat) : Bool :=
  match windowLoc a, windowLoc (a + n - 1) with
  | some (.lm g o), some (.lm g' o') =>
    g == g' && hasRights (s.windowRights p (.lm g o)) need && hasRights (s.windowRights p (.lm g o')) need
  | some (.cm c o), some (.cm c' o') =>
    c == c' && hasRights (s.windowRights p (.cm c o)) need && hasRights (s.windowRights p (.cm c o')) need
  | some (.dm d o), some (.dm d' o') =>
    d == d' && (List.range 4).all fun q =>
      !decide (o / Config.dmQuarter ≤ q ∧ q ≤ o' / Config.dmQuarter) ||
        hasRights (s.windowRights p (.dm d (q * Config.dmQuarter))) need
  | _, _ => false

/-- Every byte of [a, a + n) has the rights for partition p (15 R464). -/
def State.rangeHas (s : State) (p need a n : Nat) : Bool :=
  if n = 0 then true
  else if isWindow a then s.windowCovers p need a n
  else if a + n ≤ 2 ^ 51 then s.domainCovers p need 257 a n
  else s.domainCovers p need 257 a (2 ^ 51 - a) && s.windowCovers p need (2 ^ 51) (a + n - 2 ^ 51)

/-- Every window address of [a, a + n) is one that 02 R78 accepts. -/
def windowOk (a n : Nat) : Bool :=
  if n = 0 ∨ a + n ≤ 2 ^ 51 then true
  else
    let b := max a (2 ^ 51)
    match windowLoc b, windowLoc (a + n - 1) with
    | some (.lm g _), some (.lm g' _) => g == g'
    | some (.cm c _), some (.cm c' _) => c == c'
    | some (.dm d _), some (.dm d' _) => d == d'
    | _, _ => false

/-- Checks 1, 3 and 4 of 07 R249 on a range, with the cause of the first that fails. -/
def State.rangeCheck (s : State) (p need : Nat) (a : Word) (n : Nat) : Option Cause :=
  if 2 ^ 52 ≤ a.toNat ∨ 2 ^ 52 < a.toNat + n then some .bounds
  else if !windowOk a.toNat n then some .bounds
  else if !s.rangeHas p need a.toNat n then some .rights
  else none

/-- The issue checks of 07 R249 on an access of `n` bytes, with the cause of the first that fails. -/
def State.issueCheck (s : State) (p need : Nat) (ea : Word) (n : Nat) : Option Cause :=
  if 2 ^ 52 ≤ ea.toNat ∨ 2 ^ 52 < ea.toNat + n then some .bounds
  else if ea.toNat % n ≠ 0 then some .align
  else s.rangeCheck p need ea n

/-! The address-range table. -/

/-- The servers of a range entry in ascending order (02 R87, 15 R469). -/
def rangeServers (e : BitVec 128) : List Nat :=
  let stackBits := bitsOf e.toNat 119 112
  let channels := bitsOf e.toNat 107 76
  (List.range Config.numServers).filter fun v => stackBits.testBit (v / 32) && channels.testBit (v % 32)

/-- First DPA of a range entry. -/
def rangeBase (e : BitVec 128) : Nat := bitsOf e.toNat 20 0 * 2 ^ 30

/-- Bytes of a range entry. -/
def rangeLen (e : BitVec 128) : Nat := bitsOf e.toNat 41 21 * 2 ^ 30

/-- Interleave granule of a range entry. -/
def rangeGran (e : BitVec 128) : Nat := 2 ^ (8 + bitsOf e.toNat 111 108)

/-- Owner partition of a range entry. -/
def rangeOwner (e : BitVec 128) : Nat := bitsOf e.toNat 123 120

/-- A DPA lies in an enabled entry. -/
def rangeHolds (e : BitVec 128) (dpa : Nat) : Bool :=
  e.getLsbD 127 && decide (rangeBase e ≤ dpa) && decide (dpa < rangeBase e + rangeLen e)

/-- The enabled entry that covers a DPA. -/
def State.rangeAt (s : State) (dpa : Nat) : Option (BitVec 128) :=
  (s.ranges.find? fun e => rangeHolds e.2 dpa).map (·.2)

/-- The memory server that is home of a DPA (02 R87); none when no entry covers it. -/
def State.hbmHome (s : State) (dpa : Nat) : Option Nat :=
  match s.rangeAt dpa with
  | none => none
  | some e =>
    let l := rangeServers e
    if l.isEmpty then none else l[(dpa - rangeBase e) / rangeGran e % l.length]?

/-- Server data capacity in bytes (15 R470, 17 R509). -/
def serverCapacity (cfg : BitVec 2) : Nat :=
  match cfg.toNat with
  | 0 => 1856 * 2 ^ 20
  | 1 => 1728 * 2 ^ 20
  | _ => 1472 * 2 ^ 20

/-- The byte a location names, as a number of its space. -/
def Loc.off : Loc → Nat
  | .lm _ x => x | .cm _ x => x | .dm _ x => x | .hbm _ x => x | .host x => x | .far _ _ _ x => x

/-! Errors that reads find (17 R515, R516). -/

/-- The error-correcting code over a byte of a location covers one of [n bytes at l]: a 64-bit word on the chip, 64 bytes in HBM. -/
def Loc.struck (u l : Loc) (n : Nat) : Bool :=
  match u, l with
  | .lm g x, .lm h y => g == h && overlaps (x / 8 * 8) 8 y n
  | .cm c x, .cm d y => c == d && overlaps (x / 8 * 8) 8 y n
  | .dm c x, .dm d y => c == d && overlaps (x / 8 * 8) 8 y n
  | .hbm _ x, .hbm _ y => overlaps (x / 64 * 64) 64 y n
  | _, _ => false

/-- Two errors met by one read. -/
def joinEcc : Ecc → Ecc → Ecc
  | .clean, e => e
  | e, .clean => e
  | .directory, _ => .directory
  | _, .directory => .directory
  | .corrected, .corrected => .corrected
  | .uncorrectable, .uncorrectable => .uncorrectable
  | _, _ => .mixed

/-- What the error-correcting code finds in a read of [n bytes at l] of which no event tells. -/
def State.errAt (s : State) (l : Loc) (n : Nat) : Ecc :=
  (s.upsets.filter fun u => u.1.struck l n).foldl (fun e u => joinEcc e u.2) .clean

/-! Versions. -/

/-- The version a current-mode read returns (02 R103): the newest written plainly or at or below V. -/
def Line.current (l : Line) (v : Nat) : Ver :=
  match (l.cur :: l.pool).find? fun x => x.plain || decide (x.ts ≤ v) with
  | some x => x
  | none => l.pool.getLastD l.cur

/-- The newest committed version at or below a snapshot (02 R104). -/
def Line.snapshot (l : Line) (ts : Nat) : Option Ver := (l.cur :: l.pool).find? fun x => decide (x.ts ≤ ts)

/-- An owner's tentative version (02 R97). -/
def Line.tentOf (l : Line) (o : Owner) : Option Ver := (l.tent.find? fun e => e.1 == o).map (·.2)

/-- Tag bits of the granules that [off, off + n) of a line meets. -/
def granuleMask (off n : Nat) : BitVec 8 :=
  BitVec.ofNat 8 (((List.range 8).filter fun i => overlaps (16 * i) 16 off n).foldl (fun a i => a + 2 ^ i) 0)

/-- The snapshot of a value has been revoked (02 R104, R117). -/
def Tss.revoked (t : Tss) (ts : Nat) : Bool := t.snaps.any fun x => x.ts == ts && x.revoked

/-- A version with bytes written at an offset: tags of the granules cleared, or set for a capability; the whole line's write
clears the poison (02 R93, R119). -/
def Ver.write (v : Ver) (off : Nat) (bytes : List Byte) (cap : Bool) : Ver :=
  let mask := granuleMask off bytes.length
  { v with
    data := Mem.write v.data off bytes
    tags := if cap then v.tags ||| mask else v.tags &&& ~~~mask
    poison := v.poison && bytes.length != 128 }

/-- The lines whose home is server v, of those that hold anything but their state after bring-up. -/
def State.linesOf (s : State) (v : Nat) : List (Nat × Line) :=
  s.hbm.filter fun e => s.hbmHome (e.1 * 128) == some v

/-- Copy q wrote this set version after another copy had (10 R383). -/
def SetLine.later (x : SetLine) (q : Nat) : Bool :=
  (x.writes.dropWhile fun w => w.1 == q).any fun w => w.1 == q

/-- Prior contents that incomplete tagged copies keep of a line's set versions, each in a pool slot (10 R383). -/
def State.priors (s : State) (line : Nat) : Nat :=
  let live := s.clusters.flatMap fun e => (e.2.journal.filter fun c => c.finished.isNone).map (·.seq)
  ((s.setLog.filter fun x => x.line == line && ((s.lineAt line).tentOf x.own).isSome).map fun x =>
    (live.filter x.later).length).sum

/-- Pool lines of a server that hold a version (17 R508 POOLUSED). -/
def State.poolUsed (s : State) (v : Nat) : Nat :=
  ((s.linesOf v).map fun e => e.2.pool.length + e.2.tent.length + s.priors e.1).sum

/-- The seven further slots of a line are in use (02 R97, R117). -/
def State.lineFull (s : State) (line : Nat) : Bool :=
  let l := s.lineAt line
  decide (7 ≤ l.pool.length + l.tent.length + s.priors line)

/-- Pool lines a server has (17 R508 POOL). -/
def poolSize (cfg : BitVec 2) : Nat :=
  match cfg.toNat with
  | 0 => 2 ^ 20
  | 1 => 2 ^ 21
  | _ => 2 ^ 22

/-- Live snapshots of the service: not revoked, held or of an open transaction (07 R270). -/
def Tss.live (t : Tss) : List Snap := t.snaps.filter fun x => !x.revoked && decide (0 < x.holders)

/-- The firn line (02 R115). -/
def Tss.firn (t : Tss) : Option Nat := (t.live.map (·.ts)).min?

/-- The newest live snapshot value (02 R112). -/
def Tss.newest (t : Tss) : Option Nat := (t.live.map (·.ts)).max?

/-- An event-log entry (17 R513). -/
def logBytes (time : Word) (kind part unit : Nat) (addr data : Nat) : List Byte :=
  natBytes 8 time.toNat ++ natBytes 1 kind ++ natBytes 1 part ++ natBytes 2 unit ++ natBytes 4 0 ++ natBytes 8 addr ++
    natBytes 8 data

/-- Page-size exponent of a leaf's SZ code (15 R457). -/
def pageLog (sz : Nat) : Option Nat :=
  [12, 14, 16, 18, 20, 21, 22, 24, 26, 28, 30, 32][sz]?

/-- Is an SZ code allowed for a leaf at a level (15 R457)? -/
def szAllowed (level sz : Nat) : Bool :=
  match level with
  | 3 => sz == 10 || sz == 11
  | 2 => decide (5 ≤ sz ∧ sz ≤ 9)
  | 1 => decide (sz ≤ 4)
  | _ => false

/-- The DPA that a valid pointer entry names (15 R459, R460). -/
def pointerOf (e : Word) : Option Nat :=
  if bitsOf e.toNat 63 52 = 0 ∧ bitsOf e.toNat 11 2 = 0 ∧ bitsOf e.toNat 1 0 = 1 ∧ e.getLsbD 51 = false then some (bitsOf e.toNat 51 12 * 4096) else none

/-- The 8-byte table entry at a DPA as a current-mode read returns it; none when it is poisoned, the read finds an error that the code cannot
correct, or no entry covers it (15 R459, 17 R515). -/
def State.tableEntry (s : State) (dpa : Nat) : Option Word :=
  match s.hbmHome dpa with
  | none => none
  | some v =>
    let x := (s.lineAt (dpa / 128)).current (s.serverAt v).v
    if x.poison || eccFails (s.errAt (.hbm v dpa) 8) then none else some (bytesWord (Mem.read x.data (dpa % 128) 8))

/-- Index of a table level in a DVA (15 R457). -/
def tableIndex (level dva : Nat) : Nat :=
  match level with
  | 4 => bitsOf dva 50 39
  | 3 => bitsOf dva 38 30
  | 2 => bitsOf dva 29 21
  | _ => bitsOf dva 20 12

/-- The walk from a table of a level (15 R459): the leaf entry and its page-size exponent; none is XLATE. Level 4 is the root. -/
def State.walkFrom (s : State) (dva : Nat) : Nat → Nat → Option (Word × Nat)
  | 0, _ => none
  | level + 1, table =>
    match s.tableEntry (table + 8 * tableIndex (level + 1) dva) with
    | none => none
    | some e =>
      let sz := bitsOf e.toNat 7 4
      let zero := bitsOf e.toNat 63 52 == 0 && bitsOf e.toNat 11 8 == 0 && bitsOf e.toNat 3 2 == 0
      if !zero then none
      else match bitsOf e.toNat 1 0 with
        | 1 =>
          if level = 0 ∨ e.getLsbD 51 ∨ sz ≠ 0 then none
          else s.walkFrom dva level (bitsOf e.toNat 51 12 * 4096)
        | 2 =>
          match pageLog sz with
          | none => none
          | some z =>
            if szAllowed (level + 1) sz && bitsOf e.toNat 51 12 * 4096 % 2 ^ z == 0 then some (e, z) else none
        | _ => none

/-- The walk of a translated DVA from PTROOT. -/
def State.walk (s : State) (dva : Nat) : Option (Word × Nat) := s.walkFrom dva 4 s.ptroot

/-- The entries that a walk from a table of a level reads (15 R459): level, DPA, and the table that a pointer names. -/
def State.walkSteps (s : State) (dva : Nat) : Nat → Nat → List (Nat × Nat × Option Nat)
  | 0, _ => []
  | level + 1, table =>
    let a := table + 8 * tableIndex (level + 1) dva
    match (s.tableEntry a).bind pointerOf with
    | some t => (level + 1, a, some t) :: s.walkSteps dva level t
    | none => [(level + 1, a, none)]

/-- The location a leaf gives a DVA (15 R459, 02 R87). -/
def State.leafLoc (s : State) (leaf : Word) (z dva : Nat) : Except Cause Loc :=
  let dpa := bitsOf leaf.toNat 51 12 * 4096 + dva % 2 ^ z
  if leaf.getLsbD 51 then .ok (.host (dpa % 2 ^ 51))
  else match s.hbmHome dpa with
    | some v => .ok (.hbm v dpa)
    | none => .error .bounds

/-- The far-map entry of partition p that covers a translated DVA (16 R493). -/
def State.farAt (s : State) (p dva : Nat) : Option FarEnt :=
  ((s.partAt p).farMap.find? fun e =>
    decide (e.2.lbase ≤ dva) && decide (dva ≤ e.2.lbase + bitsOf e.2.cap.toNat 95 52)).map (·.2)

/-- The egress port's checks of a far access (16 R494): the far pointer's right (0 R, 1 W, 2 A) and its length. -/
def State.farCheck (s : State) (p ea n : Nat) (right : Nat) : Option Cause :=
  match s.farAt p ea with
  | none => some .rights
  | some f =>
    if !f.cap.getLsbD (107 - right) then some .rights
    else if bitsOf f.cap.toNat 95 52 < ea - f.lbase + n - 1 then some .bounds
    else none

/-- A cached leaf of a cluster that covers a DVA (15 R461). -/
def Cluster.cachedLeaf (c : Cluster) (dva : Nat) : Option (Word × Nat) :=
  (c.tc.find? fun e => decide (e.1 ≤ dva) && decide (dva < e.1 + 2 ^ e.2.2)).map (·.2)

/-- The cluster with a leaf cached; at most 1,024 are held, the oldest goes first (15 R461). -/
def Cluster.cacheLeaf (c : Cluster) (dva : Nat) (leaf : Word) (z : Nat) : Cluster :=
  { c with tc := ((dva / 2 ^ z * 2 ^ z, leaf, z) :: c.tc).take 1024 }

/-- Bytes of DVAs that an entry of a level's tables serves (15 R457). -/
def pointerSpan (level : Nat) : Nat := if level = 3 then 2 ^ 30 else 2 ^ 21

/-- The part of a DVA that selects an entry of a level's tables (15 R457). -/
def pointerKey (level dva : Nat) : Nat := dva / pointerSpan level

/-- The table from which a walk starts, and its level (15 R461): the deepest cached pointer's, else the root. -/
def Cluster.walkStart (c : Cluster) (root dva : Nat) : Nat × Nat :=
  match c.tp.find? fun x => x.1 == 2 && x.2.1 == pointerKey 2 dva with
  | some x => (1, x.2.2)
  | none => match c.tp.find? fun x => x.1 == 3 && x.2.1 == pointerKey 3 dva with
    | some x => (2, x.2.2)
    | none => (4, root)

/-- The cluster with the pointers of levels 3 and 2 that a walk has met; 64 are held, the oldest go first (15 R461). -/
def Cluster.cachePointers (c : Cluster) (dva : Nat) (steps : List (Nat × Nat × Option Nat)) : Cluster :=
  let new := (steps.filterMap fun x => match x.2.2 with
    | some t => if x.1 = 3 ∨ x.1 = 2 then some (x.1, pointerKey x.1 dva, t) else none
    | none => none).filter fun x => !c.tp.contains x
  { c with tp := (new ++ c.tp).take 64 }

/-- An operation at server v needs the directory entry of a line: where the directory cache misses, one HBM read more, at the operation's charge (17
R509). Whether it misses is free. -/
def State.directory (s : State) (v line : Nat) (dye : BitVec 16) : State :=
  let s1 := { s with freeCtr := s.freeCtr + 1 }
  if Config.directoryMiss v line s.freeCtr then s1.charge (meterServer v) dye .hbm 1 else s1

/-- Where the walk of an event-log entry's address leads, without what it costs and finds: the I/O virtual address; none when it maps elsewhere. -/
def State.hostAddr (s : State) (dva : Nat) : Option Nat :=
  match s.walk (dva % 2 ^ 51) with
  | some (leaf, z) => if leaf.getLsbD 51 then some ((bitsOf leaf.toNat 51 12 * 4096 + dva % 2 ^ z) % 2 ^ 51) else none
  | none => none

/-- One read of a walk made at a node, charged to a dye (15 R461, R484, R538): request, line read at the home, response. -/
def State.chargeWalk (s : State) (n : Node) (dye : BitVec 16) (dpa : Nat) : State :=
  match s.hbmHome dpa with
  | some v =>
    ((((s.transport n (.server v) dye 0).directory v (dpa / 128) dye).charge (meterServer v) dye .hbm 1).transport (.server v) n dye 8)
  | none => s

/-- The walk of a log entry's address waits at a prepared line (15 R459, 02 R110). -/
def State.hostWaits (s : State) (dva : Nat) : Bool :=
  (s.walkSteps (dva % 2 ^ 51) 4 s.ptroot).any fun x => (s.lineAt (x.2.1 / 128)).prep.isSome

/-- The walk of a log entry's address charged to account 0 of its function's partition (15 R484). -/
def State.chargeLog (s : State) (fn dva : Nat) : State :=
  (s.walkSteps (dva % 2 ^ 51) 4 s.ptroot).foldl (fun st x => st.chargeWalk .host (BitVec.ofNat 16 (fn * 4096)) x.2.1) s

/-- The place of a function's next log entry. -/
def Fn.logPlace (f : Fn) : Nat := f.elbase.toNat + 32 * (f.elprod.toNat % 256)

/-- An entry written to its function's event log, as the walk of its place gives it (17 R512); a log that maps to no host memory drops it (log
entry 9). -/
def State.logPut (s : State) (fn : Nat) (bytes : List Byte) : State :=
  let f := s.fnAt fn
  let s1 := s.chargeLog fn f.logPlace
  match s.hostAddr f.logPlace with
  | some a => { s1 with hostMem := Mem.write s1.hostMem a bytes }.setFn fn { f with elprod := f.elprod + 1 }
  | none => s1.setFn fn { f with eldrop := f.eldrop + 1 }

/-- An event for one function's event log, or counted as dropped (17 R512): its entry waits while the walk of its place reads a prepared line, or older
ones wait. -/
def State.logTo (s : State) (fn : Nat) (bytes : List Byte) : State :=
  let f := s.fnAt fn
  if (f.elprod - f.elcons).toNat + f.logWait.length < 256 then
    if f.logWait.isEmpty && !s.hostWaits f.logPlace then s.logPut fn bytes
    else s.setFn fn { f with logWait := f.logWait ++ [bytes] }
  else s.setFn fn { f with eldrop := f.eldrop + 1 }

/-- The log entries of a function that wait, written while nothing holds them. -/
def State.logMore (s : State) (fn : Nat) : Nat → State
  | 0 => s
  | n + 1 =>
    let f := s.fnAt fn
    match f.logWait with
    | [] => s
    | b :: rest =>
      if s.hostWaits f.logPlace then s
      else ((s.setFn fn { f with logWait := rest }).logPut fn b).logMore fn n

/-- The log entries of every function that wait, written while nothing holds them. -/
def State.logsOn (s : State) : State := s.fns.foldl (fun st e => st.logMore e.1 e.2.logWait.length) s

/-- An event in the physical function's log and in the partition's (17 R512, R513). -/
def State.logEvent (s : State) (kind part unit addr data : Nat) : State :=
  let b := logBytes s.time kind part unit addr data
  let s1 := s.logTo 0 b
  if part = 0 ∨ 15 < part then s1 else s1.logTo part b

/-- A corrected error of a unit: entries of one unit are merged into at most one a millisecond (17 R512; log entry 65). -/
def State.corrected (s : State) (part unit addr : Nat) : State :=
  let ms := s.time.toNat / 1000000 + 1
  let x := Tbl.get (0, 0) s.corr unit
  if x.1 = ms then { s with corr := Tbl.put s.corr unit (ms, x.2 + 1) }
  else { s.logEvent 2 part unit addr (x.2 + 1) with corr := Tbl.put s.corr unit (ms, 0) }

/-- The unit number of a core in the event log (17 R513). -/
def logCore (g : Nat) : Nat := 32768 + g

/-- A version of a line marked poisoned, wherever it stands; every version where the directory entry has failed (17 R515). -/
def Line.poisonVer (l : Line) (x : Ver) (e : Ecc) : Line :=
  let f (y : Ver) : Ver := if y = x || e == .directory then { y with poison := true } else y
  { l with cur := f l.cur, pool := l.pool.map f, tent := l.tent.map fun e => (e.1, f e.2) }

/-- Nanoseconds of 24 hours. -/
def day : Nat := 86400000000000

/-- The row that holds a version of a line (17 R517). -/
def Line.rowOf (l : Line) (v line : Nat) (x : Ver) : BitVec 24 := if x = l.cur then Config.rowOf v line else Config.poolRow v line x.ts

/-- A corrected read of a version in HBM: it counts toward its row's threshold too (17 R515, R517), which only the last 24 h matter for. -/
def State.hbmCorrected (s : State) (part v dpa : Nat) (y : Ver) : State :=
  let s1 := s.corrected part v dpa
  let x := s1.serverAt v
  let row := ((s.lineAt (dpa / 128)).rowOf v (dpa / 128) y).toNat
  let now := s.time.toNat
  s1.setServer v { x with rows := Tbl.put x.rows row ((Tbl.get [] x.rows row).filter (fun t => decide (now < t + day)) ++ [now]) }

/-- A read of HBM that fails, and is made twice more (17 R515, R517): the version read is poisoned, UNCORRECTABLE logged, and the row due to be
spared. The reads are charged to the dye `pay`. -/
def State.hbmFailed (s : State) (part v dpa : Nat) (pay : BitVec 16) (x : Ver) (e : Ecc) : State :=
  let s0 := s.charge (meterServer v) pay .hbm 2
  let s1 := (s0.setLine (dpa / 128) ((s0.lineAt (dpa / 128)).poisonVer x e)).logEvent 3 part v dpa 0
  let y := s1.serverAt v
  s1.setServer v { y with lostRows := insertNat ((s.lineAt (dpa / 128)).rowOf v (dpa / 128) x).toNat y.lostRows }

/-- The words with a double-bit error that reads of a unit's memory have found, with those that a read finds now. -/
def State.newBad (s : State) (l : Loc) (n : Nat) (bad : List Nat) : List Nat :=
  (s.upsets.filter fun u => u.1.struck l n && eccFails u.2).foldl (fun b u => match u.1 with
    | .lm _ x => insertNat (x / 8) b | .cm _ x => insertNat (x / 8) b | .dm _ x => insertNat (x / 8) b | _ => b) bad

/-- What a read of `n` bytes of a version in HBM finds of which no event tells (17 R515): a corrected error is logged, one that cannot be corrected poisons
the version. -/
def State.hbmFound (s : State) (part v dpa n : Nat) (pay : BitVec 16) (x : Ver) : State :=
  let e := s.errAt (.hbm v dpa) n
  let s1 := { s with upsets := s.upsets.filter fun u => !u.1.struck (.hbm v dpa) n }
  let s2 := if eccFixes e then s1.hbmCorrected part v dpa x else s1
  if eccFails e then s2.hbmFailed part v dpa pay x e else s2

/-- What a read of [n bytes at l] finds of which no event tells (17 R515, R516): a corrected error is logged; one that cannot be corrected poisons the
version that a current-mode read returns, or marks its words bad until they are written. -/
def State.found (s : State) (part unit : Nat) (pay : BitVec 16) (l : Loc) (n : Nat) : State :=
  match s.errAt l n with
  | .clean => s
  | e =>
    let s1 := { s with upsets := s.upsets.filter fun u => !u.1.struck l n }
    match l with
    | .hbm v dpa => s.hbmFound part v dpa n pay ((s.lineAt (dpa / 128)).current (s.serverAt v).v)
    | .lm g off =>
      let s2 := if eccFixes e then s1.corrected part unit off else s1
      s2.setCore g { s2.coreAt g with lmBad := s.newBad l n (s2.coreAt g).lmBad }
    | .cm c off =>
      let s2 := if eccFixes e then s1.corrected part unit off else s1
      s2.setCluster c { s2.clusterAt c with cmBad := s.newBad l n (s2.clusterAt c).cmBad }
    | .dm d off =>
      let s2 := if eccFixes e then s1.corrected part unit off else s1
      s2.setDie d { s2.dieAt d with dmBad := s.newBad l n (s2.dieAt d).dmBad }
    | _ => s1

/-- What a read of [n bytes at off] of core g's LM by one of its own units finds of which no event tells (17 R516): its dye's partition is told. -/
def State.lmFound (s : State) (g : Nat) (dye : BitVec 16) (off n : Nat) : State :=
  s.found (dye.extractLsb' 12 4).toNat (logCore g) dye (.lm g off) n

/-- One read of a walk for partition p through cluster c, charged, with what it finds (15 R461, 17 R515). -/
def State.walkRead (s : State) (p c : Nat) (dye : BitVec 16) (dpa : Nat) : State :=
  let s1 := s.chargeWalk (.cluster c) dye dpa
  match s.hbmHome dpa with
  | some v => s1.found p v dye (.hbm v dpa) 8
  | none => s1

/-- The walk of a DVA through cluster c (15 R459, R461): the cache's start and what it holds afterwards, the reads charged to the access's dye. -/
def State.walkThrough (s : State) (p c : Nat) (dye : BitVec 16) (ea : Nat) : Option (Word × Nat) × State :=
  let start := (s.clusterAt c).walkStart s.ptroot ea
  let steps := s.walkSteps ea start.1 start.2
  let s1 := steps.foldl (fun st x => st.walkRead p c dye x.2.1) s
  let cl := (s1.clusterAt c).cachePointers ea steps
  match s.walkFrom ea start.1 start.2 with
  | none => (none, s1.setCluster c cl)
  | some (leaf, z) => (some (leaf, z), s1.setCluster c (cl.cacheLeaf ea leaf z))

/-- Translation of a valid address for partition p through cluster c, with the cache as the walk leaves it and the walk's
reads charged to the access's dye (15 R459-R463, 02 R87). -/
def State.translate (s : State) (p c : Nat) (dye : BitVec 16) (ea : Nat) : Except Cause Loc × State :=
  if isWindow ea then
    match windowLoc ea with
    | some l => (.ok l, s)
    | none => (.error .bounds, s)
  else match s.farAt p ea with
    | some f =>
      (.ok (.far (bitsOf f.cap.toNat 119 108) (bitsOf f.cap.toNat 123 120) (f.cap.extractLsb' 96 8)
        (bitsOf f.cap.toNat 51 0 + (ea - f.lbase))), s)
    | none =>
      match (s.clusterAt c).cachedLeaf ea with
      | some (leaf, z) => (s.leafLoc leaf z ea, s)
      | none =>
        match s.walkThrough p c dye ea with
        | (none, s1) => (.error .xlate, s1)
        | (some (leaf, z), s1) => (s1.leafLoc leaf z ea, s1)

/-- The translation of an address waits: its walk reads a line that a prepared transaction holds (15 R459, 02 R110). -/
def State.walkWaits (s : State) (p c ea : Nat) : Bool :=
  if isWindow ea || (s.farAt p ea).isSome || ((s.clusterAt c).cachedLeaf ea).isSome then false
  else
    let start := (s.clusterAt c).walkStart s.ptroot ea
    (s.walkSteps ea start.1 start.2).any fun x => (s.lineAt (x.2.1 / 128)).prep.isSome

/-- A process holds a snapshot, or waits for the reply that gives it (07 R271-R273, R275). -/
def State.holds (s : State) (p : Proc) (ts : Nat) : Bool :=
  p.state != .stopped && (p.snap.toNat == ts || (match p.wait with
    | .snap _ k => s.tss.reqs.any fun r => r.k == k && r.issued && r.ts == ts
    | _ => false))

/-- Cores on which a holder of a snapshot resides (07 R273). -/
def State.holderCores (s : State) (ts : Nat) : List Nat := (s.cores.filter fun e => e.2.procs.any fun q => s.holds q.2 ts).map (·.1)

/-- The partitions that hold a snapshot, each once (17 R514): those of its holders, and a harvest's. -/
def State.holderParts (s : State) (ts : Nat) : List Nat :=
  let held := s.cores.flatMap fun c => (c.2.procs.filter fun q => s.holds q.2 ts).map fun q => (q.2.dye.extractLsb' 12 4).toNat
  ((s.tss.snaps.filter fun (x : Snap) => x.ts == ts && !x.revoked && x.harvest).map (·.part) ++ held).foldl (fun l p => insertNat p l) []

/-- Server v reports a snapshot to the service, which revokes it: its holders' cores are notified and each partition's logs receive the event
(02 R117, 07 R273, 17 R514). The report and the notices are charged to dye 0 (02 R536, 15 R538; log entry 83). -/
def State.revoke (s : State) (v ts line : Nat) : State :=
  let parts := s.holderParts ts
  let s1 : State := { s with tss := { s.tss with snaps := s.tss.snaps.map fun (x : Snap) => if x.ts == ts then { x with revoked := true } else x } }
  let s2 := (s1.holderCores ts).foldl (fun st g => (st.transport .tss (.core g) 0 0).post .tss (.core g) (.notice ts))
    (s1.transport (.server v) .tss 0 0)
  let s3 := parts.foldl (fun st p => st.logEvent 1 p v ts (line * 128)) s2
  let srv := s3.serverAt v
  s3.setServer v { srv with revokes := min (srv.revokes + 1) 65535 }

/-- The timestamp of the version that follows place i of the line's order (02 R116): newest first, the in-place version is 0. -/
def Line.successorTs (l : Line) (i : Nat) : Nat := ((l.cur :: l.pool).getD i l.cur).ts

/-- A pool version Ablation may reclaim (02 R116): its successor lies at or below the firn line and the home's V. -/
def reclaimable (firn : Option Nat) (v succ : Nat) : Bool :=
  decide (succ ≤ v) && (match firn with | none => true | some f => decide (succ ≤ f))

/-- The line without pool version i (0 is the newest), the reclaim charged to its writer (02 R116). -/
def State.reclaim (s : State) (v line i : Nat) : State :=
  let l := s.lineAt line
  let dye := (l.pool.getD i Ver.zero).dye
  (s.setLine line { l with pool := l.pool.eraseIdx i }).charge (meterServer v) dye .hbm 1

/-- Candidates of 02 R117 as (line, pool place): the line's own, or every line of the server; versions held for V excepted. -/
def State.candidates (s : State) (v line : Nat) (lineFull : Bool) : List (Nat × Nat) :=
  let ls := if lineFull then [(line, s.lineAt line)] else s.linesOf v
  ls.flatMap fun e => ((List.range e.2.pool.length).filter fun i => (e.2.pool.getD i Ver.zero).holdV == 0).map fun i => (e.1, i)

/-- The live snapshots that can read a candidate (02 R117): at or above its timestamp and below its successor's. -/
def State.readers (s : State) (c : Nat × Nat) : List Nat :=
  let l := s.lineAt c.1
  let t := (l.pool.getD c.2 Ver.zero).ts
  (s.tss.live.map (·.ts)).filter fun x => decide (t ≤ x) && decide (x < l.successorTs c.2)

/-- The loop of 02 R117, with fuel, what the server asks the service charged to dye 0 (log entry 83): the state in which a slot is free (true), or in which none can be made (false). -/
def State.makeSlot (s : State) (v line : Nat) : Nat → State × Bool
  | 0 => (s, false)
  | fuel + 1 =>
    let lineFull := s.lineFull line
    let full := lineFull || decide (poolSize (s.serverAt v).poolCfg ≤ s.poolUsed v)
    if !full then (s, true)
    else
      let cs := s.candidates v line lineFull
      let srv := s.serverAt v
      match cs.find? fun c => reclaimable srv.firn srv.v ((s.lineAt c.1).successorTs c.2) with
      | some c => (s.reclaim v c.1 c.2).makeSlot v line fuel
      | none =>
        let s1 := (s.transport (.server v) .tss 0 0).transport .tss (.server v) 0 0
        match cs.find? fun c => (s.readers c).isEmpty with
        | some c => (s1.reclaim v c.1 c.2).makeSlot v line fuel
        | none =>
          match (cs.flatMap s.readers).min? with
          | some o => (s1.revoke v o line).makeSlot v line fuel
          | none => (s1, false)

/-- Fuel enough for the loop of 02 R117: every turn reclaims a version or revokes a snapshot. -/
def State.slotFuel (s : State) : Nat :=
  (s.hbm.map fun e => e.2.pool.length).sum + s.tss.snaps.length + 1

/-- The replaced in-place version kept in the pool or discarded (02 R112, R117). `old` is the version replaced. -/
def State.preserve (s : State) (v line : Nat) (old : Ver) : State :=
  let keep := match (s.serverAt v).newest with | some n => decide (old.ts ≤ n) | none => false
  if !keep then s
  else
    let (s1, ok) := s.makeSlot v line s.slotFuel
    if ok then
      let l := s1.lineAt line
      s1.setLine line { l with pool := old :: l.pool }
    else
      ((s1.tss.live.map (·.ts)).filter fun x => decide (old.ts ≤ x)).foldl (fun st x => st.revoke v x line) s1

/-- A plain write of bytes into an HBM line at its home (02 R101): the stamp is max(Eh, floor). The version holds its writer's dye; `pay` is the dye
charged, another one only for a write that came from another package (16 R494). -/
def State.hbmWrite (s : State) (v dpa : Nat) (bytes : List Byte) (cap : Bool) (dye : BitVec 16) (floor : Nat) (pay : BitVec 16 := dye) :
    State × Nat :=
  let line := dpa / 128
  let stamp := max (s.serverAt v).eh floor
  let old := (s.lineAt line).cur
  let s1 := (s.directory v line pay).preserve v line old
  let l := s1.lineAt line
  let nv := { old.write (dpa % 128) bytes cap with ts := stamp, dye := dye, plain := true, holdV := 0 }
  ((s1.setLine line { l with cur := nv }).charge (meterServer v) pay .hbm 1, stamp)

/-- What a tentative version is made from where its transaction's snapshot has been revoked and the line holds no version that it reads: open (02 R104,
R106; log entry 16). -/
def revokedBase (line : Nat) : Ver :=
  { Ver.zero with
    data := Mem.write [] 0 ((List.range 128).map (Config.revokedByte line))
    tags := Config.revokedTags line
    poison := Config.revokedPoison line }

/-- A tentative write (02 R106, R113): the owner's version is made, from the bytes the snapshot reads or from the in-place
version, or written again; false when no slot can be made (R107, R113, R117). -/
def State.tentWrite (s0 : State) (v dpa : Nat) (bytes : List Byte) (cap : Bool) (o : Owner) (snap : Option Nat) (dye : BitVec 16) :
    State × Bool :=
  let line := dpa / 128
  let s := s0.directory v line dye
  match (s.lineAt line).tentOf o with
  | some x =>
    let l := s.lineAt line
    let x' := { x.write (dpa % 128) bytes cap with dye := dye }
    ((s.setLine line { l with tent := l.tent.map fun e => if e.1 == o then (o, x') else e }).charge (meterServer v) dye .hbm 1,
      true)
  | none =>
    let (s1, ok) := s.makeSlot v line s.slotFuel
    if !ok then (s1, false)
    else
      let l := s1.lineAt line
      let base := match snap with
        | some t => (l.snapshot t).getD (revokedBase line)
        | none => l.cur
      let x := { base.write (dpa % 128) bytes cap with dye := dye, plain := false, holdV := 0 }
      ((s1.setLine line { l with tent := l.tent ++ [(o, x)] }).charge (meterServer v) dye .hbm 1, true)

/-- A commit or publish applied to one line (02 R110): the owner's version goes in place with timestamp c, the replaced one takes
its slot until V reaches c (R112), and the transaction's mark is cleared. -/
def State.applyLine (s : State) (line c : Nat) (o : Owner) : State :=
  let l := s.lineAt line
  match l.tentOf o with
  | none => s
  | some x =>
    let mine := match o, l.prep with | .tx t, some p => t == p | _, _ => false
    let l' := { l with
      cur := { x with ts := c, plain := false, holdV := 0 }
      pool := { l.cur with holdV := c } :: l.pool
      tent := l.tent.filter fun e => e.1 != o
      prep := if mine then none else l.prep }
    s.setLine line l'

/-- The server after it has applied commit or publish c (02 R99, R110); the operations held at its lines follow (`State.performHeld`). -/
def State.applyAt (s : State) (v c : Nat) (o : Owner) : State :=
  let s1 := (s.linesOf v).foldl (fun st e => st.applyLine e.1 c o) s
  let srv := s1.serverAt v
  s1.setServer v { srv with eh := max srv.eh c }

/-- An owner's tentative versions and prepared marks discarded at a server (02 R108, R114). -/
def State.discardAt (s : State) (v : Nat) (o : Owner) : State :=
  (s.linesOf v).foldl (fun st e =>
    let l := st.lineAt e.1
    let mine := match o, l.prep with | .tx t, some p => t == p | _, _ => false
    st.setLine e.1 { l with
      tent := l.tent.filter fun x => x.1 != o
      prep := if mine then none else l.prep }) s

/-- A server takes a value of V (02 R100): versions held for V at or below it are kept or discarded by 02 R112. -/
def State.takeV (s : State) (v x : Nat) : State :=
  let srv := s.serverAt v
  if x ≤ srv.v then s
  else
    let s1 := s.setServer v { srv with v := x }
    let keeps (y : Ver) : Bool := match srv.newest with | some n => decide (y.ts ≤ n) | none => false
    (s1.hbm.filter fun e => (e.2.pool.any fun y => y.holdV != 0) && s1.hbmHome (e.1 * 128) == some v).foldl (fun st e =>
      let l := st.lineAt e.1
      st.setLine e.1 { l with pool := (l.pool.filter fun y => y.holdV == 0 || decide (x < y.holdV) || keeps y).map fun y =>
        if y.holdV ≤ x then { y with holdV := 0 } else y }) s1

/-- A server takes the firn line and the newest live snapshot (02 R115). -/
def State.takeFirn (s : State) (v : Nat) : State :=
  let srv := s.serverAt v
  s.setServer v { srv with firn := s.tss.firn, newest := s.tss.newest }

end Sys2Proof.Machine
end

