-- ==== Sys2Proof/Machine/Ops.lean ====
section
/-! DEFINITION. The named operations over registers and memory, the scheduler's queues (01 R47, 14 R444), entering a line (05 R191,
R194), taking a trap as one shared operation (13 R415, R417) and the return from it (13 R416). -/

namespace Sys2Proof.Machine

/-- What a meaning answers. -/
abbrev Res := Host.Outcome State Fault Refusal

/-! Registers (01 R18, R19, 06 R217, R218). -/

/-- W(r): a dead register reads as zero (00 R11). -/
def Proc.reg (p : Proc) (r : Reg) : Word := if p.live.getLsbD r.toNat then p.regs[r.toNat]'(r.isLt) else 0

/-- The number of the pair that a register belongs to. -/
def pairOf (r : Reg) : Nat := r.toNat / 2

/-- A register write: the register becomes live and its pair's tag is clear (01 R19, 06 R218). -/
def Proc.setReg (p : Proc) (r : Reg) (v : Word) : Proc :=
  { p with
    regs := p.regs.set r.toNat v r.isLt
    live := p.live ||| (1#16 <<< r.toNat)
    tags := p.tags &&& ~~~(1#8 <<< pairOf r) }

/-- The odd half of a pair. -/
def oddOf (r : Reg) : Reg := r ||| 1

/-- The tag of a pair (01 R27). -/
def Proc.pairTag (p : Proc) (r : Reg) : Bool := p.tags.getLsbD (pairOf r)

/-- The 128 bits of a pair. -/
def Proc.pair (p : Proc) (r : Reg) : BitVec 128 := p.reg (oddOf r) ++ p.reg r

/-- A pair written with a tag. -/
def Proc.setPair (p : Proc) (r : Reg) (lo hi : Word) (tag : Bool) : Proc :=
  let q := (p.setReg r lo).setReg (oddOf r) hi
  if tag then { q with tags := q.tags ||| (1#8 <<< pairOf r) } else q

/-- The pairs that have a dead half under a live mask. -/
def deadPairs (live : BitVec 16) : BitVec 8 :=
  BitVec.ofNat 8 (((List.range 8).filter fun i => !(live.getLsbD (2 * i) && live.getLsbD (2 * i + 1))).foldl
    (fun a i => a + 2 ^ i) 0)

/-- The dead marking of CALL, CALLR and RET (01 R18, 06 R238). -/
def Proc.markDead (p : Proc) : Proc :=
  let l := p.live &&& ~~~(p.dmk &&& 0x3FFF)
  { p with live := l, tags := p.tags &&& ~~~(deadPairs l) }

/-- The registers that an outstanding operation will write (02 R85, 06 R219). -/
def Dest.mask : Dest → BitVec 16
  | .reg a _ _ => 1#16 <<< a.toNat
  | .pair a _ => (1#16 <<< a.toNat) ||| (1#16 <<< (oddOf a).toNat)
  | .tags a => 1#16 <<< a.toNat
  | .scrub a _ _ _ _ => (1#16 <<< a.toNat) ||| (1#16 <<< (oddOf a).toNat)
  | .desc _ => 0

/-- The registers that await data. -/
def Proc.awaited (p : Proc) : BitVec 16 := p.outs.foldl (fun m o => m ||| o.dest.mask) 0

/-- One of the registers awaits data, so an instruction that names it stalls (06 R219). -/
def Proc.awaits (p : Proc) (rs : List Reg) : Bool := rs.any fun r => p.awaited.getLsbD r.toNat

/-- A register that DMK names awaits data (06 R219). -/
def Proc.awaitsDead (p : Proc) : Bool := p.awaited &&& p.dmk &&& 0x3FFF != 0

/-- An acquire has not returned, so no later access may issue (03 R138). -/
def Proc.acquiring (p : Proc) : Bool := p.outs.any (·.acquire)

/-- Bytes of the segment (01 R15). -/
def Proc.segLen (p : Proc) : Nat := p.sl.toNat - p.sb.toNat

/-- The partition (00 R12). -/
def Proc.part (p : Proc) : Nat := (p.dye.extractLsb' 12 4).toNat

/-- The launch a process belongs to; id 0 for a steward process (13 R408). -/
def Proc.launch (p : Proc) : LRef := { fn := p.part, lid := p.lid.toNat }

/-- The process status word (13 R410). -/
def Proc.psw (p : Proc) : Word :=
  (0#32 ++ p.ten ++ 0#2 ++ p.flags ++ BitVec.ofBool p.ap ++ BitVec.ofBool p.sm ++ BitVec.ofBool p.h ++
    BitVec.ofBool p.stw ++ BitVec.ofBool p.mode ++ p.pceil ++ p.pri : BitVec 64)

/-- The STATE code of the PSB (13 R409). -/
def PState.code : PState → BitVec 3
  | .ready => 0 | .running => 1 | .chan => 2 | .timer => 3 | .barrier => 4 | .stopped => 7

/-- PSB word k (13 R409, R411). -/
def Proc.psb (p : Proc) (k : Nat) : Word :=
  match k with
  | 0 => p.pc.setWidth 64
  | 1 => p.psw
  | 2 => p.rseq ++ p.dye ++ p.live ++ p.dmk
  | 3 => p.snap
  | 4 => (0#23 ++ p.vl ++ p.vty ++ 0#3 ++ p.txid : BitVec 64)
  | 5 => (p.tcode ++ p.trh : BitVec 64)
  | 6 => p.tpc.setWidth 64
  | 7 => p.tinfo
  | 8 => (0#1 ++ p.aps ++ p.rot ++ p.tcause ++ p.tfpc : BitVec 64)
  | 9 => (0#24 ++ p.tvrc ++ p.vrc : BitVec 64)
  | 10 => p.vrpc.setWidth 64
  | 11 => p.cpn
  | 12 => p.floor
  | 13 => p.vseen
  | 14 => (p.xidx ++ BitVec.ofBool p.xv ++ 0#7 ++ p.repl : BitVec 64)
  | _ => (0#9 ++ BitVec.ofBool p.pkh ++ BitVec.ofBool p.pkt ++ p.state.code ++ p.stg ++ p.nextSlot ++ p.sl ++ p.sb : BitVec 64)

/-! Local memory (01 R14, R15, 02 R93, 14 R451). -/

/-- The first granules of the 16-byte granules that [a, a + n) meets. -/
def granules (a n : Nat) : List Nat := if n = 0 then [] else (List.range ((a + n - 1) / 16 - a / 16 + 1)).map (· + a / 16)

/-- A list of granule numbers without those that [a, a + n) meets (02 R93). -/
def clearTags (tags : List Nat) (a n : Nat) : List Nat :=
  if n = 0 then tags else tags.filter fun t => t < a / 16 || (a + n - 1) / 16 < t

/-- Bytes of a core's LM by physical offset. -/
def Core.lmRead (c : Core) (off n : Nat) : List Byte := Mem.read c.lm off n

/-- Words with a double-bit error, without those that a write covers whole (17 R516). -/
def endBad (bad : List Nat) (off n : Nat) : List Nat := bad.filter fun w => !covers off n (8 * w) 8

/-- A word with a double-bit error lies in [off, off + n). -/
def badHit (bad : List Nat) (off n : Nat) : Bool := bad.any fun w => overlaps (8 * w) 8 off n

/-- A write of bytes to LM: tags of the granules cleared, lines dirty, double-bit errors of whole words ended
(02 R93, 14 R451, 17 R516). -/
def Core.lmWrite (c : Core) (off : Nat) (bytes : List Byte) : Core :=
  { c with
    lm := Mem.write c.lm off bytes
    lmTags := clearTags c.lmTags off bytes.length
    lmDirty := markDirty c.lmDirty off bytes.length
    lmBad := endBad c.lmBad off bytes.length }

/-- A granule's tag. -/
def Core.lmTag (c : Core) (off : Nat) : Bool := c.lmTags.contains (off / 16)

/-- A capability granule written with its tag (02 R93, 06 R245). -/
def Core.lmWriteCap (c : Core) (off : Nat) (bytes : List Byte) (tag : Bool) : Core :=
  let d := c.lmWrite off bytes
  if tag then { d with lmTags := insertNat (off / 16) d.lmTags } else d

/-- Bytes of core g's LM. -/
def State.lmRead (s : State) (g off n : Nat) : List Byte := (s.coreAt g).lmRead off n

/-- A write to core g's LM. -/
def State.lmWrite (s : State) (g off : Nat) (bytes : List Byte) : State := s.setCore g ((s.coreAt g).lmWrite off bytes)

/-- Bytes at an unversioned home (02 R83); HBM answers its in-place version (a current-mode read uses `State.hbmRead`). -/
def State.locRead (s : State) (l : Loc) (n : Nat) : List Byte :=
  match l with
  | .lm g o => s.lmRead g o n
  | .cm c o => Mem.read (s.clusterAt c).cm o n
  | .dm d o => Mem.read (s.dieAt d).dm o n
  | .hbm v dpa => Mem.read ((s.lineAt (dpa / 128)).current (s.serverAt v).v).data (dpa % 128) n
  | .host a => Mem.read s.hostMem a n
  | .far _ _ _ _ => List.replicate n 0

/-- The tag of the granule at an unversioned home; host memory holds none (02 R94). -/
def State.locTag (s : State) (l : Loc) : Bool :=
  match l with
  | .lm g o => (s.coreAt g).lmTag o
  | .cm c o => (s.clusterAt c).cmTags.contains (o / 16)
  | .dm d o => (s.dieAt d).dmTags.contains (o / 16)
  | .hbm v dpa => ((s.lineAt (dpa / 128)).current (s.serverAt v).v).tags.getLsbD (dpa % 128 / 16)
  | _ => false

/-- A plain write at a home, with a capability's tag (02 R93, R101): HBM commits singly with the floor given. -/
def State.locWrite (s : State) (l : Loc) (bytes : List Byte) (cap : Bool) (dye : BitVec 16) (floor : Nat) : State × Option Nat :=
  match l with
  | .lm g o => (s.setCore g ((s.coreAt g).lmWriteCap o bytes cap), none)
  | .cm c o =>
    let x := s.clusterAt c
    let tg := clearTags x.cmTags o bytes.length
    (s.setCluster c { x with
      cm := Mem.write x.cm o bytes, cmTags := if cap then insertNat (o / 16) tg else tg, cmBad := endBad x.cmBad o bytes.length }, none)
  | .dm d o =>
    let x := s.dieAt d
    let tg := clearTags x.dmTags o bytes.length
    (s.setDie d {
      dm := Mem.write x.dm o bytes, dmTags := if cap then insertNat (o / 16) tg else tg, dmBad := endBad x.dmBad o bytes.length }, none)
  | .hbm v dpa =>
    let r := s.hbmWrite v dpa bytes cap dye floor
    (r.1, some r.2)
  | .host a => ({ s with hostMem := Mem.write s.hostMem a bytes }, none)
  | .far _ _ _ _ => (s, none)

/-- A double-bit error stands in the bytes of an access on the chip (17 R516). -/
def State.locBad (s : State) (l : Loc) (n : Nat) : Bool :=
  match l with
  | .lm g o => badHit (s.coreAt g).lmBad o n
  | .cm c o => badHit (s.clusterAt c).cmBad o n
  | .dm d o => badHit (s.dieAt d).dmBad o n
  | _ => false

/-- A double-bit error found in a 64-bit word of [n bytes at l] on the chip: it stays until the word is written (17 R516). Which word it is is free (log
entry 85). -/
def State.locSpoil (s : State) (l : Loc) (n : Nat) : State :=
  let w := l.off / 8 + Config.badWord s.freeCtr % ((l.off + n - 1) / 8 - l.off / 8 + 1)
  let s1 := { s with freeCtr := s.freeCtr + 1 }
  match l with
  | .lm g _ => let c := s1.coreAt g; s1.setCore g { c with lmBad := insertNat w c.lmBad }
  | .cm c _ => let x := s1.clusterAt c; s1.setCluster c { x with cmBad := insertNat w x.cmBad }
  | .dm d _ => let x := s1.dieAt d; s1.setDie d { x with dmBad := insertNat w x.dmBad }
  | _ => s

/-- The host access of a partition whose interface runs needs its IDE stream (16 R499). -/
def State.hostRefused (s : State) (part : Nat) : Bool := (s.fnAt part).tdi == .run && !(s.fnAt part).ide

/-- The node that a location's home is (02 R84). -/
def Loc.node : Loc → Node
  | .lm g _ => .core g
  | .cm c _ => .cluster c
  | .dm d _ => .dm d
  | .hbm v _ => .server v
  | .host _ => .host
  | .far _ _ _ _ => .egress

/-- The event of an access at an unversioned home (15 R481). -/
def Loc.ev : Loc → Ev
  | .cm _ _ => .cm | .dm _ _ => .dm | _ => .lm

/-- The access of `n` bytes at an on-chip home charged at its meter, one access for 64 bytes (15 R481). -/
def State.chargeAt (s : State) (l : Loc) (dye : BitVec 16) (n : Nat) : State := s.charge l.node.meter dye l.ev ((n + 63) / 64)

/-! Accesses of the device's own units (14 R447, R448, R452, 16 R493, R495, 17 R521). -/

/-- The number above every core's and package's that stands for a unit of the device as the origin of a request. -/
def deviceBase : Nat := 131072

/-- Dye of what the host interface unit does for a partition: its account 0 (16 R495). -/
def hostDye (fn : Nat) : BitVec 16 := BitVec.ofNat 16 (4096 * fn)

/-- The firmware and the launch unit at work for a partition. -/
def firmware (part cluster : Nat) (dye : BitVec 16) : Unit_ := { node := .host, kind := 0, part := part, cluster := cluster, dye := dye }

/-- A unit of the device as the origin of a request. -/
def Unit_.who (u : Unit_) : PRef := { g := deviceBase, slot := u.kind, gen := 0 }

/-- A request of a unit of the device. -/
def Unit_.req (u : Unit_) (id : Nat) (l : Loc) (op : GOp) : GReq :=
  { oid := id, who := u.who, dye := u.dye, part := u.part, loc := l, op := op, mode := .current 0, behind := [], behindEq := [] }

/-- A unit's write within one line, at its home (02 R101, R110, 16 R493): a prepared line holds it; one to another package goes to the egress
port. False where the far pointer refuses it, or host memory needs a stream that is not programmed (16 R499). -/
def State.devPut (s : State) (u : Unit_) (dva : Nat) (bytes : List Byte) (l : Loc) : State × Bool :=
  let s1 := s.transport u.node l.node u.dye bytes.length
  match l with
  | .far _ _ _ _ =>
    match s.farCheck u.part dva bytes.length 1 with
    | some _ => (s, false)
    | none =>
      let f := s1.fresh
      let s2 := f.2.post u.node .egress (.req (u.req f.1 l (.write bytes false none 0)))
      ({ s2 with devFar := s2.devFar ++ [{ oid := f.1, kind := u.kind, part := u.part, dva := dva, len := bytes.length, done := false, cause := none
                                           bytes := [], tags := 0, write := true }] }, true)
  | .hbm _ d =>
    let x := s1.lineAt (d / 128)
    if x.prep.isSome then
      let f := s1.fresh
      (f.2.setLine (d / 128) { x with held := x.held ++ [(u.req f.1 l (.write bytes false none 0), .clean)] }, true)
    else ((s1.locWrite l bytes false u.dye 0).1, true)
  | .host _ => if s.hostRefused u.part then (s, false) else ((s1.locWrite l bytes false u.dye 0).1, true)
  | l => ((s1.locWrite l bytes false u.dye 0).1.chargeAt l u.dye bytes.length, true)

/-- A unit's write within one line at a DVA: false where the DVA has no translation or its far pointer refuses it. -/
def State.devLine (s : State) (u : Unit_) (dva : Nat) (bytes : List Byte) : State × Bool :=
  match s.translate u.part u.cluster u.dye dva with
  | (.ok l, s1) => s1.devPut u dva bytes l
  | (.error _, s1) => (s1, false)

/-- A write of the unit is not yet performed: at another package, or at a prepared line. -/
def State.devOut (s : State) (u : Unit_) : Bool :=
  (s.devFar.any fun x => x.write && x.kind == u.kind && x.part == u.part) ||
    s.hbm.any fun e => e.2.held.any fun x => x.1.who == u.who && x.1.part == u.part

/-- A unit's write at a DVA cannot be made yet: its walk meets a prepared line (02 R110, 15 R459), or it is a host write or a harvest's and an older one
is not yet performed (03 R156, 17 R521). -/
def State.devStalls (s : State) (u : Unit_) (dva : Nat) : Bool :=
  s.walkWaits u.part u.cluster dva || ((u.kind == 1 || u.kind == 3) && s.devOut u)

/-- A unit's write at a DVA is kept until it can be made: now it cannot, or an older one of the unit is kept. -/
def State.devBehind (s : State) (u : Unit_) (dva : Nat) : Bool :=
  s.devStalls u dva || s.devHeld.any fun x => x.u.kind == u.kind && x.u.part == u.part

/-- A unit's write within one line, made or kept: false where the DVA has no translation or its far pointer refuses it. -/
def State.devLineOrKeep (s : State) (u : Unit_) (dva : Nat) (bytes : List Byte) : State × Bool :=
  if s.devBehind u dva then ({ s with devHeld := s.devHeld ++ [{ u := u, dva := dva, bytes := bytes }] }, true) else s.devLine u dva bytes

/-- A write by a unit of the device at a DVA of a partition, line by line and in order (03 R156): false where the DVA has no translation or its far
pointer refuses it; a line that cannot be written yet is kept until it can. -/
def State.devWrite (s : State) (u : Unit_) : Nat → Nat → List Byte → State × Bool
  | 0, _, bytes => (s, bytes.isEmpty)
  | fuel + 1, dva, bytes =>
    if bytes.isEmpty then (s, true)
    else
      let n := min bytes.length (128 - dva % 128)
      let w := s.devLineOrKeep u dva (bytes.take n)
      if w.2 then w.1.devWrite u fuel (dva + n) (bytes.drop n) else (w.1, false)

/-- A unit's posted write is refused: a host write is counted (16 R495), a harvest's is a fault of its destination (17 R521). -/
def State.devRefused (s : State) (part kind : Nat) : State :=
  let f := s.fnAt part
  if kind = 1 then s.setFn part { f with fldrop := f.fldrop + 1 }
  else if kind = 3 then s.setFn part { f with harvest := f.harvest.map fun h => { h with fault := true } }
  else s

/-- The first of some kept writes that can be made, with the others; `before` are those ahead of it. -/
def State.devNext (s : State) (before : List DevWrite) : List DevWrite → Option (DevWrite × List DevWrite)
  | [] => none
  | x :: rest =>
    if (before.any fun y => y.u.kind == x.u.kind && y.u.part == x.u.part) || s.devStalls x.u x.dva then s.devNext (before ++ [x]) rest
    else some (x, before ++ rest)

/-- The writes of the device's units that have waited, made in each unit's order until none can be made. -/
def State.devOn (s : State) : Nat → State
  | 0 => s
  | n + 1 =>
    match s.devNext [] s.devHeld with
    | none => s
    | some (x, rest) =>
      let w := { s with devHeld := rest }.devLine x.u x.dva x.bytes
      (if w.2 then w.1 else w.1.devRefused x.u.part x.u.kind).devOn n

/-- What a unit of the device has asked of another package for a piece of a read. -/
def State.devFarAt (s : State) (u : Unit_) (dva n : Nat) : Option DevFar :=
  s.devFar.find? fun x => !x.write && x.kind == u.kind && x.part == u.part && x.dva == dva && x.len == n

/-- A unit's read of a piece that waits (02 R110, 15 R459, 16 R493): at a prepared line, or for another package, which is asked once; none when
nothing is outstanding. -/
def State.devAskPiece (s : State) (u : Unit_) (x : Nat × Nat) (op : GOp := .read x.2) : Option State :=
  if s.walkWaits u.part u.cluster x.1 then some s
  else match (s.translate u.part u.cluster u.dye x.1).1 with
    | .ok (.hbm _ d) => if (s.lineAt (d / 128)).prep.isSome then some s else none
    | .ok (.far a b c d) =>
      match s.devFarAt u x.1 x.2, s.farCheck u.part x.1 x.2 0 with
      | some y, _ => if y.done then none else some s
      | none, some _ => none
      | none, none =>
        let f := s.fresh
        let s1 := (f.2.transport u.node .egress u.dye 0).post u.node .egress (.req (u.req f.1 (.far a b c d) op))
        some { s1 with devFar := s1.devFar ++ [{ oid := f.1, kind := u.kind, part := u.part, dva := x.1, len := x.2, done := false
                                                 cause := none, bytes := [], tags := 0 }] }
    | _ => none

/-- A unit's read of [dva, dva + n) waits: the state in which all of it has been asked; none when the read can be made. -/
def State.devAsk (s : State) (u : Unit_) (dva n : Nat) : Option State :=
  let ps := splitLines (n / 128 + 2) dva n
  if ps.any fun x => (s.devAskPiece u x).isSome then some (ps.foldl (fun st x => (st.devAskPiece u x).getD st) s) else none

/-- What a unit's read of one piece finds, in current mode: the cause where the DVA has no translation, another package or the
host's stream refuses it, or the line is poisoned. -/
def State.devPiece (s : State) (u : Unit_) (x : Nat × Nat) : Except Cause (List Byte) :=
  match (s.translate u.part u.cluster u.dye x.1).1 with
  | .error c => .error c
  | .ok (.far _ _ _ _) =>
    match s.devFarAt u x.1 x.2 with
    | some y => match y.cause with | some c => .error c | none => .ok y.bytes
    | none => .error ((s.farCheck u.part x.1 x.2 0).getD .rights)
  | .ok (.hbm v d) =>
    let y := (s.lineAt (d / 128)).current (s.serverAt v).v
    if y.poison || eccFails (s.errAt (.hbm v d) x.2) then .error .poison else .ok (Mem.read y.data (d % 128) x.2)
  | .ok (.host a) => if s.hostRefused u.part then .error .rights else .ok (s.locRead (.host a) x.2)
  | .ok l => if s.locBad l x.2 || eccFails (s.errAt l x.2) then .error .poison else .ok (s.locRead l x.2)

/-- The unit of the event log that an access on the chip is logged for (17 R513; log entry 65). -/
def Loc.logUnit (l : Loc) (g : Nat) : Nat := match l with | .lm h _ => logCore h | _ => logCore (g % 1024)

/-- A unit's read of one piece charged: the walk, the way there and back and the access (15 R461, R481, R538), with the errors that it finds (17 R515,
R516); what another package answered is used up. -/
def State.devPay (s : State) (u : Unit_) (x : Nat × Nat) : State :=
  let t := s.translate u.part u.cluster u.dye x.1
  let s1 := t.2
  match t.1 with
  | .error _ => s1
  | .ok (.far _ _ _ _) => { s1 with devFar := s1.devFar.filter fun y => y.write || !(y.kind == u.kind && y.part == u.part && y.dva == x.1 && y.len == x.2) }
  | .ok l =>
    let s2 := (s1.transport u.node l.node u.dye 0).transport l.node u.node u.dye x.2
    match l with
    | .hbm v d => ((s2.directory v (d / 128) u.dye).charge (meterServer v) u.dye .hbm 1).found u.part v u.dye l x.2
    | .host _ => s2
    | l => (s2.chargeAt l u.dye x.2).found u.part (l.logUnit 0) u.dye l x.2

/-- A unit's read of [dva, dva + n): the bytes, or the first piece's cause. -/
def State.devRead (s : State) (u : Unit_) (dva n : Nat) : Except Cause (List Byte) :=
  ((splitLines (n / 128 + 2) dva n).mapM fun x => s.devPiece u x).map List.flatten

/-- The state after a unit's read of [dva, dva + n). -/
def State.devPaid (s : State) (u : Unit_) (dva n : Nat) : State := (splitLines (n / 128 + 2) dva n).foldl (fun st x => st.devPay u x) s

/-- An answer to a unit of the device (16 R493): a read's is kept until the unit goes on; after a write's, those that waited for it are made. -/
def State.devAnswer (s : State) (r : GReq) (bytes : List Byte) (tags : BitVec 8) (cause : Option Cause) : State :=
  match r.op with
  | .write _ _ _ _ =>
    let s1 := { s with devFar := s.devFar.filter fun x => x.oid != r.oid }
    let s2 := if cause.isNone then s1 else s1.devRefused r.part r.who.slot
    s2.devOn s2.devHeld.length
  | _ => { s with devFar := s.devFar.map fun (x : DevFar) =>
      if x.oid = r.oid then { x with done := true, cause := cause, bytes := bytes, tags := tags } else x }

/-! The scheduler (01 R20, R21, R47). -/

/-- The ready queue of a priority, head first. -/
def Core.rq (c : Core) (p : BitVec 2) : List Nat :=
  match p.toNat with
  | 0 => c.rq0 | 1 => c.rq1 | 2 => c.rq2 | _ => c.rq3

/-- The ready queue of a priority replaced. -/
def Core.setRq (c : Core) (p : BitVec 2) (l : List Nat) : Core :=
  match p.toNat with
  | 0 => { c with rq0 := l } | 1 => { c with rq1 := l } | 2 => { c with rq2 := l } | _ => { c with rq3 := l }

/-- Slot k at the tail of its priority's queue, in state ready; the old tail's NEXT names it (14 R444). -/
def Core.enqueueTail (c : Core) (k : Nat) : Core :=
  let p := c.procAt k
  let q := c.rq p.pri
  let c1 := match q.getLast? with
    | some t => c.setProc t { c.procAt t with nextSlot := BitVec.ofNat 6 k }
    | none => c
  (c1.setProc k { c1.procAt k with state := .ready }).setRq p.pri (q ++ [k])

/-- Slot k at the head of its priority's queue, in state ready; its NEXT names the old head (14 R444). -/
def Core.enqueueHead (c : Core) (k : Nat) : Core :=
  let p := c.procAt k
  let q := c.rq p.pri
  let nx := match q with | h :: _ => BitVec.ofNat 6 h | [] => p.nextSlot
  (c.setProc k { p with state := .ready, nextSlot := nx }).setRq p.pri (k :: q)

/-- The slot before k in a queue. -/
def queuePred (k : Nat) : List Nat → Option Nat
  | a :: b :: t => if b = k then some a else queuePred k (b :: t)
  | _ => none

/-- The slot before k takes over the NEXT of k, so that the queue stays linked (14 R444). -/
def Core.relink (c : Core) (k : Nat) : Tbl Proc :=
  match [c.rq0, c.rq1, c.rq2, c.rq3].findSome? (queuePred k) with
  | some a => Tbl.put c.procs a { c.procAt a with nextSlot := (c.procAt k).nextSlot }
  | none => c.procs

/-- Slot k taken out of every queue. -/
def Core.dequeue (c : Core) (k : Nat) : Core :=
  { c with
    procs := c.relink k
    rq0 := c.rq0.filter (· != k), rq1 := c.rq1.filter (· != k), rq2 := c.rq2.filter (· != k), rq3 := c.rq3.filter (· != k) }

/-- An empty fetch buffer, as after a switch (05 R194). -/
def FetchBuf.empty : FetchBuf := { entered := false, cur := none, other := none, prefetch := none, fell := false }

/-- The core with no process running (its fetch buffer is emptied, 05 R194). -/
def Core.unrun (c : Core) : Core := { c with run := none, fb := .empty }

/-- The first process of a queue that no hold keeps out of scheduling: a held process keeps its place (01 R70). -/
def Core.firstReady (c : Core) (q : List Nat) : Option Nat := q.find? fun k => !(c.procAt k).pkh

/-- The head of the lowest-numbered queue that is not empty (01 R47). -/
def Core.nextReady (c : Core) : Option Nat := [c.rq0, c.rq1, c.rq2, c.rq3].findSome? c.firstReady

/-- The LM offset of slot k's frame: its PSB, and after it its workspace (01 R13). -/
def frameAt (k : Nat) : Nat := 0x5C000 + 256 * k

/-- One live register pair of slot k with its capability tag, in its workspace in LM (01 R13, R17): a dead half is not written. -/
def Core.writePair (c : Core) (k : Nat) (p : Proc) (i : Nat) : Core :=
  let a := frameAt k + 128 + 16 * i
  let half (c : Core) (n : Nat) : Core :=
    if p.live.getLsbD n then c.lmWrite (frameAt k + 128 + 8 * n) (wordBytes 8 (p.regs.toList.getD n 0)) else c
  let d := half (half c (2 * i)) (2 * i + 1)
  if p.tags.getLsbD i then { d with lmTags := insertNat (a / 16) d.lmTags } else d

/-- A register of slot k is written for it while it is not in the register cache: its line of the workspace in LM is dirty (01 R24, 14 R451). -/
def Core.land (c : Core) (k : Nat) (a : Reg) : Core := if c.cached.contains k then c else c.touch (frameAt k + 128 + 8 * a.toNat) 8

/-- The live registers of slot k and their tags written to its workspace in LM, as an eviction writes them back (01 R17, R19). -/
def Core.writeBack (c : Core) (k : Nat) : Core := (List.range 8).foldl (fun d i => d.writePair k (c.procAt k) i) c

/-- Slot k takes a slot of the register cache; the least recently running process that no longer fits is written back (01 R17). -/
def Core.cache (c : Core) (k : Nat) : Core :=
  let l := k :: c.cached.filter (· != k)
  { (l.drop 8).foldl Core.writeBack c with cached := l.take 8 }

/-- Dispatch (01 R47, R17): the head of the lowest non-empty queue runs, enters its line next, and takes a slot of the register
cache; a pre-empted process keeps its remaining slice (01 R49). -/
def Core.dispatch (c : Core) : Core :=
  match c.nextReady with
  | none => c.unrun
  | some k =>
    let c1 := (c.dequeue k).cache k
    let p := c1.procAt k
    { c1.setProc k { p with state := .running, slice := 0 } with
      run := some k
      fb := .empty
      sliceCnt := p.slice }

/-- Core g dispatches. -/
def State.dispatch (s : State) (g : Nat) : State := s.setCore g (s.coreAt g).dispatch

/-- Process k made ready at the tail (01 R21), its wait over; one that is trap-parked only remembers the state. A process blocked in ALT keeps
its deadline for the selection to come (08 R306). -/
def Core.makeReady (c : Core) (k : Nat) : Core :=
  let p := c.procAt k
  let dl := match p.blk with | .alt _ _ => p.deadline | _ => Config.never
  if p.pkt then c.setProc k { p with state := .ready, deadline := dl }
  else (c.setProc k { p with deadline := dl }).enqueueTail k

/-- The running process moved off its core into a blocked state, with what it waits for; the next dispatch follows
(01 R21, R25). A deadline is written to the core's list (14 R443). -/
def State.block (s : State) (g k : Nat) (p : Proc) (st : PState) (b : Blk) : State :=
  let c := s.coreAt g
  let d := if p.deadline = Config.never then c else c.touch (0x5BE00 + 8 * k) 8
  (s.setCore g ({ d with run := none }.setProc k { p with state := st, blk := b })).dispatch g

/-! Lines (05 R183-R194). -/

/-- The local address of a PC's line. -/
def lineOf (pc : Pc) : Nat := pc.toNat / 64 * 64

/-- The head index of a PC. -/
def headOf (pc : Pc) : Nat := pc.toNat % 64

/-- The next PC after head pc of a line of n heads (05 R189). -/
def nextPc (pc : Pc) (n : Nat) : Pc := if headOf pc < n then pc + 1 else BitVec.ofNat 52 (lineOf pc + 65)

/-- The target of a branch: d lines on from the PC's line, head h (05 R190). -/
def branchTarget (pc : Pc) (d : BitVec 46) (h : BitVec 6) : Pc := (pc.extractLsb' 6 46 + d) ++ h

/-- The half-words of the line that the running process executes: the buffer's current line when the PC lies in it, else LM's. -/
def Core.curLine (c : Core) (p : Proc) : List Half :=
  match c.fb.cur with
  | some (la, bytes) => if la = lineOf p.pc then halfWords bytes else halfWords (c.lmRead (p.sb.toNat + lineOf p.pc) 64)
  | none => halfWords (c.lmRead (p.sb.toNat + lineOf p.pc) 64)

/-- The head count of the line that the running process executes. -/
def Core.heads (c : Core) (p : Proc) : Nat := lineHeads (c.curLine p)

/-- The PC after the head that the running process executes (05 R189). -/
def State.next (s : State) (g : Nat) (p : Proc) : Pc := nextPc p.pc ((s.coreAt g).heads p)

/-- An instruction that does not transfer control completes: the process as changed goes to the next head, and the head is
charged (05 R189, 15 R481). -/
def State.retire (s : State) (g k : Nat) (p : Proc) : State :=
  let nx := s.next g p
  let c := (s.coreAt g).setProc k { p with pc := nx, lastPc := p.pc, wait := .none }
  let stays := lineOf nx == lineOf p.pc
  (s.setCore g { c with fb := { c.fb with entered := c.fb.entered && stays, fell := !stays } }).charge g p.dye .head 1

/-- A control transfer completes: the process as changed is to enter its target (05 R191, 06 R239). -/
def State.jump (s : State) (g k : Nat) (p : Proc) (t : Pc) : State :=
  let c := (s.coreAt g).setProc k { p with pc := t, lastPc := p.pc, wait := .none }
  (s.setCore g { c with fb := { c.fb with entered := false, fell := false } }).charge g p.dye .head 1

/-- The fetch buffer after entering a line (05 R194): a line held in the other slot comes from there. A prefetch still on its way gives place to the new
line's, or to none (DESIGN CHOICE, log entry 70). -/
def FetchBuf.enter (fb : FetchBuf) (la : Nat) (mem : List Byte) (pre : Option (Nat × Nat)) : FetchBuf :=
  match fb.cur with
  | some (l0, b0) =>
    if l0 = la then { fb with entered := true }
    else
      let bytes := match fb.other with | some (l1, b1) => if l1 = la then b1 else mem | none => mem
      { entered := true, cur := some (la, bytes), other := some (l0, b0), prefetch := pre }
  | none =>
    let bytes := match fb.other with | some (l1, b1) => if l1 = la then b1 else mem | none => mem
    { entered := true, cur := some (la, bytes), other := fb.other, prefetch := pre }

/-- A fall-through waits for the prefetch of the line it enters (05 R196). -/
def State.fetchWaits (s : State) (g : Nat) (p : Proc) : Bool :=
  let fb := (s.coreAt g).fb
  fb.fell && (match fb.prefetch with | some (la, _) => la == lineOf p.pc | none => false)

/-- The checks of entering a line, in their order (05 R191): the buffer as it stands after the entry, or the cause of the trap. -/
def State.enter (s : State) (g : Nat) (p : Proc) : Except Cause FetchBuf :=
  let c := s.coreAt g
  let la := lineOf p.pc
  if p.segLen < la + 64 then .error .segment
  else if !hasRights (s.windowRights p.part (.lm g (p.sb.toNat + la))) rightX then .error .rights
  else
    let pre := if la + 128 ≤ p.segLen then some (la + 64, s.cycle + 3) else none
    let fb := c.fb.enter la (c.lmRead (p.sb.toNat + la) 64) pre
    let hw := match fb.cur with | some (_, b) => halfWords b | none => []
    if !lineWf hw then .error .line
    else if headOf p.pc = 0 ∨ lineHeads hw < headOf p.pc then .error .line
    else .ok fb

/-! Traps (13 R413-R420). -/

/-- A process reference of core g, slot k (13 R410). -/
def State.pref (s : State) (g k : Nat) : PRef := { g := g, slot := k, gen := Tbl.get 0 (s.coreAt g).gens k }

/-- A process reference as a word (13 R410). -/
def PRef.word (r : PRef) : Word := (0#32 ++ r.gen ++ BitVec.ofNat 6 r.slot ++ BitVec.ofNat 10 r.g : BitVec 64)

/-- What a trap reports (13 R414, R418): cause, reported PC, faulting PC, INFO, TRAP's code, and the flags deferred and entry. -/
structure TrapInfo where
  cause : Cause
  rpc : Pc
  fpc : Pc
  info : Word
  code : BitVec 12
  deferred : Bool
  entry : Bool
  deriving DecidableEq, Repr

/-- The fault descriptor of a parked process (13 R418). -/
def State.descriptor (s : State) (g k : Nat) (p : Proc) (t : TrapInfo) : List Byte :=
  natBytes 8 (s.pref g k).word.toNat ++ natBytes 8 t.rpc.toNat ++ natBytes 8 t.fpc.toNat ++ natBytes 8 t.info.toNat ++
    natBytes 1 t.cause.code.toNat ++
    natBytes 1 ((if t.deferred then 1 else 0) + (if p.h then 2 else 0) + (if t.entry then 4 else 0)) ++
    natBytes 2 (if t.cause = .break_ then t.code.toNat else 0) ++ natBytes 4 p.netH.toNat ++ natBytes 8 s.time.toNat ++
    natBytes 2 p.dye.toNat ++ natBytes 14 0

/-- An MSI-X vector of a function is raised (16 R495). -/
def State.msix (s : State) (fn v : Nat) : State := { s with hostOut := s.hostOut ++ [.msix fn v] }

/-- A steward fault's entry written to the fault log while it has room, with vector 2; it waits when the log is full (13 R420,
16 R496). -/
def State.faultLog (s : State) (fn : Nat) (entry : List Byte) : State :=
  let f := s.fnAt fn
  if f.faultWait.isEmpty && decide ((f.flprod - f.flcons).toNat < 64) then
    let r := s.devWrite (firmware fn 0 (BitVec.ofNat 16 (fn * 4096))) 2 (f.flbase.toNat % 2 ^ 52 + 64 * (f.flprod.toNat % 64)) entry
    (r.1.setFn fn { r.1.fnAt fn with flprod := f.flprod + 1 }).msix fn 2
  else s.setFn fn { f with faultWait := f.faultWait ++ [entry] }

/-- A system trap (13 R417, R420): the process is parked at the reported PC, the state it leaves remembered (01 R20), and its descriptor goes to
the partition's fault channel, posted and carried at its dye's charge, a steward's to the fault log. -/
def State.systemTrap (s : State) (g k : Nat) (p : Proc) (t : TrapInfo) : State :=
  let bytes := s.descriptor g k p t
  let c := (s.coreAt g).unrun.setProc k { p with pkt := true, pc := t.rpc, wait := .none, blk := .none, deadline := Config.never }
  let s1 := s.setCore g c
  if p.stw then s1.faultLog p.part bytes
  else
    let part := s.partAt p.part
    let r := s1.fresh
    let h : Hdr := { hid := r.1, from_ := .trap (s.pref g k), part := p.part, dye := p.dye, gen := (s.epAt part.steward part.fcidx).gen,
                     ek := 1, len := 64, bytes := bytes, tag := false, failed := false, launch := { fn := 0, lid := 0 } }
    (r.2.carry g (.core part.steward) p.dye 64).post (.core g) (.core part.steward) (.header part.fcidx h)

/-- A trap may be delivered to the process's own handler (13 R415). -/
def Proc.handles (p : Proc) (c : Cause) : Bool := !p.h && p.ten.getLsbD c.code.toNat && p.trh != 0

/-- The process inside its handler (13 R415): reported and faulting PC, INFO, cause, code and restart count saved; H and MODE set. -/
def Proc.intoHandler (p : Proc) (t : TrapInfo) : Proc :=
  { p with
    tpc := t.rpc
    tfpc := t.fpc
    tinfo := t.info
    tcause := t.cause.code
    tcode := if t.cause = .break_ then t.code else p.tcode
    tvrc := if p.vrpc = t.rpc then p.vrc else 0
    vrc := 0
    h := true
    mode := true
    wait := .none
    blk := .none
    deadline := Config.never }

/-- TAKING A TRAP (13 R415, R417): delivery to TRH when the process handles the cause, else a system trap. -/
def State.deliver (s : State) (g k : Nat) (p : Proc) (t : TrapInfo) : State :=
  if p.handles t.cause then
    let q := p.intoHandler t
    let c := (s.coreAt g).setProc k { q with pc := p.trh, lastPc := t.fpc }
    s.setCore g { c with fb := { c.fb with entered := false, fell := false } }
  else s.systemTrap g k p t

/-- What a trap at the instruction at a PC reports (13 R414). -/
def TrapInfo.own (pc : Pc) (cause : Cause) (info : Word) : TrapInfo :=
  { cause := cause, rpc := pc, fpc := pc, info := info, code := 0, deferred := false, entry := false }

/-- A trap at issue: reported PC and faulting PC are the instruction's own (13 R414). Its head has issued and is charged (15 R481). -/
def State.trap (s : State) (g k : Nat) (p : Proc) (cause : Cause) (info : Word) : State :=
  (s.charge g p.dye .head 1).deliver g k p (.own p.pc cause info)

/-- The return from a trap handler (13 R416): the restart count comes back with the PC; H is cleared and MODE is STW. -/
def State.eret (s : State) (g k : Nat) (p : Proc) : State :=
  s.jump g k { p with vrc := p.tvrc, vrpc := p.tpc, tvrc := 0, h := false, mode := p.stw } p.tpc

/-- The oldest pending deferred fault in program order (07 R251). -/
def Proc.oldestFault (p : Proc) : Option PFault :=
  match (p.faults.map (·.seq)).min? with
  | none => none
  | some m => p.faults.find? fun f => f.seq == m

/-- The running process takes its oldest pending deferred fault, with PC at the next head (07 R251, 13 R414). -/
def State.takeDeferred (s : State) (g k : Nat) (p : Proc) (f : PFault) : State :=
  s.deliver g k { p with faults := p.faults.filter fun x => x.seq != f.seq }
    { cause := f.cause, rpc := p.pc, fpc := f.fpc, info := f.info, code := 0, deferred := true, entry := false }

/-- A meaning over the running process of the core whose turn it is. -/
def State.withProc (s : State) (f : Nat → Nat → Proc → Res) : Res :=
  match s.runSlot with
  | none => .fault .idleCore
  | some k => f s.cur k (s.procAt s.cur k)

/-- A wait at the head of an instruction: nothing changes, and the instruction executes afresh at its process's next turn
(06 R219, 10 R362). -/
def State.stall (s : State) : Res := .next s

end Sys2Proof.Machine
end

