-- ==== Sys2Proof/Machine/Flags.lean ====
section
/-! DEFINITION. Conditions and flags: the six relations (06 R226), the sticky floating-point flags of PSW (04 R176, R177), and integer
results (06 R225). -/

namespace Sys2Proof.Machine

/-- 1 when a condition holds, else 0 (06 R226). -/
def flag (b : Bool) : Word := if b then 1 else 0

/-- The relations EQ, NE, LT, GE, LTU, GEU by their codes (06 R226); other codes are ILLEGAL at decode. -/
def relation (f : Nat) (x y : Word) : Bool :=
  match f with
  | 0 => x == y
  | 1 => x != y
  | 2 => x.slt y
  | 3 => !x.slt y
  | 4 => x.ult y
  | _ => !x.ult y

/-- Flags ORed into PSW (04 R176, R177); no instruction but VFLG and KWR clears one. -/
def Proc.raise (p : Proc) (f : BitVec 5) : Proc := { p with flags := p.flags ||| f }

/-- Quotient of signed division (04 R160). -/
def divS (x y : Word) : Word := if y = 0 then -1 else BitVec.ofInt 64 (x.toInt.tdiv y.toInt)

/-- Remainder of signed division (04 R160). -/
def remS (x y : Word) : Word := if y = 0 then x else BitVec.ofInt 64 (x.toInt.tmod y.toInt)

/-- Quotient of unsigned division (04 R160). -/
def divU (x y : Word) : Word := if y = 0 then -1 else BitVec.ofNat 64 (x.toNat / y.toNat)

/-- Remainder of unsigned division (04 R160). -/
def remU (x y : Word) : Word := if y = 0 then x else BitVec.ofNat 64 (x.toNat % y.toNat)

/-- The amount of a shift: bits [5:0] (06 R225). -/
def amount (y : Word) : Nat := y.toNat % 64

/-- Zero bits above the highest set bit; 64 for zero (06 R225). -/
def clz64 (x : Word) : Nat := if x = 0 then 64 else 63 - x.toNat.log2

/-- Zero bits below the lowest set bit; 64 for zero (06 R225). -/
def ctz64 (x : Word) : Nat := ((List.range 64).find? fun i => x.getLsbD i).getD 64

/-- Set bits (06 R225). -/
def popc64 (x : Word) : Nat := ((List.range 64).filter fun i => x.getLsbD i).length

/-- The smaller or larger of two words (06 R225). -/
def pickS (less : Bool) (x y : Word) : Word := if (x.slt y) == less then x else y

/-- The smaller or larger of two words, unsigned. -/
def pickU (less : Bool) (x y : Word) : Word := if (x.ult y) == less then x else y

/-- The high half of an exact product (06 R225). -/
def highHalf (p : Int) : Word := BitVec.ofInt 64 (p / 2 ^ 64)

end Sys2Proof.Machine
end

