-- ==== Sys2Proof/Machine/Operands.lean ====
section
/-! DEFINITION. Operand forms: local and global effective addresses (06 R241, 07 R249), shape words (10 R355-R357), copy geometry
(10 R376-R379), and the range-overlap scoreboard that holds accesses to a core's LM (03 R133, 10 R373, R374). -/

namespace Sys2Proof.Machine

/-- The effective address W(b) + SignExtend(d20) (06 R241, 07 R249). -/
def Proc.ea (p : Proc) (b : Reg) (d : BitVec 20) : Word := p.reg b + disp d

/-- [ea, ea + n) lies in the process's segment, as an unsigned compare (06 R243). -/
def Proc.inSeg (p : Proc) (ea : Word) (n : Nat) : Bool := decide (ea.toNat + n ≤ p.segLen)

/-- The checks of a local access (06 R243): ALIGN, then SEGMENT. -/
def Proc.localCheck (p : Proc) (ea : Word) (n : Nat) : Option Cause :=
  if ea.toNat % n ≠ 0 then some .align else if p.inSeg ea n then none else some .segment

/-- The physical LM offset of a local address (01 R15). -/
def Proc.phys (p : Proc) (ea : Word) : Nat := p.sb.toNat + ea.toNat

/-- Bytes of an access of width code m (06 R241). -/
def widthOf (m : BitVec 2) : Nat := 2 ^ m.toNat

/-- A loaded value extended to 64 bits (06 R243). -/
def extend (n : Nat) (signed : Bool) (bs : List Byte) : Word :=
  if signed then signExt (8 * n) (bytesWord bs) else bytesWord bs

/-! Shape words (10 R355-R357). -/

/-- EC of a shape word. -/
def shapeEc (w : Word) : Nat := bitsOf w.toNat 3 0
/-- ROWS of a shape word. -/
def shapeRows (w : Word) : Nat := bitsOf w.toNat 8 4
/-- COLS of a shape word. -/
def shapeCols (w : Word) : Nat := bitsOf w.toNat 18 10

/-- An MX element code (04 R158). -/
def isMx (ec : Nat) : Bool := decide (13 ≤ ec ∧ ec ≤ 15)

/-- Largest COLS of an element code that a tile register accepts (10 R356). -/
def tileCols (ec : Nat) : Option Nat :=
  match ec with
  | 0 | 11 | 12 | 13 => some 192
  | 2 | 8 => some 48
  | 9 | 10 => some 96
  | 14 => some 256
  | 15 => some 384
  | _ => none

/-- A shape word is valid (10 R357). -/
def shapeValid (w : Word) : Bool :=
  match tileCols (shapeEc w) with
  | none => false
  | some n =>
    bitsOf w.toNat 63 19 == 0 && !w.getLsbD 9 && decide (1 ≤ shapeRows w ∧ shapeRows w ≤ 16) &&
      decide (1 ≤ shapeCols w ∧ shapeCols w ≤ n) && (!isMx (shapeEc w) || shapeCols w % 32 == 0)

/-- BPR of a shape (10 R356). -/
def shapeBpr (w : Word) : Nat := shapeCols w * codeBits (shapeEc w) / 8

/-- SPR of a shape (10 R356). -/
def shapeSpr (w : Word) : Nat := if isMx (shapeEc w) then shapeCols w / 32 else 0

/-- Local address of row r: base plus r strides, modulo 2^64 (10 R366). -/
def rowAt (ea st : Word) (r : Nat) : Word := ea + st * BitVec.ofNat 64 r

/-! Intervals. -/

/-- A byte interval: first byte, and the byte after the last. -/
abbrev Span := Int × Int

/-- The smallest interval that covers both; an empty one adds nothing. -/
def Span.join (a b : Span) : Span :=
  if a.2 ≤ a.1 then b else if b.2 ≤ b.1 then a else (min a.1 b.1, max a.2 b.2)

/-- Two intervals meet. -/
def Span.meets (a b : Span) : Bool := decide (a.1 < a.2) && decide (b.1 < b.2) && decide (a.1 < b.2) && decide (b.1 < a.2)

/-- The empty interval. -/
def Span.none : Span := (0, 0)

/-- `n` bytes from an address. -/
def Span.ofLen (a n : Nat) : Span := ((a : Int), (a : Int) + n)

/-- The extent of rows of `len` bytes at a base with a signed stride (10 R379). -/
def extent (base : Word) (stride : Word) (rows len : Nat) : Span :=
  let far := stride.toInt * ((rows : Int) - 1)
  ((base.toNat : Int) + min 0 far, (base.toNat : Int) + max 0 far + len)

/-! Copy geometry (10 R376-R382). -/

/-- Field k of a staging set. -/
def stg (x : Vector Word 13) (k : Nat) : Word := x.toList.getD k 0

/-- EN of CONV. -/
def cpEn (x : Vector Word 13) : Bool := (stg x 6).getLsbD 12
/-- SAT of CONV. -/
def cpSat (x : Vector Word 13) : Bool := (stg x 6).getLsbD 11
/-- RND of CONV. -/
def cpRnd (x : Vector Word 13) : Nat := bitsOf (stg x 6).toNat 10 8
/-- DEC of CONV. -/
def cpDec (x : Vector Word 13) : Nat := bitsOf (stg x 6).toNat 7 4
/-- SEC of CONV. -/
def cpSec (x : Vector Word 13) : Nat := bitsOf (stg x 6).toNat 3 0
/-- LEN. -/
def cpLen (x : Vector Word 13) : Nat := (stg x 2).toNat
/-- ROWS. -/
def cpRows (x : Vector Word 13) : Nat := (stg x 3).toNat
/-- Elements E of a row when CONV is enabled (10 R379). -/
def cpElems (x : Vector Word 13) : Nat := cpLen x * 8 / codeBits (cpSec x)
/-- Row length DL of the destination (10 R379). -/
def cpDl (x : Vector Word 13) : Nat := if cpEn x then cpElems x * codeBits (cpDec x) / 8 else cpLen x

/-- The source extent. -/
def cpSrc (x : Vector Word 13) : Span := extent (stg x 0) (stg x 4) (cpRows x) (cpLen x)
/-- The destination extent from D. -/
def cpDst (x : Vector Word 13) (d : Word) : Span := extent d (stg x 5) (cpRows x) (cpDl x)
/-- The scale extent at SCL (10 R382). -/
def cpScl (x : Vector Word 13) : Span := ((stg x 7).toNat, (stg x 7).toNat + (cpRows x * (cpElems x / 32) : Nat))
/-- The scale extent of an MX source, else empty. -/
def cpSclSrc (x : Vector Word 13) : Span := if cpEn x && isMx (cpSec x) then cpScl x else Span.none
/-- The scale extent of an MX destination, else empty. -/
def cpSclDst (x : Vector Word 13) : Span := if cpEn x && isMx (cpDec x) then cpScl x else Span.none

/-- Destination 128-byte lines of the copy, counted row by row and by ascending address within a row (10 R386). -/
def cpRowLines (x : Vector Word 13) (d : Word) (r : Nat) : Nat :=
  let a := (rowAt d (stg x 5) r).toNat
  if cpDl x = 0 then 0 else (a + cpDl x - 1) / 128 - a / 128 + 1

/-- Lines of rows 0 to n - 1. -/
def cpLines (x : Vector Word 13) (d : Word) : Nat → Nat
  | 0 => 0
  | n + 1 => cpLines x d n + cpRowLines x d n

/-- EBM is enabled. -/
def cpEbm (x : Vector Word 13) : Bool := (stg x 12).getLsbD 0
/-- Local address of the error bitmap. -/
def cpEbmAt (x : Vector Word 13) : Nat := bitsOf (stg x 12).toNat 51 3 * 8
/-- Bytes of the error bitmap. -/
def cpEbmLen (x : Vector Word 13) (d : Word) : Nat := (cpLines x d (cpRows x) + 7) / 8
/-- RING is enabled. -/
def cpRing (x : Vector Word 13) : Bool := (stg x 11).getLsbD 0
/-- Local address of the ring object. -/
def cpRingAt (x : Vector Word 13) : Nat := bitsOf (stg x 11).toNat 51 6 * 64

/-! The scoreboard (10 R373, R374). -/

/-- An entry: its place in the order, what it reads and what it writes, as physical offsets in the core's LM. -/
structure SbEntry where
  seq : Nat
  reads : Span
  writes : Span
  deriving DecidableEq, Repr

/-- The smallest interval of `rows` rows of `n` bytes in LM, from a segment base. -/
def rowSpan (base : Nat) (ea st : Nat) (rows n : Nat) : Span :=
  if n = 0 then Span.none
  else
    let s := extent (BitVec.ofNat 64 ea) (BitVec.ofNat 64 st) rows n
    (s.1 + base, s.2 + base)

/-- The entry of a queued tile command that accesses LM. -/
def TEntry.sbEntry (e : TEntry) : Option SbEntry :=
  match e.cmd with
  | .tld _ sh ea st sb mx =>
    let s := rowSpan e.sb ea st (shapeRows sh) (shapeBpr sh)
    let c := if mx then Span.ofLen (e.sb + sb) (shapeRows sh * shapeSpr sh) else Span.none
    some { seq := e.seq, reads := s.join c, writes := Span.none }
  | .tst _ sh ea st sb mx =>
    let s := rowSpan e.sb ea st (shapeRows sh) (shapeBpr sh)
    let c := if mx then Span.ofLen (e.sb + sb) (shapeRows sh * shapeSpr sh) else Span.none
    some { seq := e.seq, reads := Span.none, writes := s.join c }
  | .tldc _ ea st => some { seq := e.seq, reads := rowSpan e.sb ea st 16 48, writes := Span.none }
  | .tstc _ ea st => some { seq := e.seq, reads := Span.none, writes := rowSpan e.sb ea st 16 48 }
  | _ => none

/-- The part of a DVA interval that lies in core g's LM, as physical offsets. -/
def lmPart (g : Nat) (s : Span) : Span :=
  let b : Int := windowLm g 0
  let lo := max s.1 b
  let hi := min s.2 (b + Config.lmSize)
  if lo < hi then (lo - b, hi - b) else Span.none

/-- Aligned 16-byte pieces of [a, a + n). -/
def piecesOf (a n : Nat) : Nat := if n = 0 then 0 else (a + n - 1) / 16 - a / 16 + 1

/-- Scale bytes of a row (10 R382). -/
def cpScales (x : Vector Word 13) : Nat := cpElems x / 32

/-- Row r of a copy's source, as first byte and length: ROWS rows of data, then as many of an MX source's scales (10 R379, R382). -/
def cpSrcRow (x : Vector Word 13) (r : Nat) : Nat × Nat :=
  if r < cpRows x then ((rowAt (stg x 0) (stg x 4) r).toNat, cpLen x)
  else if cpEn x && isMx (cpSec x) then ((stg x 7).toNat + (r - cpRows x) * cpScales x, cpScales x) else (0, 0)

/-- Row r of a copy's destination, as first byte and length: ROWS rows of data, then as many of an MX destination's scales (10 R379, R382). -/
def cpDstRow (x : Vector Word 13) (d : Word) (r : Nat) : Nat × Nat :=
  if r < cpRows x then ((rowAt d (stg x 5) r).toNat, cpDl x)
  else if cpEn x && isMx (cpDec x) then ((stg x 7).toNat + (r - cpRows x) * cpScales x, cpScales x) else (0, 0)

/-- Pieces of the rows below n. -/
def piecesBelow (row : Nat → Nat × Nat) : Nat → Nat
  | 0 => 0
  | n + 1 => piecesBelow row n + piecesOf (row n).1 (row n).2

/-- Pieces of a copy's source. -/
def cpReads (x : Vector Word 13) : Nat := piecesBelow (cpSrcRow x) (2 * cpRows x)

/-- Pieces of a copy's destination (10 R380). -/
def cpUnits (x : Vector Word 13) (d : Word) : Nat := piecesBelow (cpDstRow x d) (2 * cpRows x)

/-- The entry of an incomplete copy of core g; its read interval is released when it has read all its bytes. -/
def Copy.sbEntry (c : Copy) (g : Nat) : SbEntry :=
  let d := BitVec.ofNat 64 c.dst
  let ebm := if cpEbm c.x then Span.ofLen (c.sbase + cpEbmAt c.x) (cpEbmLen c.x d) else Span.none
  { seq := c.seq
    reads := if cpReads c.x ≤ c.reads.length then Span.none else (lmPart g (cpSrc c.x)).join (lmPart g (cpSclSrc c.x))
    writes := ((lmPart g (cpDst c.x d)).join (lmPart g (cpSclDst c.x))).join ebm }

/-- A copy accesses LM of core g: its source, its destination, a scale array or its error bitmap is there (10 R373). -/
def Copy.usesLm (c : Copy) (g : Nat) : Bool :=
  let d := BitVec.ofNat 64 c.dst
  cpEbm c.x || [cpSrc c.x, cpSclSrc c.x, cpDst c.x d, cpSclDst c.x].any fun y => decide ((lmPart g y).1 < (lmPart g y).2)

/-- The entry of a vector instruction in progress (10 R373); it lasts while the process's PC stays at the instruction. -/
def Proc.vecEntry (p : Proc) : Option SbEntry :=
  match p.wait with
  | .vec pc id r w _ => if pc = p.pc then some { seq := id, reads := r, writes := w } else none
  | _ => none

/-- The scoreboard of core g: its queued tile commands, its vector instructions in progress, and its incomplete copies that access its LM. -/
def State.scoreboard (s : State) (g : Nat) : List SbEntry :=
  ((s.coreAt g).procs.filterMap fun e => e.2.vecEntry) ++
  ((s.coreAt g).tile.queue.filterMap TEntry.sbEntry) ++
    ((s.clusterAt (clusterOf g)).journal.filter fun c => c.who.g == g && c.finished.isNone && c.usesLm g).map fun c => c.sbEntry g

/-- Entries of the scoreboard (10 R373). -/
def sbSize : Nat := 24

/-- The bytes of core g's LM that an access at a window address bears on. -/
def windowSpan (g : Nat) (ea : Word) (n : Nat) : Span :=
  if !isWindow ea.toNat then Span.none
  else match windowLoc ea.toNat with
    | some (.lm h off) => if h = g then Span.ofLen off n else Span.none
    | _ => Span.none

/-- A store, reduction, load, atomic or source read that a process of core g has sent to its own core's LM by the window, before place `seq`, has not
been answered and meets an access that follows it (03 R133). -/
def State.windowHeld (s : State) (g seq : Nat) (reads writes : Span) : Bool :=
  (s.tprs.any fun t => t.who.g == g && decide (t.k < seq) && t.far.isNone && t.fault.isNone && t.data.isNone && (windowSpan g t.src t.len).meets writes) ||
  (s.coreAt g).procs.any fun e =>
    (e.2.stores.any fun x => decide (x.oid < seq) && x.kind == .direct && ((windowSpan g x.ea x.len).meets reads || (windowSpan g x.ea x.len).meets writes)) ||
      e.2.outs.any fun x => decide (x.oid < seq) && ((windowSpan g x.ea x.len).meets reads || (windowSpan g x.ea x.len).meets writes)

/-- An access that reads and writes the given intervals of core g's LM is held by scoreboard entries earlier than place `seq` (10 R374). -/
def State.sbHeld (s : State) (g seq : Nat) (reads writes : Span) : Bool :=
  (s.scoreboard g).any fun e => decide (e.seq < seq) && (e.writes.meets reads || e.writes.meets writes || e.reads.meets writes)

/-- An access to core g's LM is held by the scoreboard, or by window accesses to its bytes that are not yet answered (03 R133). -/
def State.lmHeld (s : State) (g seq : Nat) (reads writes : Span) : Bool := s.sbHeld g seq reads writes || s.windowHeld g seq reads writes

/-- A local access of the running process is held by the scoreboard: every entry is earlier. -/
def State.localHeld (s : State) (g : Nat) (reads writes : Span) : Bool := s.lmHeld g s.nextId reads writes

/-- Every scoreboard entry is in use (10 R373). -/
def State.sbFull (s : State) (g : Nat) : Bool := decide (sbSize ≤ (s.scoreboard g).length)

/-! The shapes of scalar instructions. -/

/-- An instruction that names registers `rs` and only changes its process (06 R219, R220): it waits for data its registers await,
takes its effect and goes to the next head. -/
def State.scalar (s : State) (rs : List Reg) (f : Proc → Proc) : Res :=
  s.withProc fun g k p => if p.awaits rs then s.stall else .next (s.retire g k (f p))

end Sys2Proof.Machine
end

