-- ==== Sys2Proof/Machine/Access.lean ====
section
/-! DEFINITION. Issuing global accesses (07 R249-R258): the write queues and forwarding (02 R89-R92), split-phase requests (02 R85), the
steps of a release or fence (03 R139-R143), holds on snapshots (07 R272), and the timestamp service's own bookkeeping (02 R98-R115). -/

namespace Sys2Proof.Machine

/-- [n bytes at a] meets [m bytes at b], in one home's bytes; DPAs are compared (15 R462). -/
def Loc.meets (a : Loc) (n : Nat) (b : Loc) (m : Nat) : Bool :=
  match a, b with
  | .lm g x, .lm h y => g == h && overlaps x n y m
  | .cm c x, .cm d y => c == d && overlaps x n y m
  | .dm c x, .dm d y => c == d && overlaps x n y m
  | .hbm _ x, .hbm _ y => overlaps x n y m
  | .host x, .host y => overlaps x n y m
  | .far p q _ x, .far p' q' _ y => p == p' && q == q' && overlaps x n y m
  | _, _ => false

/-- An entry of a queue covers every byte of [n bytes at l]. -/
def WqE.covers (e : WqE) (l : Loc) (n : Nat) : Bool :=
  e.loc.meets e.bytes.length l n && Sys2Proof.Machine.covers e.loc.off e.bytes.length l.off n

/-- An entry meets [n bytes at l]. -/
def WqE.meets (e : WqE) (l : Loc) (n : Nat) : Bool := e.loc.meets e.bytes.length l n

/-- A home that writes reach through the cluster write queue (02 R89, R92). -/
def Loc.isQueued : Loc → Bool
  | .hbm _ _ => true | .host _ => true | .far _ _ _ _ => true | _ => false

/-- A location moved within its space. -/
def Loc.at_ (l : Loc) (o : Nat) : Loc :=
  match l with
  | .lm g _ => .lm g o | .cm c _ => .cm c o | .dm d _ => .dm d o | .hbm v _ => .hbm v o | .host _ => .host o
  | .far p q e _ => .far p q e o

/-- Two locations have one home (02 R84); which lines of another package share one is free (03 R135, log entry 64). -/
def Loc.sameHome (a b : Loc) : Bool :=
  match a, b with
  | .far p x _ d, .far q y _ e => sameFarHome p x d q y e
  | .far _ _ _ _, _ => false
  | _, .far _ _ _ _ => false
  | _, _ => a.node == b.node

/-- A memory server's home. -/
def Loc.isHbm : Loc → Bool
  | .hbm _ _ => true | _ => false

/-- A home of another package. -/
def Loc.isFar : Loc → Bool
  | .far _ _ _ _ => true | _ => false

/-- The queue entries that a read or atomic of process `who` goes behind (02 R91): those it overlaps, and those of the same process and
home. -/
def behindOf (q : List WqE) (who : PRef) (l : Loc) (n : Nat) : List Nat :=
  (q.filter fun e => e.meets l n || (e.who == who && e.loc.sameHome l)).map (·.seq)

/-- The bytes a read takes by forwarding (02 R91, R92, 03 R144): from the youngest overlapping entry, when it covers the read and carries
no version tag and no capability, and is no copy's (02 R537). -/
def forwardFrom (q : List WqE) (l : Loc) (n : Nat) : Option (Option (List Byte)) :=
  match (q.filter fun e => e.meets l n).getLast? with
  | none => none
  | some e =>
    if e.covers l n && e.own.isNone && !e.isCap && e.bad.isEmpty then some (some ((e.bytes.drop (l.off - e.loc.off)).take n)) else some none

/-- Forwarding from the cluster's queue, then for another package's memory from the egress queue (02 R91, R92). -/
def State.forwardOf (s : State) (c : Nat) (l : Loc) (n : Nat) : Option (List Byte) :=
  match forwardFrom (s.clusterAt c).wq l n with
  | some r => r
  | none => if l.isFar then (forwardFrom s.egress l n).getD none else none

/-- How the process's reads choose their version (07 R257). -/
def Proc.readMode (p : Proc) : ReadMode :=
  if p.txid != 0 then .tx p.txid.toNat p.snap.toNat
  else if p.sm then .snapshot p.snap.toNat
  else .current p.vseen.toNat

/-- The revocation of the process's snapshot is known at core g (07 R273). -/
def State.noticed (s : State) (g : Nat) (p : Proc) : Bool :=
  (p.sm || p.txid != 0) && (s.coreAt g).notices.contains p.snap.toNat

/-- Split-phase operations a process may have outstanding (07 R252). -/
def maxOuts : Nat := 16

/-- Unacknowledged stores to LM, CM and DM a process may have (07 R252). -/
def maxStores : Nat := 32

/-- Entries of its cluster's write queue that core g uses; reductions on their way to a memory server or the host count (07 R252,
log entry 18). -/
def State.queueUse (s : State) (g : Nat) : Nat :=
  ((s.clusterAt (clusterOf g)).wq.filter fun e => e.who.g == g).length +
    (s.net.filter fun m => match m.body with
      | .req r => r.who.g == g && r.loc.isQueued && (match r.op with | .atomic _ _ _ _ _ _ ret => !ret | _ => false)
      | _ => false).length

/-- A shared buffer has a place for one more item of a partition (15 R478): its reserve, else the shared pool that the uses beyond the reserves
leave. -/
def bufferRoom (reserve shared : Nat) (used : List Nat) (part : Nat) : Bool :=
  let use (p : Nat) : Nat := (used.filter (· == p)).length
  decide (use part < reserve) || decide (((List.range 16).map fun p => use p - reserve).sum < shared)

/-- The egress queue takes another write of a partition (02 R92, 15 R478): 256 entries, 8 for each partition, 128 shared. -/
def State.egressRoom (s : State) (part : Nat) : Bool := bufferRoom 8 128 (s.egress.map (·.part)) part

/-- Core g may put a write into its cluster's queue (02 R89): 4 entries are its own, 64 are shared. -/
def State.queueRoom (s : State) (g : Nat) : Bool :=
  decide (s.queueUse g < 4) ||
    decide (((List.range 16).map fun i => s.queueUse (g / 16 * 16 + i) - 4).sum < 64)

/-- What an operation's order is judged by (02 R91): LDTAG reads all of its 128-byte block (07 R288). -/
def GOp.span (op : GOp) (l : Loc) (n : Nat) : Loc × Nat :=
  match op with
  | .readTags => (l.at_ (l.off / 128 * 128), 128)
  | _ => (l, n)

/-- A request of process p at core g, slot k. -/
def State.request (s : State) (g k : Nat) (p : Proc) (id : Nat) (l : Loc) (n : Nat) (op : GOp) : GReq :=
  let who := s.pref g k
  let w := op.span l n
  { oid := id, who := who, dye := p.dye, part := p.part, loc := l, op := op, mode := p.readMode
    behind := if l.isQueued then behindOf (s.clusterAt (clusterOf g)).wq who w.1 w.2 else []
    behindEq := if l.isFar then behindOf s.egress who w.1 w.2 else [] }

/-- An access of core g's process to its core's own LM by the window waits for the engine operations on those bytes (03 R133, 10 R374). -/
def State.ownLmHeld (s : State) (g n : Nat) (l : Loc) (writes : Bool) : Bool :=
  match l with
  | .lm h off => h == g && s.sbHeld g s.nextId (Span.ofLen off n) (if writes then Span.ofLen off n else Span.none)
  | _ => false

/-- The operation's response brings floating-point flags (07 R264). -/
def GOp.flags : GOp → Bool
  | .atomic .fadd _ _ _ _ _ _ => true
  | _ => false

/-- The location that a load reads; none for an atomic or a scrub. -/
def GOp.loads (op : GOp) (l : Loc) : Option Loc :=
  match op with
  | .read _ => some l
  | .readCap _ => some l
  | .readTags => some l
  | _ => none

/-- A read that would be forwarded waits at issue while an older load of its process to the same bytes has not returned, so that the two never return writes
in the opposite of location order (03 R136; DEDUCED, log entry 84). -/
def State.forwardWaits (s : State) (g : Nat) (p : Proc) (ea n : Nat) : Bool :=
  match (s.translate p.part (clusterOf g) p.dye ea).1 with
  | .ok l =>
    l.isQueued && (s.forwardOf (clusterOf g) l n).isSome &&
      p.outs.any fun o => match o.loc with | some x => x.meets o.len l n | none => false
  | .error _ => false

/-- A read, atomic or scrub leaves its core (07 R257, R262): it is outstanding; a failed translation or egress check answers with an
error response (07 R250); a forwarded read answers from the queue and raises neither floor nor VSEEN. The instruction completes. -/
def State.sendSplit (s : State) (g k : Nat) (p : Proc) (ea : Word) (n right : Nat) (op : GOp) (dest : Dest) (acq fwd : Bool) : State :=
  let c := clusterOf g
  let f := s.fresh
  let t := f.2.translate p.part c p.dye ea.toNat
  let out : Out := { oid := f.1, seq := p.seq, pc := p.pc, ea := ea, len := n, dest := dest, acquire := acq
                     loc := (match t.1 with | .ok l => op.loads l | .error _ => none), flags := op.flags }
  let s1 := t.2.retire g k { p with outs := p.outs ++ [out], seq := p.seq + 1 }
  match t.1 with
  | .error e => s1.post (.cluster c) (.core g) (.err (s1.request g k p f.1 (.lm g 0) n op) e)
  | .ok l =>
    let r := s1.request g k p f.1 l n op
    match (if l.isFar then s.farCheck p.part ea.toNat n right else none) with
    | some e => s1.post .egress (.core g) (.err r e)
    | none =>
      match (if fwd && l.isQueued then s1.forwardOf c l n else none) with
      | some bytes => s1.post (.cluster c) (.core g) (.resp r bytes 0 0 0 0 false false)
      | none => (s1.carry g l.node p.dye 0).post (.core g) l.node (.req r)

/-- A write or atomic writes its location; a read does not. -/
def GOp.writes : GOp → Bool
  | .write _ _ _ _ => true | .atomic _ _ _ _ _ _ _ => true | _ => false

/-- An access waits at issue: its walk meets a prepared line (02 R110, 15 R459), or an engine operation on its own core's LM comes first (03
R133). -/
def State.issueWaits (s : State) (g : Nat) (p : Proc) (ea n : Nat) (writes : Bool) : Bool :=
  s.walkWaits p.part (clusterOf g) ea || (match windowLoc ea with | some l => isWindow ea && s.ownLmHeld g n l writes | none => false)

/-- A read, atomic or scrub is issued when nothing holds it back. -/
def State.issueSplit (s : State) (g k : Nat) (p : Proc) (ea : Word) (n right : Nat) (op : GOp) (dest : Dest) (acq fwd : Bool) : State :=
  if s.issueWaits g p ea.toNat n op.writes || (fwd && s.forwardWaits g p ea.toNat n) then s else s.sendSplit g k p ea n right op dest acq fwd

/-- A store or reduction is unacknowledged until its home answers (03 R139, 07 R252). -/
def Proc.addStore (p : Proc) (id : Nat) (ea : Word) (n : Nat) (kind : StoreKind) : Proc :=
  { p with stores := p.stores ++ [{ oid := id, seq := p.seq, pc := p.pc, ea := ea, len := n, kind := kind }], seq := p.seq + 1 }

/-- The transaction of the process records a home that it writes (02 R107). -/
def Tx.wrote (t : Tx) (v : Nat) : Tx := { t with homes := insertNat v t.homes }

/-- The service with transaction x changed. -/
def Tss.mapTx (t : Tss) (x : Nat) (f : Tx → Tx) : Tss :=
  { t with txs := t.txs.map fun e => if e.1 = x then (e.1, f e.2) else e }

/-- The service's record of transaction x changed. -/
def State.mapTx (s : State) (x : Nat) (f : Tx → Tx) : State := { s with tss := s.tss.mapTx x f }

/-- A store leaves its core (07 R258, 02 R85, R89): straight over the mesh to LM, CM or DM; through the cluster write queue to a memory
server, the host or another package; a tentative write to another package is not made and marks the transaction (02 R107). -/
def State.issueStore (s : State) (g k : Nat) (p : Proc) (ea : Word) (bytes : List Byte) (cap isCap : Bool) : Res :=
  let c := clusterOf g
  let n := bytes.length
  let t := s.translate p.part c p.dye ea.toNat
  if s.issueWaits g p ea.toNat n true then s.stall
  else match t.1 with
  | .error e =>
    let f := t.2.fresh
    let s1 := f.2.retire g k (p.addStore f.1 ea n .direct)
    .next (s1.post (.cluster c) (.core g) (.err (s1.request g k p f.1 (.lm g 0) n (.write bytes cap none 0)) e))
  | .ok l =>
    if !l.isQueued then
      if maxStores ≤ (p.stores.filter fun x => x.kind == .direct).length then s.stall
      else
        let f := t.2.fresh
        let s1 := f.2.retire g k (p.addStore f.1 ea n .direct)
        let r := s1.request g k p f.1 l n (.write bytes cap none p.floor.toNat)
        .next ((s1.carry g l.node p.dye n).post (.core g) l.node (.req r))
    else if isCap && (match l with | .host _ => true | _ => false) then .next (t.2.trap g k p .rights ea)
    else if l.isFar && p.txid != 0 then
      .next ((t.2.retire g k { p with seq := p.seq + 1 }).mapTx p.txid.toNat fun x => { x with span := true })
    else if !s.queueRoom g then s.stall
    else
      let f := t.2.fresh
      let s1 := f.2.retire g k (p.addStore f.1 ea n (if l.isFar then .far else .queued))
      match (if l.isFar then s.farCheck p.part ea.toNat n 1 else none) with
      | some e => .next (s1.post .egress (.core g) (.err (s1.request g k p f.1 l n (.write bytes cap none 0)) e))
      | none =>
        let cl := s1.clusterAt c
        let own : Option Owner := if l.isHbm && p.txid != 0 then some (.tx p.txid.toNat) else none
        let e : WqE := { seq := cl.wqSeq, oid := f.1, who := s1.pref g k, dye := p.dye, part := p.part, ea := ea.toNat, loc := l
                         bytes := bytes, own := own, cap := cap, isCap := isCap, floor := p.floor.toNat }
        let s2 := s1.setCluster c { cl with wq := cl.wq ++ [e], wqSeq := cl.wqSeq + 1 }
        match own, l with
        | some _, .hbm v _ => .next ((s2.carry g l.node p.dye n).mapTx p.txid.toNat fun x => x.wrote v)
        | _, _ => .next (s2.carry g l.node p.dye n)

/-! The source of a third-party read (07 R282). -/

/-- A third-party read's source address as its lines see it: in an X form by the far pointer's base (07 R281, R282). -/
def Tpr.base (t : Tpr) : Nat := match t.far with | some f => bitsOf f.toNat 51 0 + t.src.toNat | none => t.src.toNat

/-- Parts of a source: pieces of 128-byte lines (07 R282). -/
def Tpr.count (t : Tpr) : Nat := (t.base + t.len - 1) / 128 - t.base / 128 + 1

/-- First byte and length of part u; in an X form the first byte is an offset of the far pointer. -/
def Tpr.part_ (t : Tpr) (u : Nat) : Nat × Nat :=
  let a := if u = 0 then t.base else (t.base / 128 + u) * 128
  let b := min ((t.base / 128 + u + 1) * 128) (t.base + t.len)
  (t.src.toNat + (a - t.base), b - a)

/-- The location of a part of a source (02 R122, 16 R493, R494): by translation, or by the far pointer of an X form. -/
def State.tprLoc (s : State) (t : Tpr) (a n : Nat) : Except Cause Loc × State :=
  match t.far with
  | none =>
    let r := s.translate t.part (clusterOf t.who.g) t.dye a
    match r.1 with
    | .ok (.far p q e d) =>
      match s.farCheck t.part a n 0 with
      | some c => (.error c, r.2)
      | none => (.ok (.far p q e d), r.2)
    | x => (x, r.2)
  | some f =>
    if !f.getLsbD 107 then (.error .rights, s)
    else if bitsOf f.toNat 95 52 < a + n - 1 then (.error .bounds, s)
    else (.ok (.far (bitsOf f.toNat 119 108) (bitsOf f.toNat 123 120) (f.extractLsb' 96 8) (bitsOf f.toNat 51 0 + a)), s)

/-- Part u of a source is still to be read. -/
def Tpr.wants (t : Tpr) (u : Nat) : Bool :=
  t.fault.isNone && t.data.isNone && !(t.parts.any fun x => x.1 == u) && !t.asked.any fun x => x.2 == u

/-- A source read that process `who` issued before request `oid` has still to be made at the home of `l` (02 R124, 03 R134). -/
def State.olderSource (s : State) (who : PRef) (oid : Nat) (l : Loc) : Bool :=
  s.tprs.any fun t => t.who == who && decide (t.k < oid) && (List.range t.count).any fun u =>
    t.wants u && (match (s.tprLoc t (t.part_ u).1 (t.part_ u).2).1 with | .ok x => x.sameHome l | .error _ => false)

/-- A request that process `who` issued before place `oid` to the home of `l` is still on its way (03 R134). -/
def State.olderAt (s : State) (who : PRef) (oid : Nat) (l : Loc) : Bool :=
  s.net.any fun m => match m.body with
    | .req r => r.who == who && r.loc.sameHome l && decide (r.oid < oid)
    | _ => false

/-! Releases and fences (03 R139-R143). -/

/-- Scope codes (03 R131). -/
def scopePkg : Nat := 1

/-- The bytes that a fence bears on: all, or those of a FENCER's range (03 R143). -/
def inRange (range : Option (Nat × Nat)) (a n : Nat) : Bool :=
  match range with | none => true | some (b, m) => overlaps b m a n

/-- The first two waits of a release (03 R139, R130): earlier loads and atomics returned; earlier writes visible at the scope, and at
.PKG or wider those of this package acknowledged. The writes of the process's tile commands and copies are not among them: what a program waits for there is
the scoreboard, CPWAIT or RGWAIT (03 R133, R151; DESIGN CHOICE, log entry 90). -/
def Proc.settled (p : Proc) (scope : Nat) (range : Option (Nat × Nat)) : Bool :=
  (p.outs.all fun o => !inRange range o.ea.toNat o.len) &&
    p.stores.all fun x => !inRange range x.ea.toNat x.len || (match x.kind with
      | .direct => false
      | .reduction => false
      | .queued => decide (scope < scopePkg)
      | .far => true)

/-- Every entry older than a marker has left the queue (03 R140), those in a FENCER's range. -/
def drainedTo (q : List WqE) (mark : Nat) (range : Option (Nat × Nat)) : Bool :=
  q.all fun e => decide (mark ≤ e.seq) || !inRange range e.ea e.bytes.length

/-- The place of a drain marker in a queue (03 R139, R143): a FENCER places one only when an entry overlaps its range; place 0 waits for none. -/
def markAt (q : List WqE) (next : Nat) (range : Option (Nat × Nat)) : Nat :=
  if range.isSome && !q.any (fun e => inRange range e.ea e.bytes.length) then 0 else next

/-- The largest stamp among the acknowledgements that a release or fence has waited for (02 R102, 03 R143). -/
def Proc.ackedIn (p : Proc) (range : Option (Nat × Nat)) : Nat :=
  match range with
  | none => p.ackMax
  | some _ => ((p.acks.filter fun a => inRange range a.1 a.2.1).map (·.2.2)).foldl max 0

/-- The next stage of a release or fence of process p at core g (03 R139): none, it waits as it is; the process with a marker placed; or
done, with the process as the steps leave it (true). -/
def State.releaseSteps (s : State) (g : Nat) (p : Proc) (scope : Nat) (range : Option (Nat × Nat)) : Option (Proc × Bool) :=
  let done := if decide (p.vseen.toNat ≤ (s.coreAt g).vheld) then
      some ({ p with floor := if scope < scopePkg then p.floor else BitVec.ofNat 64 (max p.floor.toNat (p.ackedIn range)) }, true)
    else none
  if !p.settled scope range then none
  else if scope < scopePkg then done
  else
    let cl := s.clusterAt (clusterOf g)
    match p.wait with
    | .marks pc wq eq =>
      if pc != p.pc then some ({ p with wait := .marks p.pc (markAt cl.wq cl.wqSeq range) none }, false)
      else if !drainedTo cl.wq wq range then none
      else if scope = scopePkg then done
      else match eq with
        | none => some ({ p with wait := .marks pc wq (some (markAt s.egress s.egressSeq range)) }, false)
        | some m => if drainedTo s.egress m range then done else none
    | _ => some ({ p with wait := .marks p.pc (markAt cl.wq cl.wqSeq range) none }, false)

/-- An instruction that performs the release steps first (03 R139), then `f` with the process as they leave it. -/
def State.afterRelease (s : State) (g k : Nat) (p : Proc) (scope : Nat) (range : Option (Nat × Nat)) (f : Proc → Res) : Res :=
  match s.releaseSteps g p scope range with
  | none => s.stall
  | some (q, false) => .next (s.setProc g k q)
  | some (q, true) => f q

/-! The timestamp service (02 R98-R115). -/

/-- The largest timestamp at or below which every commit and publish has been applied at every home (02 R100, R111). -/
def Tss.visible (t : Tss) : Nat :=
  let commits := t.txs.filterMap fun e => match e.2.phase with
    | .applying c => if e.2.homes.all fun h => e.2.applied.contains h then none else some c
    | _ => none
  let pubs := t.pubs.filterMap fun x => if x.homes.isEmpty then none else some x.ts
  match (commits ++ pubs).min? with
  | none => t.last
  | some m => m - 1

/-- The service with V as far as it can stand; V never falls (02 R100). -/
def Tss.advance (t : Tss) : Tss := { t with v := max t.v t.visible }

/-- The next timestamp, never 0 (02 R98, 07 R270), and the service that issued it. -/
def Tss.issue (t : Tss) : Nat × Tss := (t.last + 1, { t with last := t.last + 1 })

/-- The values of V that the ready servers have acknowledged: two tables in ascending order read side by side. -/
def ackedBy : Tbl Server → Tbl Nat → List Nat
  | [], _ => []
  | e :: t, a =>
    let b := a.dropWhile fun x => decide (x.1 < e.1)
    let rest := ackedBy t b
    if e.2.ready then (match b with | x :: _ => if x.1 = e.1 then x.2 else 0 | [] => 0) :: rest else rest

/-- The largest V that every memory server has received and acknowledged (03 R146). -/
def State.heldV (s : State) : Nat := (ackedBy s.servers s.tss.acked).min?.getD 0

/-- A hold on a snapshot dropped (07 R272): the holder count falls, and at zero the snapshot is released; a revoked one changes no
count (R270) and stays known as revoked. -/
def Tss.drop (t : Tss) (ts : Nat) (tx : Bool) : Tss :=
  { t with snaps := (t.snaps.map fun (x : Snap) =>
      if x.ts == ts && x.tx == tx && (!x.revoked || tx) then { x with holders := x.holders - 1 } else x).filter fun x => x.holders != 0 || x.revoked }

/-- The process's hold on its SNAPSET snapshot dropped (07 R272); nothing when it holds none or has a transaction open. -/
def State.dropHold (s : State) (p : Proc) : State × Proc :=
  if p.txid != 0 || p.snap = 0 then (s, p)
  else ({ s with tss := s.tss.drop p.snap.toNat false }, { p with snap := 0, sm := false })

/-- The homes of transaction x are sent ABORT, its snapshot is released, and its process is done with it (02 R108, 07 R277). -/
def State.abortTx (s : State) (x : Nat) (status : Nat) : State :=
  let snap := match Tbl.find s.tss.txs x with | some t => t.snap | none => 0
  let s1 := s.mapTx x fun t => { t with phase := .ended status 0, toAbort := t.homes }
  { s1 with tss := s1.tss.drop snap true }

/-- A transaction whose process is done with it and whose ABORTs are acknowledged leaves its TXID free (02 R107). -/
def Tss.reap (t : Tss) : Tss :=
  { t with txs := t.txs.filter fun e => !(e.2.closed && e.2.toAbort.isEmpty && e.2.aborted.isEmpty) }

/-- TXA (07 R277): ABORT to every written home, the snapshot released, TXID, SNAP and PSW.snapshot zero. -/
def State.abandon (s : State) (p : Proc) : State × Proc :=
  if p.txid = 0 then (s, p)
  else
    let s1 := (s.abortTx p.txid.toNat 1).mapTx p.txid.toNat fun t => { t with closed := true }
    ({ s1 with tss := s1.tss.reap }, { p with txid := 0, snap := 0, sm := false })

/-- A message between the timestamp service and a node, charged to a dye (02 R536, 15 R538). -/
def State.leg (s : State) (a b : Node) (dye : BitVec 16) : State := s.transport a b dye 0

/-- What a wait of the process has asked of the service is withdrawn: a snapshot request leaves no hold behind. -/
def State.cancelWait (s : State) (p : Proc) : State :=
  match p.wait with
  | .snap _ k =>
    match s.tss.reqs.find? fun r => r.k == k with
    | none => s
    | some r =>
      let tx := match r.for_ with | .tx _ _ => true | _ => false
      let t := { s.tss with reqs := s.tss.reqs.filter fun x => x.k != k }
      let t1 := if r.issued then t.drop r.ts tx else t
      let t2 := match r.for_ with
        | .tx _ x => { t1 with txs := t1.txs.filter fun e => e.1 != x }
        | _ => t1
      { s with tss := t2 }
  | _ => s

end Sys2Proof.Machine
end

