-- ==== Sys2Proof/Machine/LocalMem.lean ====
section
/-! DEFINITION. Loads and stores in the process's own segment (06 R241-R245). -/

namespace Sys2Proof.Machine

/-- A word of the core's LM that [off, off + n) meets holds a double-bit error (17 R516). -/
def Core.lmBadHit (c : Core) (off n : Nat) : Bool := badHit c.lmBad off n

/-- A local load (06 R243): ALIGN, SEGMENT, the scoreboard, then the bytes read, with the errors that the read finds (17 R516); a double-bit error is a
pending POISON of the load, which then writes no register (07 R250). -/
def State.localLoad (s : State) (rs : List Reg) (b : Reg) (d : BitVec 20) (n : Nat) (f : Proc → List Byte → Bool → Proc) : Res :=
  s.withProc fun g k p =>
    if p.awaits rs || p.acquiring then s.stall
    else
      let ea := p.ea b d
      match p.localCheck ea n with
      | some c => .next (s.trap g k p c ea)
      | none =>
        let off := p.phys ea
        if s.localHeld g (Span.ofLen off n) Span.none then s.stall
        else
          let s1 := s.lmFound g p.dye off n
          let q : Proc := if (s1.coreAt g).lmBadHit off n then
              { p with faults := { seq := p.seq, cause := .poison, fpc := p.pc, info := ea } :: p.faults, seq := p.seq + 1 }
            else f p (s1.lmRead g off n) ((s1.coreAt g).lmTag off)
          .next ((s1.retire g k q).charge g p.dye .lm 1)

/-- A local store (06 R243): ALIGN, SEGMENT, the scoreboard, then the bytes written with the granule's tag as given. -/
def State.localStore (s : State) (rs : List Reg) (b : Reg) (d : BitVec 20) (n : Nat) (f : Proc → List Byte × Bool) : Res :=
  s.withProc fun g k p =>
    if p.awaits rs || p.acquiring then s.stall
    else
      let ea := p.ea b d
      match p.localCheck ea n with
      | some c => .next (s.trap g k p c ea)
      | none =>
        let off := p.phys ea
        if s.localHeld g Span.none (Span.ofLen off n) then s.stall
        else
          let v := f p
          .next (((s.setCore g ((s.coreAt g).lmWriteCap off v.1 v.2)).retire g k p).charge g p.dye .lm 1)

/-- LD (06 R243). -/
def execLd (m : BitVec 2) (sx : Bool) (a b : Reg) (d : BitVec 20) (s : State) : Res :=
  s.localLoad [a, b] b d (widthOf m) fun p bs _ => p.setReg a (extend (widthOf m) sx bs)

/-- ST (06 R243). -/
def execSt (m : BitVec 2) (a b : Reg) (d : BitVec 20) (s : State) : Res :=
  s.localStore [a, b] b d (widthOf m) fun p => (wordBytes (widthOf m) (p.reg a), false)

/-- The two words of 16 bytes. -/
def pairWords (bs : List Byte) : Word × Word := (bytesWord (bs.take 8), bytesWord ((bs.drop 8).take 8))

/-- The 16 bytes of a pair, the even register lower (06 R243). -/
def Proc.pairBytes (p : Proc) (a : Reg) : List Byte := wordBytes 8 (p.reg a) ++ wordBytes 8 (p.reg (oddOf a))

/-- LDP: never sets the pair's tag (06 R243). -/
def execLdp (a b : Reg) (d : BitVec 20) (s : State) : Res :=
  s.localLoad [a, oddOf a, b] b d 16 fun p bs _ => p.setPair a (pairWords bs).1 (pairWords bs).2 false

/-- STP: clears the granule's tag (06 R243). -/
def execStp (a b : Reg) (d : BitVec 20) (s : State) : Res :=
  s.localStore [a, oddOf a, b] b d 16 fun p => (p.pairBytes a, false)

/-- LDC: the pair takes the granule's tag (06 R245). -/
def execLdc (a b : Reg) (d : BitVec 20) (s : State) : Res :=
  s.localLoad [a, oddOf a, b] b d 16 fun p bs t => p.setPair a (pairWords bs).1 (pairWords bs).2 t

/-- STC: the granule takes the pair's tag (06 R245). -/
def execStc (a b : Reg) (d : BitVec 20) (s : State) : Res :=
  s.localStore [a, oddOf a, b] b d 16 fun p => (p.pairBytes a, p.pairTag a)

end Sys2Proof.Machine
end

