-- ==== Sys2Proof/Machine/GlobalMem.lean ====
section
/-! DEFINITION. Global loads and stores (07 R255-R259), capability moves to and from global memory (06 R246) and LDTAG (07 R288). -/

namespace Sys2Proof.Machine

/-- The issue checks of a class M global access (07 R249), after its registers have their data and no acquire is outstanding (06 R219, 03
R138). -/
def State.globalAccess (s : State) (rs : List Reg) (b : Reg) (d : BitVec 20) (n : Nat) (need : Proc → Word → Nat)
    (f : Nat → Nat → Proc → Word → Res) : Res :=
  s.withProc fun g k p =>
    if p.awaits rs || p.acquiring then s.stall
    else
      let ea := p.ea b d
      match s.issueCheck p.part (need p ea) ea n with
      | some c => .next (s.trap g k p c ea)
      | none => f g k p ea

/-- A snapshot-mode or in-transaction read of this package's HBM whose snapshot's revocation is known here (07 R273). -/
def State.readRevoked (s : State) (g : Nat) (p : Proc) (ea : Word) : Bool :=
  s.noticed g p && (match (s.translate p.part (clusterOf g) p.dye ea.toNat).1 with | .ok l => l.isHbm | _ => false)

/-- A global read (07 R257): REVOKED, then the limit of outstanding operations, then the request. -/
def State.globalRead (s : State) (rs : List Reg) (b : Reg) (d : BitVec 20) (n : Nat) (op : GOp) (dest : Dest) (acq fwd : Bool) : Res :=
  s.globalAccess rs b d n (fun _ _ => rightR) fun g k p ea =>
    if s.noticed g p && s.walkWaits p.part (clusterOf g) ea.toNat then s.stall
    else if s.readRevoked g p ea then .next ((s.translate p.part (clusterOf g) p.dye ea.toNat).2.trap g k p .revoked ea)
    else if maxOuts ≤ p.outs.length then s.stall
    else .next (s.issueSplit g k p ea n 0 op dest acq (fwd && p.txid == 0 && !(p.sm && (match (s.translate p.part (clusterOf g) p.dye ea.toNat).1 with
      | .ok l => l.isHbm
      | _ => false))))

/-- The right a store needs (07 R249): W, and V too for a tentative write. -/
def storeRight (p : Proc) (ea : Word) : Nat := if p.txid != 0 && !isWindow ea.toNat then rightW + rightV else rightW

/-- LDG (07 R258); an acquire's scope does not change how it executes (03 R138). -/
def execLdg (m _sc : BitVec 2) (acq sx : Bool) (a b : Reg) (d : BitVec 20) (s : State) : Res :=
  s.globalRead [a, b] b d (widthOf m) (.read (widthOf m)) (.reg a (widthOf m) sx) acq true

/-- STG (07 R258): with .REL, the release steps first. -/
def execStg (m sc : BitVec 2) (rel : Bool) (a b : Reg) (d : BitVec 20) (s : State) : Res :=
  s.globalAccess [a, b] b d (widthOf m) storeRight fun g k p ea =>
    let store (q : Proc) : Res := s.issueStore g k q ea (wordBytes (widthOf m) (q.reg a)) false false
    if rel then s.afterRelease g k p sc.toNat none store else store p

/-- LDGP (07 R258): never sets the pair's tag (R259). -/
def execLdgp (_sc : BitVec 2) (acq : Bool) (a b : Reg) (d : BitVec 20) (s : State) : Res :=
  s.globalRead [a, oddOf a, b] b d 16 (.read 16) (.pair a false) acq true

/-- STGP (07 R258). -/
def execStgp (sc : BitVec 2) (rel : Bool) (a b : Reg) (d : BitVec 20) (s : State) : Res :=
  s.globalAccess [a, oddOf a, b] b d 16 storeRight fun g k p ea =>
    let store (q : Proc) : Res := s.issueStore g k q ea (q.pairBytes a) false false
    if rel then s.afterRelease g k p sc.toNat none store else store p

/-- LDCG (06 R246): never forwarded; the tag comes back only with the capability's G right. -/
def execLdcg (a b : Reg) (d : BitVec 20) (s : State) : Res :=
  s.globalRead [a, oddOf a, b] b d 16 (.readCap true) (.pair a true) false false

/-- The G right of a capability (01 R26, 02 R121, 16 R492): bit 67 of an endpoint handle, 112 of a group handle, 104 of a far pointer. -/
def capG (h : BitVec 128) : Bool :=
  match (h.extractLsb' 124 4).toNat with
  | 1 => h.getLsbD 67
  | 2 => h.getLsbD 112
  | 3 => h.getLsbD 104
  | _ => false

/-- STCG (06 R246): a tagged pair without G traps RIGHTS before any effect; the entry carries the tag and is never forwarded. -/
def execStcg (a b : Reg) (d : BitVec 20) (s : State) : Res :=
  s.globalAccess [a, oddOf a, b] b d 16 storeRight fun g k p ea =>
    if p.pairTag a && !capG (p.pair a) then .next (s.trap g k p .rights ea)
    else s.issueStore g k p ea (p.pairBytes a) (p.pairTag a) true

/-- LDTAG (07 R288): the eight tags of the 128-byte block; never forwarded. -/
def execLdtag (a b : Reg) (d : BitVec 20) (s : State) : Res :=
  s.globalRead [a, b] b d 16 .readTags (.tags a) false false

end Sys2Proof.Machine
end

