-- ==== Sys2Proof/Machine/Atomics.lean ====
section
/-! DEFINITION. Returning atomics (07 R260-R264) and reductions (07 R266). -/

namespace Sys2Proof.Machine

/-- Bytes of an atomic's width code (07 R260): 2 is 4 bytes, 3 is 8; AFADD's 1 is BF16's 2. -/
def atomWidth (m : BitVec 2) : Nat := 2 ^ m.toNat

/-- A returning atomic (07 R262): the issue checks with right A, the limit of outstanding operations, the release steps of .REL and .AR, then
the request; .ACQ and .AR are acquires. -/
def State.atomic (s : State) (op : AtOp) (o : AtomOps) : Res :=
  let n := atomWidth o.m
  s.globalAccess [o.a, o.b, o.c] o.b o.d n (fun _ _ => rightA) fun g k p ea =>
    let signed := op = .min ∨ op = .max
    let send (q : Proc) : Res :=
      if maxOuts ≤ q.outs.length then s.stall
      else .next (s.issueSplit g k q ea n 2
        (.atomic op n (op = .fadd && o.m = 1) (q.reg o.a) (q.reg o.c) q.floor.toNat true)
        (.reg o.a n signed) (o.ord.getLsbD 0) false)
    if o.ord.getLsbD 1 then s.afterRelease g k p o.sc.toNat none send else send p

/-- A reduction (07 R266): as the atomic of its operation, with nothing returned; its home acknowledges it. -/
def State.reduce (s : State) (op : AtOp) (o : RedOps) : Res :=
  let n := atomWidth o.m
  s.globalAccess [o.b, o.c] o.b o.d n (fun _ _ => rightA) fun g k p ea =>
    let send (q : Proc) : Res :=
      let f := s.fresh
      let t := f.2.translate q.part (clusterOf g) q.dye ea.toNat
      let r (st : State) (l : Loc) : GReq :=
        st.request g k q f.1 l n (.atomic op n (op = .fadd && o.m = 1) 0 (q.reg o.c) q.floor.toNat false)
      if s.issueWaits g q ea.toNat n true then s.stall
      else match t.1 with
      | .error e =>
        let s1 := t.2.retire g k (q.addStore f.1 ea n .direct)
        .next (s1.post (.cluster (clusterOf g)) (.core g) (.err (r s1 (.lm g 0)) e))
      | .ok l =>
        if l.isQueued && !s.queueRoom g then s.stall
        else if !l.isQueued && maxStores ≤ (q.stores.filter fun x => x.kind == .direct).length then s.stall
        else
          let s1 := t.2.retire g k (q.addStore f.1 ea n (if l.isQueued then .reduction else .direct))
          match (if l.isFar then s.farCheck q.part ea.toNat n 2 else none) with
          | some e => .next (s1.post .egress (.core g) (.err (r s1 l) e))
          | none => .next ((s1.carry g l.node q.dye n).post (.core g) l.node (.req (r s1 l)))
    if o.rel then s.afterRelease g k p o.sc.toNat none send else send p

/-- AADD (07 R261). -/
def execAadd (o : AtomOps) (s : State) : Res := s.atomic .add o

/-- AAND (07 R261). -/
def execAand (o : AtomOps) (s : State) : Res := s.atomic .and o

/-- AOR (07 R261). -/
def execAor (o : AtomOps) (s : State) : Res := s.atomic .or o

/-- AXOR (07 R261). -/
def execAxor (o : AtomOps) (s : State) : Res := s.atomic .xor o

/-- AMIN (07 R261). -/
def execAmin (o : AtomOps) (s : State) : Res := s.atomic .min o

/-- AMINU (07 R261). -/
def execAminu (o : AtomOps) (s : State) : Res := s.atomic .minu o

/-- AMAX (07 R261). -/
def execAmax (o : AtomOps) (s : State) : Res := s.atomic .max o

/-- AMAXU (07 R261). -/
def execAmaxu (o : AtomOps) (s : State) : Res := s.atomic .maxu o

/-- AXCHG (07 R261). -/
def execAxchg (o : AtomOps) (s : State) : Res := s.atomic .xchg o

/-- ACAS (07 R261). -/
def execAcas (o : AtomOps) (s : State) : Res := s.atomic .cas o

/-- AFADD (07 R261). -/
def execAfadd (o : AtomOps) (s : State) : Res := s.atomic .fadd o

/-- REDADD (07 R266). -/
def execRedadd (o : RedOps) (s : State) : Res := s.reduce .add o

/-- REDAND (07 R266). -/
def execRedand (o : RedOps) (s : State) : Res := s.reduce .and o

/-- REDOR (07 R266). -/
def execRedor (o : RedOps) (s : State) : Res := s.reduce .or o

/-- REDXOR (07 R266). -/
def execRedxor (o : RedOps) (s : State) : Res := s.reduce .xor o

/-- REDMIN (07 R266). -/
def execRedmin (o : RedOps) (s : State) : Res := s.reduce .min o

/-- REDMINU (07 R266). -/
def execRedminu (o : RedOps) (s : State) : Res := s.reduce .minu o

/-- REDMAX (07 R266). -/
def execRedmax (o : RedOps) (s : State) : Res := s.reduce .max o

/-- REDMAXU (07 R266). -/
def execRedmaxu (o : RedOps) (s : State) : Res := s.reduce .maxu o

/-- REDFADD (07 R266). -/
def execRedfadd (o : RedOps) (s : State) : Res := s.reduce .fadd o

end Sys2Proof.Machine
end

