-- ==== Sys2Proof/Machine/Aes.lean ====
section
/-! DEFINITION. AES-256 in Galois counter mode (10 R384), as NIST FIPS 197 and SP 800-38D define them (log entry 25). -/

namespace Sys2Proof.Machine

/-! The block cipher. -/

/-- Multiplication by x in GF(2^8). -/
def xtime (a : Byte) : Byte := if a.getLsbD 7 then (a <<< 1) ^^^ 0x1B else a <<< 1

/-- The product in GF(2^8), over the low `n` bits of the second factor. -/
def gfMul (a b : Byte) : Nat → Byte
  | 0 => 0
  | n + 1 => (if b.getLsbD 0 then a else 0) ^^^ gfMul (xtime a) (b >>> 1) n

/-- a to the power 254, the inverse of a nonzero byte. -/
def gfInv (a : Byte) : Byte :=
  let m (x y : Byte) : Byte := gfMul x y 8
  let a2 := m a a
  let a4 := m a2 a2
  let a8 := m a4 a4
  let a16 := m a8 a8
  let a32 := m a16 a16
  let a64 := m a32 a32
  let a128 := m a64 a64
  m a128 (m a64 (m a32 (m a16 (m a8 (m a4 a2)))))

/-- SubBytes of one byte. -/
def sbox (a : Byte) : Byte :=
  let b := gfInv a
  b ^^^ b.rotateLeft 1 ^^^ b.rotateLeft 2 ^^^ b.rotateLeft 3 ^^^ b.rotateLeft 4 ^^^ 0x63

/-- Bytewise exclusive or. -/
def xorBytes (a b : List Byte) : List Byte := a.zipWith (· ^^^ ·) b

/-- The round constant of expansion step i, from 1. -/
def rcon : Nat → Byte
  | 0 => 0x8D
  | i + 1 => xtime (rcon i)

/-- The next 4-byte word of the key schedule, word i of AES-256 (8 key words). -/
def keyWord (i : Nat) (w8 w1 : List Byte) : List Byte :=
  let t :=
    if i % 8 = 0 then
      match (w1.drop 1 ++ w1.take 1).map sbox with
      | x :: r => (x ^^^ rcon (i / 8)) :: r
      | [] => []
    else if i % 8 = 4 then w1.map sbox
    else w1
  xorBytes w8 t

/-- Key-schedule words from word i on; the list holds the words so far, newest first. -/
def expandFrom : Nat → Nat → List (List Byte) → List (List Byte)
  | 0, _, ws => ws.reverse
  | fuel + 1, i, ws => expandFrom fuel (i + 1) (keyWord i (ws.getD 7 []) (ws.getD 0 []) :: ws)

/-- The 60 words of the AES-256 key schedule of 32 key bytes. -/
def keySchedule (key : List Byte) : List (List Byte) :=
  expandFrom 52 8 (((List.range 8).map fun i => (key.drop (4 * i)).take 4).reverse)

/-- Round key r as 16 bytes. -/
def roundKey (ws : List (List Byte)) (r : Nat) : List Byte := ((ws.drop (4 * r)).take 4).flatMap id

/-- ShiftRows on 16 bytes in column order. -/
def shiftRows (b : List Byte) : List Byte := (List.range 16).map fun i => b.getD ((i + 4 * (i % 4)) % 16) 0

/-- MixColumns on one column. -/
def mixColumn (c : List Byte) : List Byte :=
  (List.range 4).map fun i =>
    let x (k : Nat) : Byte := c.getD ((i + k) % 4) 0
    xtime (x 0) ^^^ (xtime (x 1) ^^^ x 1) ^^^ x 2 ^^^ x 3

/-- MixColumns. -/
def mixColumns (b : List Byte) : List Byte := (List.range 4).flatMap fun c => mixColumn ((b.drop (4 * c)).take 4)

/-- Rounds r to 14 of the cipher, the last without MixColumns. -/
def aesRounds (ws : List (List Byte)) : Nat → Nat → List Byte → List Byte
  | 0, _, b => b
  | fuel + 1, r, b =>
    let t := shiftRows (b.map sbox)
    aesRounds ws fuel (r + 1) (xorBytes (if r = 14 then t else mixColumns t) (roundKey ws r))

/-- AES-256 of one block. -/
def aesBlock (ws : List (List Byte)) (b : List Byte) : List Byte := aesRounds ws 14 1 (xorBytes b (roundKey ws 0))

/-! Galois counter mode. -/

/-- A number of `n` bytes, most significant byte first. -/
def bigBytes (n x : Nat) : List Byte := (natBytes n x).reverse

/-- The number that bytes hold, most significant byte first. -/
def bigNat (bs : List Byte) : Nat := bytesNat bs.reverse

/-- The counter block of keystream block i: IV, then i + 2 (10 R384). -/
def counterBlock (iv : List Byte) (i : Nat) : List Byte := iv ++ bigBytes 4 ((i + 2) % 2 ^ 32)

/-- Keystream bytes [off, off + n). -/
def keystream (ws : List (List Byte)) (iv : List Byte) (off n : Nat) : List Byte :=
  let first := off / 16
  let blocks := (off + n + 15) / 16 - first
  (((List.range blocks).flatMap fun i => aesBlock ws (counterBlock iv (first + i))).drop (off % 16)).take n

/-- The product in GF(2^128) of SP 800-38D, over `n` bits of x from the left. -/
def ghashMul (x : BitVec 128) : Nat → BitVec 128 → BitVec 128 → BitVec 128
  | 0, z, _ => z
  | n + 1, z, v =>
    ghashMul x n (if x.getLsbD n then z ^^^ v else z)
      (if v.getLsbD 0 then (v >>> 1) ^^^ (0xE1#128 <<< 120) else v >>> 1)

/-- GHASH of blocks of 16 bytes, a short last one padded with zeros. -/
def ghash (h : BitVec 128) : Nat → BitVec 128 → List Byte → BitVec 128
  | 0, y, _ => y
  | fuel + 1, y, bs =>
    if bs.isEmpty then y
    else
      let b := bs.take 16 ++ List.replicate (16 - bs.length) 0
      ghash h fuel (ghashMul (y ^^^ BitVec.ofNat 128 (bigNat b)) 128 0 h) (bs.drop 16)

/-- The authentication tag of a ciphertext without additional data (10 R384). -/
def gcmTag (key iv cipher : List Byte) : List Byte :=
  let ws := keySchedule key
  let h := BitVec.ofNat 128 (bigNat (aesBlock ws (List.replicate 16 0)))
  let y := ghash h (cipher.length / 16 + 1) 0 cipher
  let z := ghashMul (y ^^^ BitVec.ofNat 128 (8 * cipher.length)) 128 0 h
  xorBytes (bigBytes 16 z.toNat) (aesBlock ws (iv ++ [0, 0, 0, 1]))

end Sys2Proof.Machine
end

