-- ==== Sys2Proof/Machine/TileState.lean ====
section
/-! DEFINITION. The tile unit's registers (10 R354-R357), its ownership (R358) and its queue as the instructions that wait for it see them
(R363). -/

namespace Sys2Proof.Machine

/-- Tile register i as sparse bytes, row r at bytes 192r (10 R354). -/
def Tile.reg (t : Tile) (i : Nat) : Mem := Tbl.get [] t.t i

/-- The scale array of tile register i, row r at bytes 12r. -/
def Tile.scale (t : Tile) (i : Nat) : Mem := Tbl.get [] t.sc i

/-- Accumulator i, element (r, j) at 48r + 4j. -/
def Tile.acc (t : Tile) (i : Nat) : Mem := Tbl.get [] t.c i

/-- TSH(i). -/
def Tile.shape (t : Tile) (i : Nat) : Word := t.shapes.toList.getD i 0

/-- TSH(i) replaced. -/
def Tile.setShape (t : Tile) (i : Nat) (w : Word) : Tile := { t with shapes := t.shapes.setIfInBounds i w }

/-- Tile register i replaced, and dirty (14 R451). -/
def Tile.setReg (t : Tile) (i : Nat) (m : Mem) : Tile := { t with t := Tbl.put t.t i m, dirty := t.dirty ||| (1#24 <<< i) }

/-- A scale array replaced. -/
def Tile.setScale (t : Tile) (i : Nat) (m : Mem) : Tile := { t with sc := Tbl.put t.sc i m, dirty := t.dirty ||| (1#24 <<< (8 + i)) }

/-- An accumulator replaced. -/
def Tile.setAcc (t : Tile) (i : Nat) (m : Mem) : Tile := { t with c := Tbl.put t.c i m, dirty := t.dirty ||| (1#24 <<< (16 + i)) }

/-- The image of a tile register under a shape: its rows in order (10 R357). -/
def Tile.image (t : Tile) (i : Nat) (sh : Word) : List Byte :=
  (List.range (shapeRows sh)).flatMap fun r => Mem.read (t.reg i) (192 * r) (shapeBpr sh)

/-- Rows of `n` bytes written from row r on. -/
def writeRows (m : Mem) (n : Nat) : Nat → Nat → List Byte → Mem
  | 0, _, _ => m
  | rows + 1, r, bytes => writeRows (Mem.write m (192 * r) (bytes.take n)) n rows (r + 1) (bytes.drop n)

/-- A tile register with its image written. -/
def Tile.setImage (t : Tile) (i : Nat) (sh : Word) (bytes : List Byte) : Tile :=
  t.setReg i (writeRows (t.reg i) (shapeBpr sh) (shapeRows sh) 0 bytes)

/-- Core g's tile unit. -/
def State.tileAt (s : State) (g : Nat) : Tile := (s.coreAt g).tile

/-- Core g's tile unit replaced. -/
def State.setTile (s : State) (g : Nat) (t : Tile) : State := s.setCore g { s.coreAt g with tile := t }

/-- The YIELD transition (01 R21): the process as given goes to the tail of its queue and the core dispatches. -/
def State.yieldAs (s : State) (g k : Nat) (p : Proc) : State :=
  (s.setCore g (((s.coreAt g).unrun.setProc k p).enqueueTail k)).dispatch g

/-- Acquire (10 R358): the unit is the process's, or it yields with PC at the instruction. -/
def State.acquire (s : State) (g k : Nat) (p : Proc) (f : State → Res) : Res :=
  match (s.tileAt g).owner with
  | none => f (s.setTile g { s.tileAt g with owner := some k })
  | some o => if o = k then f s else .next (s.yieldAs g k p)

/-- The owner set to none when slot k owns the unit (10 R359, R360). -/
def State.releaseTile (s : State) (g k : Nat) : State :=
  if (s.tileAt g).owner = some k then s.setTile g { s.tileAt g with owner := none } else s

/-- A tile command that the process issued is not complete. -/
def State.tilePending (s : State) (who : PRef) : Bool := (s.tileAt who.g).queue.any fun e => e.who == who

/-- The shape's image can travel in a message: a shape that is not MX (10 R363). -/
def shapeSends (sh : Word) : Bool := shapeRows sh != 0 && !isMx (shapeEc sh)

end Sys2Proof.Machine
end

