-- ==== Sys2Proof/Machine/Route.lean ====
section
/-! DEFINITION. Source routes of the pod fabric (16 R486, R487) and sending a packet on a Solom port (16 R489). -/

namespace Sys2Proof.Machine

/-- Coordinates of a package id (00 R7): x, y, z, w. -/
def pkgCoord (p : Nat) : Nat × Nat × Nat × Nat := (bitsOf p 1 0, bitsOf p 3 2, bitsOf p 7 4, bitsOf p 11 8)

/-- The package id of coordinates (00 R7). -/
def pkgOf (c : Nat × Nat × Nat × Nat) : Nat := c.1 + 4 * c.2.1 + 16 * c.2.2.1 + 256 * c.2.2.2

/-- Coordinate of a package in a dimension: 0 X, 1 Y, 2 Z, 3 W. -/
def pkgDim (p dim : Nat) : Nat :=
  let c := pkgCoord p
  match dim with
  | 0 => c.1 | 1 => c.2.1 | 2 => c.2.2.1 | _ => c.2.2.2

/-- Size of a dimension, from PODCFG's SIZES (18 R527). -/
def podSize (sizes : BitVec 12) (dim : Nat) : Nat :=
  match dim with
  | 0 => bitsOf sizes.toNat 11 10 + 1
  | 1 => bitsOf sizes.toNat 9 8 + 1
  | 2 => bitsOf sizes.toNat 7 4 + 1
  | _ => bitsOf sizes.toNat 3 0 + 1

/-- The port of a direction in a dimension (16 R496): plus, then minus. -/
def portOf (dim : Nat) (plus : Bool) : Nat := 2 * dim + (if plus then 0 else 1)

/-- The neighbour through a port, where the dimension has one (16 R486): X and Y do not wrap, Z and W do. -/
def neighbour (sizes : BitVec 12) (p dim : Nat) (plus : Bool) : Option Nat :=
  let n := podSize sizes dim
  let v := pkgDim p dim
  let set (x : Nat) : Nat :=
    let c := pkgCoord p
    match dim with
    | 0 => pkgOf (x, c.2) | 1 => pkgOf (c.1, x, c.2.2) | 2 => pkgOf (c.1, c.2.1, x, c.2.2.2) | _ => pkgOf (c.1, c.2.1, c.2.2.1, x)
  if dim ≤ 1 then
    if plus then (if v + 1 < n then some (set (v + 1)) else none) else (if 0 < v then some (set (v - 1)) else none)
  else if n ≤ 1 then none
  else some (set (if plus then (v + 1) % n else (v + n - 1) % n))

/-- The hop of a package through a port is alive (16 R487, R488, 18 R529): the neighbour and the link at both ends are not dead, and an own
port is ready. A link is named by package times 8 plus port. -/
def State.hopAlive (s : State) (p dim : Nat) (plus : Bool) : Option Nat :=
  match neighbour s.bring.sizes p dim plus with
  | none => none
  | some q =>
    let out := p * 8 + portOf dim plus
    let back := q * 8 + portOf dim !plus
    let own := p != s.bring.pkgid.toNat || ((s.portAt (portOf dim plus)).ready && (s.portAt (portOf dim plus)).state != 0)
    if own && !s.deadPkgs.contains q && !s.deadLinks.contains out && !s.deadLinks.contains back then some q else none

/-- `n` hops in one direction, with the ports taken; none when one is dead. -/
def State.walkDim (s : State) (dim : Nat) (plus : Bool) : Nat → Nat → Option (Nat × List Nat)
  | 0, p => some (p, [])
  | n + 1, p =>
    match s.hopAlive p dim plus with
    | none => none
    | some q => (s.walkDim dim plus n q).map fun r => (r.1, portOf dim plus :: r.2)

/-- A wrapped dimension (16 R487): the direction with fewer hops, + on a tie; the other when that path is dead. -/
def State.walkWrapped (s : State) (dim p dst : Nat) : Option (Nat × List Nat) :=
  let n := podSize s.bring.sizes dim
  let up := (pkgDim dst dim + n - pkgDim p dim) % n
  let down := (n - up) % n
  let plus := decide (up ≤ down)
  match s.walkDim dim plus (if plus then up else down) p with
  | some r => some r
  | none => s.walkDim dim (!plus) (if plus then down else up) p

/-- The route from a package to another (16 R487), with fuel and the detours still allowed: the ports in order. -/
def State.routeFrom (s : State) (dst : Nat) : Nat → Nat → Nat → Option (List Nat)
  | 0, _, _ => none
  | fuel + 1, p, detours =>
    if p = dst then some []
    else if pkgDim p 3 ≠ pkgDim dst 3 then
      match s.walkWrapped 3 p dst with
      | some (q, ports) => (s.routeFrom dst fuel q detours).map (ports ++ ·)
      | none => none
    else if pkgDim p 2 ≠ pkgDim dst 2 then
      match s.walkWrapped 2 p dst with
      | some (q, ports) => (s.routeFrom dst fuel q detours).map (ports ++ ·)
      | none => none
    else
      let dim := if pkgDim p 1 ≠ pkgDim dst 1 then 1 else 0
      let plus := decide (pkgDim p dim < pkgDim dst dim)
      match s.hopAlive p dim plus with
      | some q => (s.routeFrom dst fuel q detours).map (portOf dim plus :: ·)
      | none =>
        let other := 1 - dim
        let up := decide (pkgDim p other < podSize s.bring.sizes other - 1)
        match detours, s.hopAlive p other up with
        | d + 1, some q => (s.routeFrom dst fuel q d).map (portOf other up :: ·)
        | _, _ => none

/-- The route to a package now, as the ports in order; none when it is unreachable (16 R487, R491) or no Solom traffic flows yet (18 R530). -/
def State.routeTo (s : State) (pkg : Nat) : Option (List Nat) :=
  if !s.bring.podWritten then none
  else match s.routeFrom pkg 64 s.bring.pkgid.toNat 2 with
    | some (i :: r) => some (i :: r)
    | _ => none

/-- The port through which a package is reached now. -/
def State.portTo (s : State) (pkg : Nat) : Option Nat := (s.routeTo pkg).bind List.head?

/-- The hop out of this package through a port crosses coordinate 0 of its dimension, so the packet goes to the second virtual channel (16 R487). -/
def State.crosses (s : State) (port : Nat) : Bool :=
  let v := pkgDim s.bring.pkgid.toNat (port / 2)
  if port / 2 ≤ 1 then false else if port % 2 = 0 then v + 1 == podSize s.bring.sizes (port / 2) else v == 0

/-- Flits a port's replay buffer holds (16 R489). -/
def replayMax : Nat := 256

/-- Bytes of data that a packet carries. -/
def packetSize : PacketBody → Nat
  | .access _ _ _ _ op => (match op with | .store bytes _ _ _ => bytes.length | .atomic _ _ _ _ _ => 16 | _ => 0)
  | .reply _ bytes _ _ _ => bytes.length
  | .header _ _ _ _ _ _ _ bytes _ _ _ => bytes.length
  | .headerData _ bytes => bytes.length
  | _ => 0

/-- The flits of a packet, 64 bytes each, with the numbers from `seq` on (16 R489). -/
def flitsFrom (seq : BitVec 12) (pay : BitVec 16) (pk : Packet) : List Flit :=
  let n := flitsOf (packetSize pk.body)
  (List.range n).map fun i => { seq := seq + BitVec.ofNat 12 i, pk := pk, left := n - 1 - i, pay := pay }

/-- The port after a packet's flits are put into its replay buffer, behind those there (16 R489). -/
def Port.push (q : Port) (pay : BitVec 16) (pk : Packet) : Port :=
  let f := flitsFrom q.txSeq pay pk
  { q with txSeq := q.txSeq + BitVec.ofNat 12 f.length, replay := q.replay ++ f }

/-- A packet put on a port, each flit charged to a dye (15 R481); none while the replay buffer has no room for all of them, or the port is down. -/
def State.sendPacket (s : State) (i : Nat) (pay : BitVec 16) (pk : Packet) : Option State :=
  let n := flitsOf (packetSize pk.body)
  if replayMax < (s.portAt i).replay.length + n || (s.portAt i).state == 0 then none
  else some ((s.setPort i ((s.portAt i).push pay pk)).charge (meterPort i) pay .flit n)

/-- A packet made for a package along a route. -/
def State.makePacket (s : State) (pkg num : Nat) (dye : BitVec 16) (route : List Nat) (b : PacketBody) : Packet :=
  { src := s.bring.pkgid, dst := BitVec.ofNat 12 pkg, num := num, dye := dye, route := route
    vc := (match route with | i :: _ => s.crosses i | [] => false), body := b }

/-- A packet leaves for another package on the route that is right now, when its port can take it (16 R487, R488): not while packets on another route
to that package are unacknowledged. It stays recorded until the destination's ingress acknowledges it. -/
def State.leave (s : State) (pkg : Nat) (dye : BitVec 16) (b : PacketBody) (pay : BitVec 16 := dye) : Option State :=
  match s.routeTo pkg with
  | none => none
  | some route =>
    if s.unacked.any fun x => x.dst == pkg && (x.back || x.pk.route != route) then none
    else
      let f := s.fresh
      let pk := f.2.makePacket pkg f.1 dye route b
      (f.2.sendPacket (route.headD 0) pay { pk with route := route.tail }).map fun st =>
        { st with unacked := st.unacked ++ [{ num := f.1, dst := pkg, pk := pk, back := false }] }

/-- A message of the ingress ports themselves leaves for another package (16 R488): it is acknowledged by no one. The spec names no dye for it; it has dye
0 (DESIGN CHOICE, log entry 95). -/
def State.leaveControl (s : State) (pkg : Nat) (b : PacketBody) : Option State :=
  match s.routeTo pkg with
  | none => none
  | some route => s.sendPacket (route.headD 0) 0 { s.makePacket pkg 0 0 route b with route := route.tail }

/-- What names a far request to its package: a scrub's lines are told apart (10 R396). -/
def GReq.ident (r : GReq) : Nat := 64 * r.oid + (match r.op with | .scrub i => i | _ => 0)

/-- The packet of a far access (16 R494). -/
def GReq.packet (r : GReq) : Option PacketBody :=
  match r.loc with
  | .far _ part epoch dva =>
    let op : FarOp := match r.op with
      | .read n => .load n
      | .readCap g => .loadCap g
      | .readTags => .loadTags
      | .scrub _ => .scrub
      | .write bytes tag _ _ => .store bytes tag r.cap r.bad
      | .atomic o w bf x v _ _ =>
        let code : BitVec 4 := match o with
          | .add => 0 | .and => 1 | .or => 2 | .xor => 3 | .min => 4 | .minu => 5 | .max => 6 | .maxu => 7 | .xchg => 8 | .cas => 9
          | .fadd => 10
        .atomic code w bf v x
    some (.access r.ident part epoch (BitVec.ofNat 52 dva) op)
  | _ => none

/-- A far request sent to its package (16 R493, R494), outstanding until its reply; none when no packet can leave now. -/
def State.sendFar (s : State) (r : GReq) : Option State :=
  match r.loc, r.packet with
  | .far pkg _ _ _, some pk => (s.leave pkg r.dye pk).map fun st => { st with farOut := st.farOut ++ [r] }
  | _, _ => none

/-! Requests from other packages (16 R494). -/

/-- The first core number that stands for another package as the origin of a request. -/
def remoteBase : Nat := 65536

/-- The package that a request came from, when it came from another one. -/
def GReq.remote (r : GReq) : Option Nat :=
  if remoteBase ≤ r.who.g ∧ r.who.g < remoteBase + 4096 then some (r.who.g - remoteBase) else none

/-- The reply packet of an answer to a request from another package. -/
def replyPacket (r : GReq) : Body → PacketBody
  | .resp _ bytes tags _ _ flags fixed bad =>
    let t := match r.op with | .scrub _ => (if fixed then 1 else 0) + (if bad then 2 else 0) | _ => tags
    .reply r.oid bytes t flags 0
  | .ack _ _ flags => .reply r.oid [] 0 flags 0
  | .err _ c => .reply r.oid [] 0 0 c.code
  | _ => .reply r.oid [] 0 0 0

/-- An answer that has come to the egress port leaves as a reply packet with the request's dye, when a port can take it; what it costs here goes
to dye 0 (15 R484). -/
def State.sendReply (s : State) (r : GReq) (b : Body) : Option State :=
  match r.remote with
  | some pkg => s.leave pkg r.dye (replyPacket r b) 0
  | none => none

end Sys2Proof.Machine
end

