-- ==== Sys2Proof/Machine/Fabric.lean ====
section
/-! DEFINITION. What happens at homes and what comes back: reads, writes, atomics and reductions performed in arrival order (02 R84-R106,
03 R128, 07 R257-R266, 10 R396, 17 R515, R516), write-queue drains (02 R90), responses, acknowledgements and errors (02 R85, 07 R251). -/

namespace Sys2Proof.Machine

/-! Messages and processes. -/

/-- The process a reference names, when it still holds its slot (13 R410). -/
def State.find (s : State) (r : PRef) : Option Proc :=
  let c := s.coreAt r.g
  if c.holdsProc r.slot && Tbl.get 0 c.gens r.slot == r.gen then some (c.procAt r.slot) else none

/-- The process a reference names replaced. -/
def State.update (s : State) (r : PRef) (p : Proc) : State := s.setProc r.g r.slot p

/-- Bytes an operation bears on. -/
def GOp.size : GOp → Nat
  | .read n => n
  | .readCap _ => 16
  | .readTags => 16
  | .write bytes _ _ _ => bytes.length
  | .atomic _ w _ _ _ _ _ => w
  | .scrub _ => 128

/-- An older entry of the egress queue that a far request goes behind (02 R91, R92, 03 R134): it meets the request's bytes, or is its process's and
bound for its package. -/
def GReq.after (r : GReq) (e : WqE) : Bool :=
  let w := r.op.span r.loc r.op.size
  r.loc.isFar && decide (e.oid < r.oid) && (e.meets w.1 w.2 || (e.who == r.who && e.loc.sameHome r.loc))

/-- Every queue entry that a request goes behind has left (02 R91, R92): an entry that has moved on from the cluster's queue into the egress queue
still stands before it. -/
def State.unblocked (s : State) (r : GReq) : Bool :=
  ((s.clusterAt (clusterOf r.who.g)).wq.all fun e => !r.behind.contains e.seq) &&
    s.egress.all fun e => !r.behindEq.contains e.seq && !r.after e

/-! Buffers and turns at a home (15 R478, R479). -/

/-- The requests for a home that its queue has taken, with their partitions, in the order of the network: each has a credit of its partition or a
shared one. -/
def letIn (reserve shared : Nat) : List (Nat × Nat) → List Nat → List (Nat × Nat)
  | [], _ => []
  | x :: t, used => if bufferRoom reserve shared used x.2 then x :: letIn reserve shared t (x.2 :: used) else letIn reserve shared t used

/-- A request occupies a handler thread of its memory server (17 R510). -/
def State.threaded (s : State) (r : GReq) : Bool :=
  match r.loc with
  | .hbm v _ => (s.serverAt v).threads.any fun x => x.1 == r.who.g && x.2.1 == r.oid
  | _ => false

/-- A request takes a thread of server v (15 R478, 17 R510): 24, one for each partition, 8 shared. -/
def State.enterThread (s : State) (v : Nat) (r : GReq) : Option State :=
  let x := s.serverAt v
  if bufferRoom 1 8 (x.threads.map (·.2.2)) r.part then some (s.setServer v { x with threads := x.threads ++ [(r.who.g, r.oid, r.part)] }) else none

/-- A request leaves its thread, if it has one. -/
def State.leaveThread (s : State) (r : GReq) : State :=
  match r.loc with
  | .hbm v _ =>
    let x := s.serverAt v
    s.setServer v { x with threads := x.threads.filter fun y => !(y.1 == r.who.g && y.2.1 == r.oid) }
  | _ => s

/-- The requests for a home that nothing holds back, by place in the network and partition. -/
def State.queuedAt (s : State) (d : Node) : List (Nat × Nat) :=
  s.net.zipIdx.filterMap fun m => match m.1.body with
    | .req r => if m.1.dst == d && s.unblocked r && !s.threaded r then some (m.2, r.part) else none
    | _ => none

/-- A memory server's request queue (15 R478): 96 entries, 2 for each partition, 64 shared. -/
def State.serverQueue (s : State) (v : Nat) : List (Nat × Nat) := letIn 2 64 (s.queuedAt (.server v)) []

/-- The requests of the host interface unit (15 R478): 256, 8 for each partition, 128 shared. -/
def State.hostQueue (s : State) : List (Nat × Nat) := letIn 8 128 (s.queuedAt .host) []

/-- The pool of server v is more than seven-eighths full (02 R116, 17 R511). -/
def State.poolHigh (s : State) (v : Nat) : Bool := decide (7 * poolSize (s.serverAt v).poolCfg < 8 * s.poolUsed v)

/-- Server v holds a version that Ablation may reclaim (02 R116). -/
def State.canReclaim (s : State) (v : Nat) : Bool :=
  (s.linesOf v).any fun e => (List.range e.2.pool.length).any fun i => reclaimable (s.serverAt v).firn (s.serverAt v).v (e.2.successorTs i)

/-- The next pipeline slot of server v is Ablation's (17 R511): one of every four, ahead of waiting requests, while the pool is that full. -/
def State.ablationSlot (s : State) (v : Nat) : Bool := decide (3 ≤ (s.serverAt v).since) && s.poolHigh v && s.canReclaim v

/-- Partition p has its turn at server v (15 R479): no other partition with a request waiting in the queue comes before it in the round, and the slot is
not Ablation's. -/
def State.serverTurn (s : State) (v p : Nat) : Bool :=
  let after (q : Nat) : Nat := (q + 31 - (s.serverAt v).rr % 16) % 16
  !s.ablationSlot v && (s.serverQueue v).all fun x => !deliverable s.net x.1 || decide (after p ≤ after x.2)

/-- The home may take message n up: its queue holds the request, and at a memory server its partition has the turn. -/
def State.mayServe (s : State) (n : Nat) : Bool :=
  match s.net[n]? with
  | some m =>
    match m.dst, m.body with
    | .server v, .req r => ((s.serverQueue v).any fun x => x.1 == n) && s.serverTurn v r.part
    | .host, .req _ => s.hostQueue.any fun x => x.1 == n
    | _, _ => true
  | none => false

/-- A memory server has taken up a request of a partition: the next one in the round has the turn (15 R479), and Ablation's slots are counted (17 R511). -/
def State.turned (s : State) (l : Loc) (part : Nat) : State :=
  match l with
  | .hbm v _ => let x := s.serverAt v; s.setServer v { x with rr := part, lastReq := s.cycle, since := x.since + 1 }
  | _ => s

/-- A home takes up a write that a queue brings it: a memory server by turn, with room in its queue. -/
def State.mayAccept (s : State) (l : Loc) (part : Nat) : Bool :=
  match l with
  | .hbm v _ => s.serverTurn v part && bufferRoom 2 64 ((s.serverQueue v).map (·.2)) part
  | .host _ => bufferRoom 8 128 (s.hostQueue.map (·.2)) part
  | _ => true

/-! Operations at a home. -/

/-- The new value of an atomic's location (none: no write) and its flags (07 R261): `x` the expected value, `v` the operand. -/
def AtOp.apply (op : AtOp) (w : Nat) (half : Bool) (old x v : Nat) : Option Nat × BitVec 5 :=
  let bits := 8 * w
  let m := 2 ^ bits
  match op with
  | .add => (some ((old + v) % m), 0)
  | .and => (some (old &&& v), 0)
  | .or => (some (old ||| v), 0)
  | .xor => (some (old ^^^ v), 0)
  | .min => (some (if intVal bits true old ≤ intVal bits true v then old else v), 0)
  | .minu => (some (Nat.min old v), 0)
  | .max => (some (if intVal bits true v ≤ intVal bits true old then old else v), 0)
  | .maxu => (some (Nat.max old v), 0)
  | .xchg => (some v, 0)
  | .cas => (if old = x then some v else none, 0)
  | .fadd =>
    let f := if half then bf16 else fp32
    let r := FV.add 0 (f.value old) (f.value v)
    let q := f.round 0 false 0 r.1
    (some q.1, r.2 ||| q.2)

/-- The low `w` bytes of a word as a number. -/
def lowBytes (w : Nat) (x : Word) : Nat := x.toNat % 2 ^ (8 * w)

/-- The atomics and reductions that the host interface unit performs (07 R265). -/
def hostAtomic (op : AtOp) (w : Nat) (returns : Bool) : Bool :=
  (w == 4 || w == 8) && (op == .add || (returns && (op == .xchg || op == .cas)))

/-- The answer of an operation at its home: a response, an acknowledgement or an error; none when the operation is held. -/
abbrev Answer := State × Option Body

/-- The dye that a request's energy in this package is charged to: 0 for one that came in at the ingress (16 R494). -/
def GReq.payer (r : GReq) : BitVec 16 := if r.ingress then 0 else r.dye

/-- The unit that an event at an on-chip home is logged for (17 R513): the core of an LM, else the requester's core; the spec numbers no other
unit (log entry 65). -/
def GReq.unit (r : GReq) : Nat := match r.loc with | .lm g _ => logCore g | _ => logCore (r.who.g % 1024)

/-- A read at LM, CM, DM or the host (02 R83, 17 R516). -/
def State.readPlain (s : State) (r : GReq) (e : Ecc) (n : Nat) (tags : State → BitVec 8) : Answer :=
  let s1 := match r.loc with | .host _ => s | l => s.chargeAt l r.payer n
  let s2 := if eccFixes e then s1.corrected r.part r.unit r.loc.off else s1
  if s.locBad r.loc n then (s2, some (.err r .poison))
  else if eccFails e then (s2.locSpoil r.loc n, some (.err r .poison))
  else (s2, some (.resp r (s2.locRead r.loc n) (tags s2) 0 0 0 false false))

/-- The version an HBM read chooses (02 R103-R106); none is REVOKED: the snapshot has been revoked, or the line holds no version at or below it. -/
def State.pickVer (s : State) (r : GReq) (v line : Nat) : Option Ver :=
  let l := s.lineAt line
  match r.mode with
  | .current _ => some (l.current (s.serverAt v).v)
  | .snapshot ts => if s.tss.revoked ts then none else l.snapshot ts
  | .tx x ts => match l.tentOf (.tx x) with
    | some y => some y
    | none => if s.tss.revoked ts then none else l.snapshot ts

/-- A read at a memory server (02 R103-R106, R110, R119, 03 R145, 17 R515): a current-mode read of a prepared line is held. -/
def State.readHbm (s : State) (r : GReq) (e : Ecc) (v dpa n : Nat) (tags : Ver → List Byte → BitVec 8) : Answer :=
  let line := dpa / 128
  let now := match r.mode with | .current _ => true | _ => false
  let s1 := match r.mode with | .current w => s.takeV v w | _ => s
  let l := s1.lineAt line
  if now && l.prep.isSome then (s1.setLine line { l with held := l.held ++ [(r, e)] }, none)
  else
    let s2 := (s1.directory v line r.payer).charge (meterServer v) r.payer .hbm 1
    match s2.pickVer r v line with
    | none => (s2, some (.err r .revoked))
    | some x =>
      let s3 := if eccFixes e then s2.hbmCorrected r.part v dpa x else s2
      if x.poison then (s3, some (.err r .poison))
      else if eccFails e then (s3.hbmFailed r.part v dpa r.payer x e, some (.err r .poison))
      else
        let bytes := Mem.read x.data (dpa % 128) n
        (s3, some (.resp r bytes (tags x bytes) x.ts (s3.serverAt v).v 0 false false))

/-- One line of a scrub (10 R396): the line is read and rewritten in place; no value, version, tag or order changes; an uncorrectable HBM line is
poisoned. The range's owner pays (15 R484), also for a scrub that another package asks for (DESIGN CHOICE, log entry 97). -/
def State.scrubLine (s : State) (r : GReq) (e : Ecc) : Answer :=
  match r.loc with
  | .hbm v dpa =>
    let owner := match s.rangeAt dpa with | some x => rangeOwner x | none => 0
    let pay := BitVec.ofNat 16 (owner * 4096)
    let s1 := (s.directory v (dpa / 128) pay).charge (meterServer v) pay .hbm 2
    let l := s1.lineAt (dpa / 128)
    let bad := l.cur.poison || eccFails e
    let s2 := if eccFixes e then s1.hbmCorrected r.part v dpa l.cur else s1
    let s3 := if eccFails e then s2.hbmFailed r.part v dpa pay l.cur e else s2
    (s3, some (.resp r [] 0 0 0 0 (eccFixes e) bad))
  | .host _ => (s, some (.err r .rights))
  | l =>
    let s1 := s.chargeAt l (BitVec.ofNat 16 (r.part * 4096)) 256
    let s2 := if eccFixes e then s1.corrected r.part r.unit l.off else s1
    (if eccFails e then s2.locSpoil l 128 else s2, some (.resp r [] 0 0 0 0 (eccFixes e) (s.locBad l 128 || eccFails e)))

/-- A transaction's tentative write at its home (02 R106, R107): dropped when the transaction is over; not made, and the transaction marked,
when it would be its 65,537th line or no slot can be made. -/
def State.txWrite (s : State) (r : GReq) (v dpa : Nat) (bytes : List Byte) (cap : Bool) (x : Nat) : State :=
  let line := dpa / 128
  match Tbl.find s.tss.txs x with
  | none => s
  | some t =>
    let isOver := match t.phase with | .ended _ _ => true | _ => false
    if isOver || t.who != r.who then s
    else if !t.lines.contains line && decide (65536 ≤ t.lines.length) then s.mapTx x fun t => { t with overCap := true }
    else
      let w := s.tentWrite v dpa bytes cap (.tx x) (some t.snap) r.dye
      if w.2 then w.1.mapTx x fun t => { t with lines := insertNat line t.lines }
      else w.1.mapTx x fun t => { t with overCap := true }

/-- The runs of bytes that no poisoned line gave, with their offsets. -/
def goodRuns : Nat → List (Byte × Bool) → List (Nat × List Byte)
  | _, [] => []
  | i, (b, bad) :: rest =>
    let more := goodRuns (i + 1) rest
    if bad then more
    else match more with
      | (j, bs) :: t => if j = i + 1 then (i, b :: bs) :: t else (i, [b]) :: more
      | [] => [(i, [b])]

/-- What a request writes outside HBM: all its bytes, or those of a copy that no poisoned line gave (10 R385). -/
def GReq.runs (r : GReq) (bytes : List Byte) : List (Nat × List Byte) :=
  if r.bad.any id then goodRuns 0 (bytes.zip r.bad) else [(0, bytes)]

/-- The bytes of a request written at an unversioned home. -/
def State.writeRuns (s : State) (r : GReq) (bytes : List Byte) (cap : Bool) (floor : Nat) : State :=
  (r.runs bytes).foldl (fun st w => (st.locWrite (r.loc.at_ (r.loc.off + w.1)) w.2 cap r.dye floor).1) s

/-- An HBM line with the poison of a copy's source carried to it (10 R385). -/
def State.carryPoison (s : State) (r : GReq) (line : Nat) : State :=
  if r.bad.any id then
    let l := s.lineAt line
    s.setLine line { l with cur := { l.cur with poison := true } }
  else s

/-- A write performed at its home (02 R93, R94, R101, R106, R110): a write to a prepared line is held; host memory takes no capability. -/
def State.writeAt (s : State) (r : GReq) (bytes : List Byte) (cap : Bool) (own : Option Owner) (floor : Nat) : Answer :=
  match r.loc with
  | .hbm v dpa =>
    let l := s.lineAt (dpa / 128)
    if l.prep.isSome then (s.setLine (dpa / 128) { l with held := l.held ++ [(r, .clean)] }, none)
    else match own with
      | some (.tx x) => (s.txWrite r v dpa bytes cap x, some (.ack r none 0))
      | _ =>
        let w := s.hbmWrite v dpa bytes cap r.dye floor r.payer
        (w.1.carryPoison r (dpa / 128), some (.ack r (some w.2) 0))
  | .host _ =>
    if s.hostRefused r.part || r.cap then (s, some (.err r .rights))
    else (s.writeRuns r bytes cap floor, some (.ack r none 0))
  | l => ((s.writeRuns r bytes cap floor).chargeAt l r.payer bytes.length, some (.ack r none 0))

/-- An atomic or reduction performed at its home (07 R261-R266): in HBM on the in-place version, committing singly whatever the mode; a
prepared line holds it. -/
def State.atomicAt (s : State) (r : GReq) (e : Ecc) (op : AtOp) (w : Nat) (half : Bool) (x v : Word) (floor : Nat) (ret : Bool) : Answer :=
  let reply (st : State) (old ts : Nat) (stamp : Option Nat) (vv : Nat) (fl : BitVec 5) : Answer :=
    (st, some (if ret then .resp { r with stamp := stamp } (natBytes w old) 0 ts vv fl false false else .ack r stamp fl))
  match r.loc with
  | .hbm srv dpa =>
    let line := dpa / 128
    let l := s.lineAt line
    if l.prep.isSome then (s.setLine line { l with held := l.held ++ [(r, e)] }, none)
    else
      let s1 := (s.charge (meterServer srv) r.payer .handler 1).charge (meterServer srv) r.payer .hbm 1
      let s2 := if eccFixes e then s1.hbmCorrected r.part srv dpa l.cur else s1
      if l.cur.poison then (s2.directory srv line r.payer, some (.err r .poison))
      else if eccFails e then ((s2.directory srv line r.payer).hbmFailed r.part srv dpa r.payer l.cur e, some (.err r .poison))
      else
        let old := bytesNat (Mem.read l.cur.data (dpa % 128) w)
        let a := op.apply w half old (lowBytes w x) (lowBytes w v)
        match a.1 with
        | none => reply (s2.directory srv line r.payer) old l.cur.ts none (s2.serverAt srv).v a.2
        | some y =>
          let z := s2.hbmWrite srv dpa (natBytes w y) false r.dye floor r.payer
          reply z.1 old l.cur.ts (some z.2) (z.1.serverAt srv).v a.2
  | .host _ =>
    if s.hostRefused r.part || !hostAtomic op w ret then (s, some (.err r .rights))
    else
      let old := bytesNat (s.locRead r.loc w)
      let a := op.apply w half old (lowBytes w x) (lowBytes w v)
      match a.1 with
      | none => reply s old 0 none 0 a.2
      | some y => reply (s.locWrite r.loc (natBytes w y) false r.dye floor).1 old 0 none 0 a.2
  | l =>
    let s1 := s.chargeAt l r.payer w
    if s.locBad l w then (s1, some (.err r .poison))
    else if eccFails e then (s1.locSpoil l w, some (.err r .poison))
    else
      let s2 := if eccFixes e then s1.corrected r.part r.unit l.off else s1
      let old := bytesNat (s2.locRead l w)
      let a := op.apply w half old (lowBytes w x) (lowBytes w v)
      match a.1 with
      | none => reply s2 old 0 none 0 a.2
      | some y => reply (s2.locWrite l (natBytes w y) false r.dye floor).1 old 0 none 0 a.2

/-- The tags of the eight granules of a 128-byte block, by a function of the granule's location (07 R288). -/
def blockTags (f : Nat → Bool) : BitVec 8 :=
  BitVec.ofNat 8 (((List.range 8).filter f).foldl (fun a i => a + 2 ^ i) 0)

/-- An operation performed at its home in arrival order (03 R128). -/
def State.perform (s : State) (r : GReq) (e : Ecc) : Answer :=
  match r.op with
  | .read n =>
    match r.loc with
    | .hbm v dpa => s.readHbm r e v dpa n fun _ _ => 0
    | .host _ => if s.hostRefused r.part then (s, some (.err r .rights)) else s.readPlain r e n fun _ => 0
    | _ => s.readPlain r e n fun _ => 0
  | .readCap gated =>
    let gate (tag : Bool) (bytes : List Byte) : BitVec 8 :=
      if tag && (!gated || capG (BitVec.ofNat 128 (bytesNat bytes))) then 1 else 0
    match r.loc with
    | .hbm v dpa => s.readHbm r e v dpa 16 fun x b => gate (x.tags.getLsbD (dpa % 128 / 16)) b
    | .host _ => if s.hostRefused r.part then (s, some (.err r .rights)) else s.readPlain r e 16 fun _ => 0
    | l => s.readPlain r e 16 fun st => gate (st.locTag l) (st.locRead l 16)
  | .readTags =>
    match r.loc with
    | .hbm v dpa => s.readHbm r e v dpa 16 fun x _ => x.tags
    | .host _ => (s, some (.resp r [] 0 0 0 0 false false))
    | l =>
      let b := l.off / 128 * 128
      s.readPlain r e 16 fun st => blockTags fun i => st.locTag (l.at_ (b + 16 * i))
  | .write bytes tag own floor => s.writeAt r bytes tag own floor
  | .atomic op w half x v floor ret => s.atomicAt r e op w half x v floor ret
  | .scrub _ => s.scrubLine r e

/-! Far accesses that reach this package (16 R494). -/

/-- The first cluster of a tree node. -/
def nodeFirst (n : Nat) : Nat := (n - 2 ^ nodeLevel n) * 2 ^ (4 - nodeLevel n) * 4

/-- A far access at its source home's ingress (16 R494): far epoch, rights, translation. Where the far pointer's base lets an access cross a
128-byte line of HBM, it ends with BOUNDS (log entry 66). -/
def State.ingress (s : State) (part : Nat) (epoch : BitVec 8) (dva n need : Nat) : Except Cause Loc × State :=
  let x := s.partAt part
  if x.node = 0 || x.farEpoch != epoch then (.error .rights, s)
  else match s.rangeCheck part need (BitVec.ofNat 64 dva) n with
    | some _ => (.error .rights, s)
    | none =>
      match s.translate part (nodeFirst x.node) 0 dva with
      | (.ok (.hbm v dpa), s1) => if 128 < dpa % 128 + n then (.error .bounds, s1) else (.ok (.hbm v dpa), s1)
      | x => x

/-- The walk of a far access at its ingress waits at a prepared line (02 R110, 15 R459). -/
def State.ingressWaits (s : State) (part dva : Nat) : Bool := s.walkWaits part (nodeFirst (s.partAt part).node) dva

/-- The right an operation needs (07 R249). -/
def GOp.need : GOp → Nat
  | .read _ => rightR
  | .readCap _ => rightR
  | .readTags => rightR
  | .write _ _ _ _ => rightW
  | .atomic _ _ _ _ _ _ _ => rightA
  | .scrub _ => rightW

/-- A far location of this package itself: partition, epoch and DVA. -/
def State.selfFar (s : State) (l : Loc) : Option (Nat × BitVec 8 × Nat) :=
  match l with
  | .far pkg part epoch dva => if pkg = s.bring.pkgid.toNat then some (part, epoch, dva) else none
  | _ => none

/-- Bytes of data that an answer carries. -/
def Body.size : Body → Nat
  | .resp _ bytes _ _ _ _ _ _ => bytes.length
  | _ => 0

/-- A unit of the device asked. -/
def GReq.device (r : GReq) : Bool := r.who.g == deviceBase

/-- An answer that comes to a unit of the device (16 R493). -/
def State.deviceGot (s : State) (r : GReq) (b : Body) : State :=
  match b with
  | .resp _ bytes tags _ _ _ _ _ => s.devAnswer r bytes tags none
  | .err _ c => s.devAnswer r [] 0 (some c)
  | _ => s.devAnswer r [] 0 none

/-- The answer goes back to the requester's core (02 R84), to the unit that asked, or to the egress port for another package's request. -/
def GReq.answer (r : GReq) (a : Answer) : State :=
  match a.2, r.remote with
  | none, _ => a.1
  | some b, some _ => (a.1.transport r.loc.node .egress r.payer b.size).post r.loc.node .egress b
  | some b, none =>
    if r.device then (a.1.transport r.loc.node .host r.payer b.size).deviceGot r b
    else (a.1.transport r.loc.node (.core r.who.g) r.payer b.size).post r.loc.node (.core r.who.g) b

/-- What the device's own units and its logs have waited for at prepared lines goes on (02 R110). -/
def State.heldOn (s : State) : State := (s.devOn s.devHeld.length).logsOn

/-- The operations held at a line of server v, performed in arrival order once no mark holds them (02 R110). -/
def State.performHeld (s : State) (v : Nat) : State :=
  ((s.linesOf v).filter fun e => e.2.prep.isNone && !e.2.held.isEmpty).foldl (fun st e =>
    e.2.held.foldl (fun st2 x => x.1.answer (st2.perform x.1 x.2)) (st.setLine e.1 { st.lineAt e.1 with held := [] })) s |>.heldOn

/-- A home takes up a request that nothing holds back (03 R128), by turns at a memory server (15 R479); an atomic or reduction there first takes a handler
thread (17 R510), unless its line is prepared, and is performed when it leaves it. `s1` is the state without the request's message; none when it must
wait. -/
def State.takeUp (s s1 : State) (r : GReq) (e : Ecc) : Option State :=
  match r.op, r.loc with
  | .atomic _ _ _ _ _ _ _, .hbm v dpa =>
    if s.threaded r then some (r.answer ((s1.leaveThread r).perform r e))
    else if (s.lineAt (dpa / 128)).prep.isSome then some (r.answer ((s1.turned r.loc r.part).perform r e))
    else (s.turned r.loc r.part).enterThread v r
  | _, _ => some (r.answer ((s1.turned r.loc r.part).perform r e))

/-- A far access to this package itself (16 R494): checked, translated and performed as at its ingress, in current mode, its energy charged to dye 0; what
it writes keeps its writer's dye. None while it must wait. -/
def State.serveSelf (s s1 : State) (r : GReq) (part : Nat) (epoch : BitVec 8) (dva : Nat) (e : Ecc) : Option State :=
  if s.ingressWaits part dva then none
  else
    let i := s.ingress part epoch dva r.op.size r.op.need
    let j := s1.ingress part epoch dva r.op.size r.op.need
    match i.1 with
    | .error c => some (r.answer (j.2, some (.err r c)))
    | .ok (.far _ _ _ _) => some (r.answer (j.2, some (.err r .rights)))
    | .ok loc =>
      let q : GReq := { r with loc := loc, mode := .current 0, part := part, ingress := true }
      if !s.threaded q && !s.mayAccept loc part then none else i.2.takeUp j.2 q e

/-- Message n is a request of a kind that its home may perform now: it is performed and answered (03 R128), by turns at a memory server (15 R479) and
after its process's older source reads there; a request for another package leaves by the egress port (16 R494). -/
def State.homeStep (s : State) (n : Nat) (kind : GOp → Bool) (e : Ecc) : State :=
  match s.takeMsg n with
  | some (⟨_, _, .req r⟩, s1) =>
    if !kind r.op || (!s.threaded r && (!s.unblocked r || !s.mayServe n || s.olderSource r.who r.oid r.loc)) then s
    else if r.loc.isFar then
      match s.selfFar r.loc with
      | some (part, epoch, dva) => (s.serveSelf s1 r part epoch dva e).getD s
      | none => (s1.sendFar r).getD s
    else (s.takeUp s1 r e).getD s
  | _ => s

/-- HOME_READ (03 R128): a read, tag read or scrub request is performed. -/
def execHomeRead (n : Nat) (e : Ecc) (s : State) : Res :=
  .next (s.homeStep n (fun o => match o with | .read _ | .readCap _ | .readTags | .scrub _ => true | _ => false) e)

/-- HOME_WRITE (02 R101): a write that came over the mesh, or was held at a prepared line, is performed. -/
def execHomeWrite (n : Nat) (s : State) : Res :=
  .next (s.homeStep n (fun o => match o with | .write _ _ _ _ => true | _ => false) .clean)

/-- HOME_ATOMIC (02 R86). -/
def execHomeAtomic (n : Nat) (e : Ecc) (s : State) : Res :=
  .next (s.homeStep n (fun o => match o with | .atomic _ _ _ _ _ _ _ => true | _ => false) e)

/-- The location of a request's home in this package: a far access to this package itself is translated. -/
def State.homeLoc (s : State) (r : GReq) : Option GReq :=
  match s.selfFar r.loc with
  | none => some r
  | some (part, epoch, dva) =>
    match (s.ingress part epoch dva r.op.size r.op.need).1 with
    | .ok loc => some { r with loc := loc, part := part, ingress := true }
    | .error _ => none

/-- ATOMIC_WATCHDOG (02 R86, 17 R510): an atomic or reduction whose HBM read is retried in its handler thread is abandoned, its location unchanged;
the thread is free, WATCHDOG is logged and answered. The operation and the read that did not end are charged. -/
def execAtomicWatchdog (n : Nat) (s : State) : Res :=
  match s.takeMsg n with
  | some (⟨_, _, .req r⟩, s1) =>
    match s.homeLoc r with
    | some q =>
      match q.op, q.loc with
      | .atomic _ _ _ _ _ _ _, .hbm v dpa =>
        if s.threaded q && (s.lineAt (dpa / 128)).prep.isNone then
          let s2 := ((s1.leaveThread q).charge (meterServer v) q.payer .handler 1).charge (meterServer v) q.payer .hbm 1
          .next (q.answer (s2.logEvent 8 q.part v dpa 0, some (.err q .watchdog)))
        else .next s
      | _, _ => .next s
    | none => .next s
  | _ => .next s

/-- The request that a queued write makes of its home. -/
def WqE.request (e : WqE) : GReq :=
  { oid := e.oid, who := e.who, dye := e.dye, part := e.part, loc := e.loc, op := .write e.bytes e.cap e.own e.floor
    mode := .current 0, behind := [], behindEq := [], cap := e.isCap, bad := e.bad }

/-- An older request or source read of the same process and home is still on its way (03 R134). -/
def State.olderRequest (s : State) (e : WqE) : Bool := s.olderAt e.who e.oid e.loc || s.olderSource e.who e.oid e.loc

/-- WRITE_QUEUE_DRAIN (02 R90, R92): the entry of place k leaves cluster c's queue when its home accepts it, same-home entries in order; a
write to another package goes on into the egress queue when that has room. Cluster 64 names the egress queue itself, whose entry is sent to its
package and leaves on the reply (log entry 20). -/
def execWriteQueueDrain (c k : Nat) (s : State) : Res :=
  if c < Config.numClusters then
    let cl := s.clusterAt c
    match cl.wq.find? fun e => e.seq == k with
    | none => .next s
    | some e =>
      if (cl.wq.any fun x => x.loc.sameHome e.loc && decide (x.seq < k)) || s.olderRequest e || !s.mayAccept e.loc e.part then .next s
      else
        let s1 := s.setCluster c { cl with wq := cl.wq.filter fun x => x.seq != k }
        if e.loc.isFar then
          if !s.egressRoom e.part then .next s
          else .next { s1 with egress := s1.egress ++ [{ e with seq := s1.egressSeq }], egressSeq := s1.egressSeq + 1 }
        else .next (e.request.answer ((s1.turned e.loc e.part).perform e.request .clean))
  else
    match s.egress.find? fun e => e.seq == k with
    | none => .next s
    | some e =>
      let sent (x : WqE) : Bool := s.farOut.any fun r => r.oid == x.oid
      if sent e || s.egress.any fun x => x.loc.sameHome e.loc && decide (x.seq < k) && !sent x then .next s
      else match s.selfFar e.loc with
        | some (part, epoch, dva) =>
          .next ((s.serveSelf { s with egress := s.egress.filter fun x => x.seq != k } e.request part epoch dva .clean).getD s)
        | none => .next ((s.sendFar e.request).getD s)

/-! What comes back to a core. -/

/-- The V of an HBM read response raises its process's VSEEN (03 R145), as the process's own loads, its copies' source reads and its third-party reads bring
it (DEDUCED, log entry 88). -/
def State.seen (s : State) (who : PRef) (v : Nat) : State :=
  match s.find who with
  | some p => if v ≤ p.vseen.toNat then s else s.update who { p with vseen := BitVec.ofNat 64 (max p.vseen.toNat v) }
  | none => s

/-- The register that an operation's data goes to, or the first of its pair. -/
def Dest.reg? : Dest → Option Reg
  | .reg a _ _ => some a
  | .pair a _ => some a
  | .tags a => some a
  | .scrub a _ _ _ _ => some a
  | .desc _ => none

/-- A register is written for a process: an uncached one's workspace line is dirty (01 R24, 14 R451). -/
def State.land (s : State) (g k : Nat) (a : Reg) : State := s.setCore g ((s.coreAt g).land k a)

/-- The process without an outstanding operation. -/
def Proc.dropOut (p : Proc) (oid : Nat) : Proc := { p with outs := p.outs.filter fun o => o.oid != oid }

/-- The stamp of an atomic's own write, kept for the process's next release (02 R102, 03 R139). -/
def Proc.stamped (p : Proc) (o : Out) (stamp : Option Nat) : Proc :=
  match stamp with
  | none => p
  | some t => { p with
      ackMax := max p.ackMax t
      acks := (p.acks.filter fun a => decide (p.floor.toNat < a.2.2)) ++ (if p.floor.toNat < t then [(o.ea.toNat, o.len, t)] else []) }

/-- Data deposited into the destination of an outstanding operation (02 R85, 07 R258, R261, R264, R288, 10 R396), floor, VSEEN and flags with
it (02 R102, 03 R145). -/
def Proc.deposit (p : Proc) (o : Out) (r : GReq) (bytes : List Byte) (tags : BitVec 8) (ts v : Nat) (flags : BitVec 5) (fixed bad : Bool) :
    Proc :=
  let q := ({ p.raise flags with floor := BitVec.ofNat 64 (max p.floor.toNat ts), vseen := BitVec.ofNat 64 (max p.vseen.toNat v) }).stamped o r.stamp
  match o.dest with
  | .reg a n signed => (q.dropOut o.oid).setReg a (extend n signed bytes)
  | .pair a cap => (q.dropOut o.oid).setPair a (pairWords bytes).1 (pairWords bytes).2 (cap && tags.getLsbD 0)
  | .tags a => (q.dropOut o.oid).setReg a (tags.setWidth 64)
  | .desc i =>
    let d := q.dropOut o.oid
    match d.wait with
    | .desc pc got f => { d with wait := .desc pc (got ++ [(i, if tags.getLsbD 0 then some (BitVec.ofNat 128 (bytesNat bytes)) else none)]) f }
    | _ => d
  | .scrub a lines done fx bd =>
    let i := match r.op with | .scrub i => i | _ => 0
    let bit : Word := BitVec.ofNat 64 (2 ^ i)
    let fx' := if fixed then fx ||| bit else fx
    let bd' := if bad then bd ||| bit else bd
    if done + 1 < lines then
      { q with outs := q.outs.map fun x => if x.oid == o.oid then { x with dest := .scrub a lines (done + 1) fx' bd' } else x }
    else (q.dropOut o.oid).setPair a fx' bd' false

/-- LOAD_DATA_ARRIVAL (02 R85): the data of a read or returning atomic is deposited; a killed process's is discarded (13 R421). -/
def execLoadDataArrival (n : Nat) (s : State) : Res :=
  match s.takeMsg n with
  | some (⟨_, .egress, .resp r bytes tags ts v flags fixed bad⟩, s1) =>
    .next ((s1.sendReply r (.resp r bytes tags ts v flags fixed bad)).getD s)
  | some (⟨_, _, .resp r bytes tags ts v flags fixed bad⟩, s1) =>
    match s1.find r.who with
    | none => .next s1
    | some p =>
      match p.outs.find? fun o => o.oid == r.oid with
      | none => .next s1
      | some o =>
        let s2 := match o.dest.reg? with | some a => s1.land r.who.g r.who.slot a | none => s1
        .next (s2.update r.who (p.deposit o r bytes tags ts v flags fixed bad))
  | _ => .next s

/-- The process with the error of its access pending (07 R250, R251). -/
def Proc.fail (p : Proc) (oid : Nat) (c : Cause) : Proc :=
  match p.outs.find? fun o => o.oid == oid with
  | some o =>
    match o.dest, p.wait with
    | .desc _, .desc pc got _ => { p.dropOut oid with wait := .desc pc got (some c) }
    | .desc _, _ => p.dropOut oid
    | _, _ => { p.dropOut oid with faults := p.faults ++ [{ seq := o.seq, cause := c, fpc := o.pc, info := o.ea }] }
  | none =>
    match p.stores.find? fun o => o.oid == oid with
    | some o =>
      { p with stores := p.stores.filter fun x => x.oid != oid
               faults := p.faults ++ [{ seq := o.seq, cause := c, fpc := o.pc, info := o.ea }] }
    | none => p

/-- ERROR_RESPONSE (07 R251): the deferred fault is pending from now on. -/
def execErrorResponse (n : Nat) (s : State) : Res :=
  match s.takeMsg n with
  | some (⟨_, .egress, .err r c⟩, s1) => .next ((s1.sendReply r (.err r c)).getD s)
  | some (⟨_, _, .err r c⟩, s1) =>
    match s1.find r.who with
    | none => .next s1
    | some p => .next (s1.update r.who (p.fail r.oid c))
  | _ => .next s

/-- The process with a write acknowledged (03 R139, 07 R266): flags raised, a plain HBM write's stamp kept, with its bytes while it is above the
floor (03 R143). -/
def Proc.acked (p : Proc) (oid : Nat) (stamp : Option Nat) (flags : BitVec 5) : Proc :=
  let t := stamp.getD 0
  { p.raise flags with
    stores := p.stores.filter fun x => x.oid != oid
    ackMax := max p.ackMax t
    acks := (p.acks.filter fun a => decide (p.floor.toNat < a.2.2)) ++
      ((p.stores.filter fun x => x.oid == oid && decide (p.floor.toNat < t)).map fun x => (x.ea.toNat, x.len, t)) }

/-- STORE_ACKNOWLEDGEMENT (03 R139, 07 R266): the write is acknowledged, its stamp kept for the next release, a reduction's flags
raised. -/
def execStoreAcknowledgement (n : Nat) (s : State) : Res :=
  match s.takeMsg n with
  | some (⟨_, .egress, .ack r stamp flags⟩, s1) => .next ((s1.sendReply r (.ack r stamp flags)).getD s)
  | some (⟨_, _, .ack r stamp flags⟩, s1) =>
    match s1.find r.who with
    | none => .next s1
    | some p =>
      .next (s1.update r.who (p.acked r.oid stamp flags))
  | _ => .next s

/-- Past its point of no return, so a hold saves the process, and a fault is taken, only afterwards (07 R278, R280). -/
def Proc.committed (p : Proc) : Bool := match p.wait with | .txc _ => true | .pub _ _ => true | _ => false

/-- The running process takes a deferred fault at its boundary (07 R251): what its instruction waited for is withdrawn. -/
def State.faultNow (s : State) (g k : Nat) (f : PFault) : State :=
  let s1 := s.cancelWait (s.procAt g k)
  s1.takeDeferred g k (s1.procAt g k) f

/-- DEFERRED_FAULT_TRAP (07 R251): at a boundary, the running process takes its oldest pending deferred fault. A reply's trap comes first (08 R299), and
an instruction past its point of no return ends first. -/
def execDeferredFaultTrap (g : Nat) (s : State) : Res :=
  match (s.coreAt g).run with
  | none => .next s
  | some k =>
    let p := s.procAt g k
    match p.oldestFault, p.blk with
    | none, _ => .next s
    | some _, .replyTrap _ _ => .next s
    | some f, _ => if p.committed then .next s else .next (s.faultNow g k f)

/-- The dye and partition that a walk of cluster c made ahead of its access is charged to (15 R484; log entry 86): those of the process that runs on
the core whose turn it is, where that core is the cluster's, else those of the first process that runs there; dye 0 where none does. -/
def State.walkDye (s : State) (c : Nat) : BitVec 16 :=
  let dyeOf (g : Nat) : Option (BitVec 16) := (s.coreAt g).run.map fun k => (s.procAt g k).dye
  let own := if clusterOf s.cur = c then dyeOf s.cur else none
  ((own :: (List.range 16).map fun i => dyeOf (16 * c + i)).findSome? id).getD 0

/-- TRANSLATION_WALK (15 R459, R461): a walk through cluster c, from its deepest cached pointer; the pointers met and the leaf that translates the DVA come
into its translation cache, and the reads are charged. -/
def execTranslationWalk (c : Nat) (dva : BitVec 52) (s : State) : Res :=
  let dye := s.walkDye c
  let part := (dye.extractLsb' 12 4).toNat
  if isWindow dva.toNat || s.walkWaits part c dva.toNat || ((s.clusterAt c).cachedLeaf dva.toNat).isSome then .next s
  else .next (s.walkThrough part c dye dva.toNat).2

/-- PLB_MISS (15 R467): the domain entry that covers a DVA comes from the partition controller into core g's PLB, which holds 32; entries of the PLB
agree with the domain table, so no check depends on it. The request and the entry are charged to the running process's dye (15 R538), else to account 0
of the partition. -/
def execPlbMiss (g : Nat) (dva : BitVec 52) (s : State) : Res :=
  match s.partOfCore g with
  | none => .next s
  | some p =>
    let hit := (s.partAt p).domains.find? fun e => match domainEntry e.2 with
      | some (b, n, _) => decide (b ≤ dva.toNat) && decide (dva.toNat < b + n)
      | none => false
    match hit with
    | none => .next s
    | some e =>
      let c := s.coreAt g
      let dye := match c.run with | some k => (c.procAt k).dye | none => BitVec.ofNat 16 (4096 * p)
      if c.plb.contains e.1 then .next s
      else .next (((s.setCore g { c with plb := (e.1 :: c.plb).take 32 }).transport (.core g) .tss dye 0).transport .tss (.core g) dye 8)

end Sys2Proof.Machine
end

