-- ==== Sys2Proof/Machine/Versions.lean ====
section
/-! DEFINITION. Fences (07 R267, R268), snapshots (R269-R273), transactions (R274-R278), publishing (R279, R280), and the steps of the
timestamp service and the homes that carry them out (02 R98-R117). -/

namespace Sys2Proof.Machine

/-! Fences. -/

/-- FENCE.s: the steps of a release without a write (03 R142, 07 R267). -/
def execFence (m : BitVec 2) (s : State) : Res :=
  s.withProc fun g k p => s.afterRelease g k p m.toNat none fun q => .next (s.retire g k q)

/-- FENCER.s: the same for the accesses of a range (03 R143, 07 R268). -/
def execFencer (m : BitVec 2) (b c : Reg) (s : State) : Res :=
  s.withProc fun g k p =>
    if p.awaits [b, c] || p.acquiring then s.stall
    else
      let base := p.reg b
      let len := (p.reg c).toNat
      if 2 ^ 52 ≤ base.toNat then .next (s.trap g k p .bounds base)
      else if len = 0 then .next (s.retire g k p)
      else if 2 ^ 52 < base.toNat + len then .next (s.trap g k p .bounds base)
      else s.afterRelease g k p m.toNat (some (base.toNat, len)) fun q => .next (s.retire g k q)

/-! Snapshots. -/

/-- Some entry of a write queue is the process's own (02 R105). -/
def State.ownQueued (s : State) (who : PRef) : Bool :=
  ((s.clusterAt (clusterOf who.g)).wq.any fun e => e.who == who) || s.egress.any fun e => e.who == who

/-- The snapshot request of a waiting process. -/
def State.snapReq (s : State) (k : Nat) : Option SnapReq := s.tss.reqs.find? fun r => r.k == k

/-- A snapshot is asked for, by a message to the service (02 R536): the process waits for the reply. -/
def State.askSnapshot (s : State) (g k : Nat) (p : Proc) (for_ : SnapFor) : State :=
  let f := s.fresh
  let s1 := (f.2.setProc g k { p with wait := .snap p.pc f.1 }).leg (.core g) .tss p.dye
  { s1 with tss := { s1.tss with reqs := s1.tss.reqs ++
      [{ k := f.1, for_ := for_, ts := 0, issued := false, marks := [], acks := [], replied := false, g := g, dye := p.dye }] } }

/-- The request is answered and leaves the service's list. -/
def State.takeReply (s : State) (k : Nat) : State :=
  { s with tss := { s.tss with reqs := s.tss.reqs.filter fun r => r.k != k } }

/-- SNAPSET (07 R271). -/
def execSnapset (a : Reg) (s : State) : Res :=
  s.withProc fun g k p =>
    if p.awaits [a] || p.acquiring then s.stall
    else if p.txid != 0 then .next (s.retire g k (p.setReg a 0))
    else
      let begin_ (_ : Unit) : Res :=
        let d := s.dropHold p
        if d.1.ownQueued (s.pref g k) then .next (d.1.setProc g k d.2)
        else .next (d.1.askSnapshot g k d.2 (.set (s.pref g k)))
      match p.wait with
      | .snap pc n =>
        match s.snapReq n with
        | none => begin_ ()
        | some r =>
          if pc != p.pc then begin_ ()
          else if !r.replied then s.stall
          else
            let ts : Word := BitVec.ofNat 64 r.ts
            let q := { p with snap := ts, sm := true, floor := BitVec.ofNat 64 (max p.floor.toNat r.ts) }
            .next ((s.takeReply n).retire g k (q.setReg a ts))
      | _ => begin_ ()

/-- SNAPREG: a live SNAPSET snapshot joined (07 R271), by a message to the service and its reply. -/
def execSnapreg (a : Reg) (s : State) : Res :=
  s.withProc fun g k p =>
    if p.awaits [a] || p.acquiring then s.stall
    else if p.txid != 0 then .next (s.retire g k (p.setReg a 2))
    else
      let t := p.reg a
      let asked := (s.leg (.core g) .tss p.dye).leg .tss (.core g) p.dye
      if !s.tss.live.any fun x => x.ts == t.toNat && !x.tx && !x.harvest then .next (asked.retire g k (p.setReg a 1))
      else if p.snap = t && p.sm then .next (asked.retire g k (p.setReg a 0))
      else
        let s1 : State := { asked with tss := { s.tss with snaps := s.tss.snaps.map fun (x : Snap) =>
          if x.ts == t.toNat && !x.tx && !x.harvest then { x with holders := x.holders + 1 } else x } }
        let d := s1.dropHold p
        let q := { d.2 with snap := t, sm := true, floor := BitVec.ofNat 64 (max p.floor.toNat t.toNat) }
        .next (d.1.retire g k (q.setReg a 0))

/-- SNAPREL (07 R272): its message to the service is posted. -/
def execSnaprel (s : State) : Res :=
  s.withProc fun g k p =>
    if p.acquiring then s.stall
    else
      let d := s.dropHold p
      .next ((d.1.leg (.core g) .tss p.dye).retire g k d.2)

/-! Transactions. -/

/-- Free TXIDs in ascending order (02 R107). -/
def Tss.freeTxids (t : Tss) : List Nat := (List.range 4096).map (· + 1) |>.filter fun x => (Tbl.find t.txs x).isNone

/-- The TXID that the service hands out: some free value (02 R107, a free value). -/
def State.pickTxid (s : State) : Option Nat :=
  let l := s.tss.freeTxids
  if l.isEmpty then none else l[Config.txidChoice s.freeCtr % l.length]?

/-- A transaction just begun. -/
def Tx.zero (who : PRef) (l : LRef) : Tx where
  who := who
  launch := l
  snap := 0
  homes := []
  lines := []
  overCap := false
  span := false
  phase := .open_
  asked := []
  votes := []
  applied := []
  toAbort := []
  aborted := []
  closed := false

/-- TXB (07 R275): a FENCE.PKG, then a free TXID and a snapshot. -/
def execTxb (a : Reg) (s : State) : Res :=
  s.withProc fun g k p =>
    if p.awaits [a] || p.acquiring then s.stall
    else if p.txid != 0 then .next (s.retire g k (p.setReg a 0))
    else
      let begin_ (_ : Unit) : Res := s.afterRelease g k p scopePkg none fun q =>
        let d := s.dropHold q
        match s.pickTxid with
        | none => .next (d.1.setProc g k d.2)
        | some x =>
          if s.ownQueued (s.pref g k) then .next (d.1.setProc g k d.2)
          else
            let s1 : State := { d.1 with
              tss := { d.1.tss with txs := Tbl.put d.1.tss.txs x { Tx.zero (s.pref g k) p.launch with dye := p.dye } }
              freeCtr := d.1.freeCtr + 1 }
            .next (s1.askSnapshot g k d.2 (.tx (s.pref g k) x))
      match p.wait with
      | .snap pc n =>
        match s.snapReq n with
        | none => begin_ ()
        | some r =>
          match r.for_ with
          | .tx _ x =>
            if pc != p.pc then begin_ ()
            else if !r.replied then s.stall
            else
              let ts : Word := BitVec.ofNat 64 r.ts
              let q := { p with txid := BitVec.ofNat 13 x, snap := ts, floor := BitVec.ofNat 64 (max p.floor.toNat r.ts) }
              .next ((s.takeReply n).retire g k (q.setReg a ts))
          | _ => begin_ ()
      | _ => begin_ ()

/-- TXC's results (07 R276): status and timestamp in the pair, no transaction, floor and VSEEN raised by a commit. -/
def Proc.endTx (p : Proc) (a : Reg) (status c : Nat) : Proc :=
  let q := if status = 0 then { p with vseen := BitVec.ofNat 64 (max p.vseen.toNat c), floor := BitVec.ofNat 64 (max p.floor.toNat c) }
    else p
  { q with txid := 0, snap := 0, sm := false }.setPair a (BitVec.ofNat 64 status) (BitVec.ofNat 64 c) false

/-- The transaction's process is done with it. -/
def State.closeTx (s : State) (x : Nat) : State :=
  let s1 := s.mapTx x fun t => { t with closed := true }
  { s1 with tss := s1.tss.reap }

/-- The committed transaction's snapshot is released and its TXID is free: it sent no ABORT (02 R108). -/
def State.commitTx (s : State) (x : Nat) (t : Tx) : State :=
  { s with tss := { s.tss.drop t.snap true with txs := Tbl.del s.tss.txs x } }

/-- TXC (02 R108, 07 R276): a FENCE.PKG, then the votes of every written home, APPLY or ABORT, and the status. -/
def execTxc (a : Reg) (s : State) : Res :=
  s.withProc fun g k p =>
    if p.awaits [a, oddOf a] || p.acquiring then s.stall
    else if p.txid = 0 then .next (s.retire g k (p.setPair a 0 0 false))
    else
      let x := p.txid.toNat
      match Tbl.find s.tss.txs x with
      | none => .next (s.retire g k (p.endTx a 0 0))
      | some t =>
        let begin_ (_ : Unit) : Res := s.afterRelease g k p scopePkg none fun q =>
          if t.span then .next (((s.abortTx x 4).closeTx x).retire g k (q.endTx a 4 0))
          else if t.overCap then .next (((s.abortTx x 3).closeTx x).retire g k (q.endTx a 3 0))
          else if t.lines.isEmpty then .next ((s.commitTx x t).retire g k (q.endTx a 0 0))
          else .next ((s.mapTx x fun t => { t with phase := .preparing, asked := t.homes }).setProc g k { q with wait := .txc p.pc })
        match p.wait with
        | .txc _ =>
          match t.phase with
          | .open_ => begin_ ()
          | .preparing => s.stall
          | .applying c =>
            if (t.homes.all fun h => t.applied.contains h) && decide (c ≤ s.tss.v) then
              .next ((s.commitTx x t).retire g k (p.endTx a 0 c))
            else s.stall
          | .ended st c => .next ((s.closeTx x).retire g k (p.endTx a st c))
        | _ => begin_ ()

/-- TXA (07 R277). -/
def execTxa (s : State) : Res :=
  s.withProc fun g k p =>
    if p.acquiring then s.stall
    else
      let d := s.abandon p
      .next (d.1.retire g k d.2)

/-! Publishing. -/

/-- The write-set id that a copy is tagged with. -/
def Copy.wsid (c : Copy) : Nat := (stg c.x 8).toNat % 4096

/-- Incomplete copies of a launch tagged with a set, by their places in the order (07 R280). -/
def State.setCopies (s : State) (l : LRef) (id : Nat) : List Nat :=
  s.clusters.flatMap fun e => (e.2.journal.filter fun c => c.launch == l && c.wsid == id && c.finished.isNone).map (·.seq)

/-- The set version as its log makes it (10 R383): a write of the whole line clears the poison (02 R119). -/
def SetLine.version (x : SetLine) : Ver :=
  x.writes.foldl (fun v w =>
    let y := v.write w.2.1 w.2.2.1 false
    { y with poison := y.poison || w.2.2.2 }) x.base

/-- The copies that have not completed, by their places in the order. -/
def State.pendingCopies (s : State) : List Nat :=
  s.clusters.flatMap fun e => (e.2.journal.filter fun c => c.finished.isNone).map (·.seq)

/-- The log of a set's version of a line. -/
def State.setLineOf (s : State) (line : Nat) (o : Owner) : Option SetLine := s.setLog.find? fun x => x.line == line && x.own == o

/-- A set has a version of a line that a completed copy has written: what incomplete copies have written is never published (10 R383). -/
def State.publishable (s : State) (line : Nat) (o : Owner) : Bool :=
  ((s.lineAt line).tentOf o).isSome && (match s.setLineOf line o with
    | some x => x.writes.any fun w => !s.pendingCopies.contains w.1
    | none => true)

/-- The servers that hold versions of a set (02 R114). -/
def State.setHomes (s : State) (o : Owner) : List Nat :=
  (s.hbm.filterMap fun e => if s.publishable e.1 o then s.hbmHome (e.1 * 128) else none).foldl (fun l v => insertNat v l) []

/-- A publish applied to one line (02 R114): the set's version goes in place, as for a commit; where incomplete copies have written it, what the completed
ones have written goes in place, and the rest stays the set's version, for a later publish (10 R383; DEDUCED, log entry 87). -/
def State.publishLine (s : State) (line c : Nat) (o : Owner) : State :=
  if !s.publishable line o then s
  else match s.setLineOf line o with
    | none => s.applyLine line c o
    | some x =>
      let others := s.setLog.filter fun y => !(y.line == line && y.own == o)
      let late := x.writes.filter fun w => s.pendingCopies.contains w.1
      if late.isEmpty then { s.applyLine line c o with setLog := others }
      else
        let y := SetLine.version { x with writes := x.writes.filter fun w => !s.pendingCopies.contains w.1 }
        let rest : SetLine := { x with base := y, writes := late }
        let l := s.lineAt line
        { s.setLine line { l with
            cur := { y with ts := c, plain := false, holdV := 0 }
            pool := { l.cur with holdV := c } :: l.pool
            tent := l.tent.map fun e => if e.1 == o then (o, rest.version) else e } with setLog := rest :: others }

/-- The server after it has applied publish c (02 R99, R114). -/
def State.publishAt (s : State) (v c : Nat) (o : Owner) : State :=
  let s1 := (s.linesOf v).foldl (fun st e => st.publishLine e.1 c o) s
  let srv := s1.serverAt v
  s1.setServer v { srv with eh := max srv.eh c }

/-- PUB (07 R279, R280). -/
def execPub (a : Reg) (s : State) : Res :=
  s.withProc fun g k p =>
    if p.awaits [a, oddOf a] || p.acquiring then s.stall
    else
      let id := (p.reg a).toNat
      if id = 0 ∨ 4095 < id then .next (s.retire g k (p.setPair a 2 0 false))
      else
        let l := p.launch
        let begin_ (_ : Unit) : Res := .next ((s.setProc g k { p with wait := .pubCopies p.pc (s.setCopies l id) }).leg
          (.core g) .tss p.dye)
        match p.wait with
        | .pubCopies pc cs =>
          if pc != p.pc then begin_ ()
          else if (s.setCopies l id).any fun c => cs.contains c then s.stall
          else if s.tss.pubs.any fun x => x.launch == l && x.id == id && !x.homes.isEmpty then s.stall
          else
            let homes := s.setHomes (.set l id)
            if homes.isEmpty then .next ((s.retire g k (p.setPair a 1 0 false)).leg .tss (.core g) p.dye)
            else
              let i := s.tss.issue
              let f := s.fresh
              let t : Tss := { i.2 with pubs := i.2.pubs ++ [{ k := f.1, launch := l, id := id, ts := i.1, homes := homes, g := g, dye := p.dye }] }
              let s1 : State := { f.2 with tss := t }
              .next (s1.setProc g k { p with wait := .pub p.pc i.1 })
        | .pub pc ts =>
          if pc != p.pc then begin_ ()
          else match s.tss.pubs.find? fun x => x.ts == ts with
            | some x =>
              if x.homes.isEmpty && decide (ts ≤ s.tss.v) then
                let q := { p with vseen := BitVec.ofNat 64 (max p.vseen.toNat ts), floor := BitVec.ofNat 64 (max p.floor.toNat ts) }
                let s1 : State := { s with tss := { s.tss with pubs := s.tss.pubs.filter fun y => y.ts != ts } }
                .next ((s1.retire g k (q.setPair a 0 (BitVec.ofNat 64 ts) false)).leg .tss (.core g) p.dye)
              else s.stall
            | none => begin_ ()
        | _ => begin_ ()

/-! The steps of a snapshot (02 R99). -/

/-- The service with request k changed. -/
def State.mapReq (s : State) (k : Nat) (f : SnapReq → SnapReq) : State :=
  { s with tss := { s.tss with reqs := s.tss.reqs.map fun r => if r.k == k then f r else r } }

/-- The partition and launch that a snapshot is for. -/
def State.snapOwner (s : State) (x : SnapFor) : Nat × LRef :=
  let of (r : PRef) : Nat × LRef := match s.find r with
    | some p => (p.part, p.launch)
    | none => (0, { fn := 0, lid := 0 })
  match x with
  | .set r => of r
  | .tx r _ => of r
  | .harvest fn => (match (s.fnAt fn).harvest with | some h => rangeOwner (Tbl.get 0 s.ranges h.entry) | none => fn, { fn := fn, lid := 0 })

/-- Snapshots that SNAPSET and harvests may hold live (07 R270). -/
def maxSnaps : Nat := 4096

/-- SNAPSHOT_REQUEST (02 R99): the service issues the timestamp, registers the snapshot and sends a marker to every server. -/
def execSnapshotRequest (k : Nat) (s : State) : Res :=
  match s.snapReq k with
  | none => .next s
  | some r =>
    let tx := match r.for_ with | .tx _ _ => true | _ => false
    if !s.tss.ready || r.issued || (!tx && decide (maxSnaps ≤ (s.tss.live.filter fun x => !x.tx).length)) then .next s
    else
      let i := s.tss.issue
      let o := s.snapOwner r.for_
      let t : Tss := { i.2 with snaps := i.2.snaps ++
        [{ ts := i.1, tx := tx, holders := 1, part := o.1, launch := o.2, revoked := false
           harvest := (match r.for_ with | .harvest _ => true | _ => false) }] }
      let s1 : State := { s with tss := t.advance }
      let homes := (s.servers.filter fun e => e.2.ready).map (·.1)
      let s2 := homes.foldl (fun st v => st.leg .tss (.server v) r.dye) (s1.mapReq k fun x => { x with ts := i.1, issued := true, marks := homes })
      match r.for_ with
      | .tx _ x => .next (s2.mapTx x fun y => { y with snap := i.1 })
      | _ => .next s2

/-- EPOCH_MARKER (02 R99): the server's store epoch passes the snapshot; the firn line and newest live value sent before the marker are in
force (00 R11, 02 R115). -/
def execEpochMarker (k srv : Nat) (s : State) : Res :=
  match s.snapReq k with
  | none => .next s
  | some r =>
    if !r.marks.contains srv then .next s
    else
      let v := s.serverAt srv
      let s1 := (s.setServer srv { v with eh := max v.eh (r.ts + 1) }).takeFirn srv
      .next ((s1.mapReq k fun x => { x with marks := x.marks.filter (· != srv), acks := srv :: x.acks }).leg (.server srv) .tss r.dye)

/-- EPOCH_MARKER_ACKNOWLEDGEMENT (02 R99). -/
def execEpochMarkerAcknowledgement (k srv : Nat) (s : State) : Res :=
  .next (s.mapReq k fun x => { x with acks := x.acks.filter (· != srv) })

/-- SNAPSHOT_REPLY (02 R99, R536): every marker acknowledged and V at s - 1. -/
def execSnapshotReply (k : Nat) (s : State) : Res :=
  match s.snapReq k with
  | none => .next s
  | some r =>
    if r.issued && r.marks.isEmpty && r.acks.isEmpty && decide (r.ts ≤ s.tss.v + 1) then
      match r.for_ with
      | .harvest fn =>
        let f := s.fnAt fn
        .next ((s.takeReply k).setFn fn { f with hvsnap := BitVec.ofNat 64 r.ts
                                                 harvest := f.harvest.map fun h => { h with started := true } })
      | _ => .next ((s.mapReq k fun x => { x with replied := true }).leg .tss (.core r.g) r.dye)
    else .next s

/-- WATERMARK_BROADCAST (02 R100): server `srv` receives and acknowledges a value of V that the service has reached. Its leg and the acknowledgement's are
charged to dye 0 (02 R536, 15 R538; log entry 83). -/
def execWatermarkBroadcast (srv v : Nat) (s : State) : Res :=
  if (s.serverAt srv).ready && decide (v ≤ s.tss.v) then
    let s1 := ((s.leg .tss (.server srv) 0).leg (.server srv) .tss 0).takeV srv v
    .next { s1 with tss := { s1.tss with acked := Tbl.put s1.tss.acked srv (max (Tbl.get 0 s1.tss.acked srv) v) } }
  else .next s

/-- VHELD_BROADCAST (03 R146): core g receives a value that every server has acknowledged; its leg is charged to dye 0 (log entry 83). -/
def execVheldBroadcast (g v : Nat) (s : State) : Res :=
  if v ≤ s.heldV then
    let c := s.coreAt g
    .next ((s.setCore g { c with vheld := max c.vheld v }).leg .tss (.core g) 0)
  else .next s

/-- FIRN_LINE_BROADCAST (02 R115); its leg is charged to dye 0 (log entry 83). -/
def execFirnLineBroadcast (srv : Nat) (s : State) : Res :=
  if (s.serverAt srv).ready then .next ((s.takeFirn srv).leg .tss (.server srv) 0) else .next s

/-! The steps of a transaction (02 R108-R110). -/

/-- The vote of a home on PREPARE (02 R109): 2 revoked, 1 conflict, 0 YES. -/
def State.vote (s : State) (x srv : Nat) (t : Tx) : Nat :=
  if s.tss.snaps.any fun y => y.ts == t.snap && y.tx && y.revoked then 2
  else if (s.linesOf srv).any fun e =>
      (e.2.tentOf (.tx x)).isSome &&
        ((e.2.cur :: e.2.pool).any (fun v => decide (t.snap < v.ts)) || e.2.tent.any (fun y => y.1 != .tx x) ||
          (match e.2.prep with | some y => y != x | none => false)) then 1
  else 0

/-- The node of a transaction's cluster engine. -/
def Tx.node (t : Tx) : Node := .cluster (clusterOf t.who.g)

/-- A message from the transaction's cluster engine to a home and the operation there, charged to its dye (02 R536, 07 R254): as a handler operation,
though it uses no thread (17 R510), for which the spec has no coefficient of its own (DESIGN CHOICE, log entry 92). -/
def State.txMessage (s : State) (t : Tx) (srv : Nat) : State :=
  (s.transport t.node (.server srv) t.dye 0).charge (meterServer srv) t.dye .handler 1

/-- PREPARE (02 R109): the home votes; on YES it marks the transaction's lines. -/
def execPrepare (tx srv : Nat) (s : State) : Res :=
  match Tbl.find s.tss.txs tx with
  | none => .next s
  | some t =>
    if t.phase != .preparing || !t.asked.contains srv then .next s
    else
      let v := s.vote tx srv t
      let s1 := if v = 0 then
          (s.linesOf srv).foldl (fun st e =>
            if (e.2.tentOf (.tx tx)).isSome then st.setLine e.1 { st.lineAt e.1 with prep := some tx } else st) s
        else s
      .next ((s1.txMessage t srv).mapTx tx fun y => { y with asked := y.asked.filter (· != srv), votes := y.votes ++ [(srv, v, false)] })

/-- VOTE (02 R108): a vote reaches the cluster engine; the last one decides. -/
def execVote (tx srv : Nat) (s : State) : Res :=
  match Tbl.find s.tss.txs tx with
  | none => .next s
  | some t =>
    if t.phase != .preparing || !(t.votes.any fun v => v.1 == srv && !v.2.2) then .next s
    else
      let votes := t.votes.map fun v => if v.1 == srv then (v.1, v.2.1, true) else v
      let s1 := (s.transport (.server srv) t.node t.dye 0).mapTx tx fun y => { y with votes := votes }
      if !t.asked.isEmpty || votes.any (fun v => !v.2.2) then .next s1
      else
        let code := (votes.map (·.2.1)).foldl max 0
        if code = 0 then
          let i := s1.tss.issue
          let s2 := (({ s1 with tss := i.2 } : State).leg t.node .tss t.dye).leg .tss t.node t.dye
          .next (s2.mapTx tx fun y => { y with phase := .applying i.1 })
        else .next (s1.abortTx tx code)

/-- APPLY (02 R110): the operations held at the transaction's lines follow in arrival order. -/
def execApply (tx srv : Nat) (s : State) : Res :=
  match Tbl.find s.tss.txs tx with
  | none => .next s
  | some t =>
    match t.phase with
    | .applying c =>
      if !t.homes.contains srv || t.applied.contains srv then .next s
      else
        let s1 := (((s.txMessage t srv).applyAt srv c (.tx tx)).performHeld srv).mapTx tx fun y => { y with applied := srv :: y.applied }
        .next ({ s1 with tss := s1.tss.advance }.leg (.server srv) .tss t.dye)
    | _ => .next s

/-- A tentative write of the transaction to a server is still queued. -/
def State.txQueued (s : State) (tx srv : Nat) : Bool :=
  s.clusters.any fun e => e.2.wq.any fun w => w.own == some (.tx tx) && (match w.loc with | .hbm v _ => v == srv | _ => false)

/-- ABORT_TXID (02 R108): the home discards the transaction's versions and clears its marks, behind the writes queued for it, and performs the
operations held meanwhile (R110). -/
def execAbortTxid (tx srv : Nat) (s : State) : Res :=
  match Tbl.find s.tss.txs tx with
  | none => .next s
  | some t =>
    if !t.toAbort.contains srv || s.txQueued tx srv then .next s
    else .next ((((s.txMessage t srv).discardAt srv (.tx tx)).performHeld srv).mapTx tx fun y =>
      { y with toAbort := y.toAbort.filter (· != srv), aborted := srv :: y.aborted })

/-- ABORT_ACKNOWLEDGEMENT (02 R107): the TXID is free once every home has acknowledged. -/
def execAbortAcknowledgement (tx srv : Nat) (s : State) : Res :=
  match Tbl.find s.tss.txs tx with
  | none => .next s
  | some t =>
    if !t.aborted.contains srv then .next s
    else
      let s1 := (s.transport (.server srv) t.node t.dye 0).mapTx tx fun y => { y with aborted := y.aborted.filter (· != srv) }
      .next { s1 with tss := s1.tss.reap }

/-- PUBLISH_APPLY (02 R114): a home applies the set's versions; a line with a transaction's mark makes it wait. Charged as one handler operation (DESIGN
CHOICE, log entry 92). -/
def execPublishApply (k srv : Nat) (s : State) : Res :=
  match s.tss.pubs.find? fun x => x.k == k with
  | none => .next s
  | some x =>
    let o : Owner := .set x.launch x.id
    if !x.homes.contains srv || (s.linesOf srv).any (fun e => s.publishable e.1 o && e.2.prep.isSome) then .next s
    else
      let asked := ((s.leg .tss (.server srv) x.dye).charge (meterServer srv) x.dye .handler 1).leg (.server srv) .tss x.dye
      let s1 := asked.publishAt srv x.ts o
      let t : Tss := { s1.tss with pubs := s1.tss.pubs.map fun (y : Publish) => if y.k == k then { y with homes := y.homes.filter (· != srv) } else y }
      .next { s1 with tss := t.advance }

/-! Reclaim and revocation (02 R116, R117). -/

/-- A write of an owner, or a plain one, to a line needs a slot (02 R112, R117): it makes a tentative version, or what it replaces is to be preserved. -/
def State.wantsSlot (s : State) (v line : Nat) (own : Option Owner) : Bool :=
  match own with
  | some o => ((s.lineAt line).tentOf o).isNone
  | none => match (s.serverAt v).newest with | some n => decide ((s.lineAt line).cur.ts ≤ n) | none => false

/-- A write on its way to server v needs a slot: of the line that is full, or of any line of the server. A copy's own write makes its slot itself. -/
def State.slotWanted (s : State) (v line : Nat) (lineFull : Bool) : Bool :=
  let at_ (l : Loc) (own : Option Owner) : Bool := match l with
    | .hbm w dpa => w == v && (!lineFull || dpa / 128 == line) && s.wantsSlot v (dpa / 128) own
    | _ => false
  (s.clusters.any fun c => c.2.wq.any fun e => at_ e.loc e.own) || s.net.any fun m => match m.body with
    | .req r => (match r.op with | .write _ _ own _ => at_ r.loc own | .atomic _ _ _ _ _ _ _ => at_ r.loc none | _ => false)
    | _ => false

/-- REVOCATION (02 R117): a server whose line, or whose pool, is full while a write needs a slot reports the oldest snapshot in the way, which is
revoked package-wide. -/
def execRevocation (line : Nat) (s : State) : Res :=
  match s.hbmHome (line * 128) with
  | none => .next s
  | some v =>
    let lineFull := s.lineFull line
    if (!lineFull && decide (s.poolUsed v < poolSize (s.serverAt v).poolCfg)) || !s.slotWanted v line lineFull then .next s
    else
      let cs := s.candidates v line lineFull
      let srv := s.serverAt v
      if cs.any fun c => reclaimable srv.firn srv.v ((s.lineAt c.1).successorTs c.2) || (s.readers c).isEmpty then .next s
      else match (cs.flatMap s.readers).min? with
        | some o => .next (s.revoke v o line)
        | none => .next s

/-- REVOCATION_NOTICE (07 R273): the notification of a revoked snapshot reaches core g. -/
def execRevocationNotice (g ts : Nat) (s : State) : Res :=
  let i := s.net.findIdx fun m => m.dst == .core g && m.body == .notice ts
  match s.takeMsg i with
  | some (⟨_, _, .notice _⟩, s1) =>
    let c := s1.coreAt g
    .next (s1.setCore g { c with notices := insertNat ts c.notices })
  | _ => .next s

/-- Ablation runs at server v (17 R511): no request has arrived for 64 cycles, or the pool is more than seven-eighths full. -/
def State.ablating (s : State) (v : Nat) : Bool :=
  ((s.serverQueue v).isEmpty && decide ((s.serverAt v).lastReq + 64 ≤ s.cycle)) || s.poolHigh v

/-- Ablation has the next slot of server v's pipeline: no request waits, or it is its one of four (17 R511). -/
def State.ablationMay (s : State) (v : Nat) : Bool :=
  s.ablating v && ((s.serverQueue v).isEmpty || decide (3 ≤ (s.serverAt v).since))

/-- ABLATION_RECLAIM (02 R116, 17 R511): while Ablation runs, a pool version that R116 allows goes, in ascending timestamp order. -/
def execAblationReclaim (line ts : Nat) (s : State) : Res :=
  match s.hbmHome (line * 128) with
  | none => .next s
  | some v =>
    let srv := s.serverAt v
    let ok (c : Nat × Nat) : Bool := reclaimable srv.firn srv.v ((s.lineAt c.1).successorTs c.2)
    let tsOf (c : Nat × Nat) : Nat := (((s.lineAt c.1).pool).getD c.2 Ver.zero).ts
    let cs := (s.candidates v line false).filter ok
    match cs.find? fun c => c.1 == line && tsOf c == ts with
    | none => .next s
    | some c =>
      if !s.ablationMay v || cs.any fun d => decide (tsOf d < ts) then .next s
      else .next ((s.setServer v { srv with since := 0 }).reclaim v c.1 c.2)

end Sys2Proof.Machine
end

