-- ==== Sys2Proof/Machine/Channels.lean ====
section
/-! DEFINITION. Channels (01 R26-R46, R64, R71; 08 R289-R306): endpoints, sending and receiving forms, alternatives, and the messages between
sender and receiver, to other packages included (16 R489, R491). -/

namespace Sys2Proof.Machine

/-! Holds, as messages meet them (14 R449, R450). -/

/-- A cause that holds every process of the partition, its stewards too (14 R449). -/
def Part.fullHold (x : Part) : Bool := x.chst || x.cqta || x.cres

/-- Any hold cause is in force. -/
def Part.anyHold (x : Part) : Bool := x.fullHold || x.cqsc

/-- Core g catches the messages of its partition in its spill ring (14 R449, R450). -/
def State.spills (s : State) (g : Nat) : Bool :=
  match s.partOfCore g with
  | none => false
  | some p =>
    let x := s.partAt p
    x.stopping && (x.full || x.steward != g)

/-- Bytes of a spill ring (14 R453). -/
def spillRing : Nat := 32768

/-- A hold stops this process at its next boundary (01 R69, 14 R449, R450), or an abort of its launch (R439). -/
def State.mustPark (s : State) (p : Proc) : Bool :=
  let x := s.partAt p.part
  (x.stopping && (x.full || !p.stw)) || s.launches.any fun l => l.aborting && !p.stw && p.launch == l.ref

/-- Bytes a message takes in a spill ring: 16 and its data (14 R453; log entry 21). -/
def Msg.spillBytes (m : Msg) : Nat :=
  match m.body with
  | .header _ h => 16 + h.bytes.length
  | _ => 16

/-- Core g's spill ring has room for a message. -/
def State.spillRoom (s : State) (g : Nat) (m : Msg) : Bool :=
  decide (((s.spilled.filter fun x => x.dst == .core g).map Msg.spillBytes).sum + m.spillBytes ≤ spillRing)

/-! Counting (01 R64). -/

/-- The launch that core g is assigned to; id 0 for none. -/
def Core.launch (c : Core) : LRef := { fn := c.fn, lid := c.lid.toNat }

/-- Core g belongs to the launch and counts for it: steward traffic is never counted (13 R408). -/
def State.counts (s : State) (g : Nat) (l : LRef) : Bool := l.lid != 0 && (s.coreAt g).launch == l

/-- SENT raised by n at core g for an item of a launch. -/
def State.countSent (s : State) (g : Nat) (l : LRef) (n : Nat) : State :=
  if s.counts g l then
    let c := s.coreAt g
    s.setCore g { c with sent := c.sent + BitVec.ofNat 64 n }
  else s

/-- RCVD raised by one at core g for an item of a launch. -/
def State.countRcvd (s : State) (g : Nat) (l : LRef) : State :=
  if s.counts g l then
    let c := s.coreAt g
    s.setCore g { c with rcvd := c.rcvd + 1 }
  else s

/-- A header from outside every launch of this package (01 R64: an external endpoint). -/
def Hdr.external (h : Hdr) : Bool :=
  match h.from_ with
  | .scale _ _ _ => true | .far _ _ => true | _ => false

/-- The acceptance of a message at core g counted, and whether its sender need not count it (01 R64): one from outside counts on both sides
here; one of another launch counts at its sender, as one to an external endpoint does (log entry 22). -/
def State.countIn (s : State) (g : Nat) (h : Hdr) : State × Bool :=
  let l := (s.coreAt g).launch
  if h.external then ((s.countSent g l 1).countRcvd g l, true)
  else if h.launch.lid = 0 then (s, true)
  else (s.countRcvd g h.launch, s.counts g h.launch)

/-! Processes that end their waits. -/

/-- A failed void delivery that arrives is counted once, where the copy that is accepted arrives (01 R64, 14 R445). -/
def State.countVoid (s : State) (g : Nat) (h : Hdr) : State := if h.failed then s.countRcvd g h.launch else s

/-- Slot k reclaimed: its generation increments (13 R410). -/
def Core.reclaim (c : Core) (k : Nat) : Core :=
  { c with procs := Tbl.del c.procs k, gens := Tbl.put c.gens k (Tbl.get 0 c.gens k + 1), cached := c.cached.filter (· != k) }

/-- A process in its slot made ready, with what it is left with (01 R21). -/
def State.wake (s : State) (g k : Nat) (p : Proc) : State := s.setCore g (((s.coreAt g).setProc k p).makeReady k)

/-- A blocked process made ready, with its result in a register. -/
def State.wakeWith (s : State) (g k : Nat) (p : Proc) (a : Reg) (v : Word) : State := (s.land g k a).wake g k (p.setReg a v)

/-- A GUARD endpoint whose owner's ALT is over (01 R35). -/
def Endp.unguard (x : Endp) : Endp := if x.st = .guard then { x with st := .empty } else x

/-- A process blocked in ALT is made ready, to select again at its dispatch (01 R25, R46). -/
def State.wakeAlt (s : State) (g k : Nat) (guards : List Nat) : State :=
  let s1 := guards.foldl (fun st e => st.setEp g e (st.epAt g e).unguard) s
  s1.wake g k (s1.procAt g k)

/-- An access of n bytes to LM of core g, charged to a dye at its meter (15 R481). -/
def State.lmCharge (s : State) (g : Nat) (dye : BitVec 16) (n : Nat) : State := s.charge g dye .lm ((n + 63) / 64)

/-- Data written where a receiving form wants it: register, segment, tile register or pair (08 R304); a write to LM is charged to the dye `pay` (15
R481): the sender's for data delivered, the receiver's for what its own RECV moves (01 R74). -/
def State.putElement (s : State) (g k : Nat) (p : Proc) (pay : BitVec 16) (ek : BitVec 2) (a : Reg) (addr : Nat) (bytes : List Byte) (tag : Bool) :
    State :=
  match ek.toNat with
  | 0 => (s.land g k a).setProc g k (p.setReg a (bytesWord bytes))
  | 1 => ((s.setProc g k p).lmWrite g (p.sb.toNat + addr) bytes).lmCharge g pay bytes.length
  | 2 =>
    let t := s.tileAt g
    (s.setProc g k p).setTile g (t.setImage a.toNat (t.shape a.toNat) bytes)
  | _ => (s.land g k a).setProc g k (p.setPair a (pairWords bytes).1 (pairWords bytes).2 tag)

/-! Answers to headers. -/

/-- The node that answers to a header go to. -/
def State.replyTo (s : State) (g : Nat) (h : Hdr) : Node :=
  match h.from_ with
  | .proc r => .core r.g
  | .third k _ =>
    match s.tprs.find? fun t => t.k == k with
    | some t => .cluster (clusterOf t.who.g)
    | none => .cluster (clusterOf g)
  | .far _ _ => .egress
  | .scale _ _ _ => .egress
  | .trap r => .core r.g
  | .exit r => .core r.g
  | .report _ => .core g

/-- A completion of the queue pair has been delivered (16 R505). -/
def State.qpDelivered (s : State) (port qp : Nat) : State :=
  match Tbl.find (Tbl.get [] s.qps port) qp with
  | none => s
  | some q => { s with qps := Tbl.put s.qps port (Tbl.put (Tbl.get [] s.qps port) qp { q with undelivered := q.undelivered - 1 }) }

/-- The header carries all its data (01 R36, R39): a word, a handle, or one whose unit holds the data itself. -/
def Hdr.carried (h : Hdr) : Bool :=
  h.ek == 0 || h.ek == 3 || (match h.from_ with
    | .proc _ => false | .third _ _ => false | .far _ _ => false | _ => true)

/-- A spawned process that has stopped and whose exit word goes nowhere: its slot is reclaimed (01 R22, 08 R310). -/
def State.reclaimStopped (s : State) (g k : Nat) : State :=
  let c := s.coreAt g
  if c.holdsProc k && (c.procAt k).state == .stopped then s.setCore g (c.reclaim k) else s

/-- The slot of a process that has stopped is reclaimed, while it still holds that process (01 R22). -/
def State.reclaimRef (s : State) (r : PRef) : State := if s.pref r.g r.slot = r then s.reclaimStopped r.g r.slot else s

/-- The dye that a message of the channel protocol is charged to (01 R74, 08 R294): its sender's; for one from another package 0 (16 R494). -/
def Hdr.payer (h : Hdr) : BitVec 16 := match h.from_ with | .far _ _ => 0 | _ => h.dye

/-- A message of the channel protocol posted from one node to another, its transport charged to the sender of its header (01 R74, 08 R294). -/
def State.sendFor (s : State) (h : Hdr) (a b : Node) (n : Nat) (m : Body) : State := (s.transport a b h.payer n).post a b m

/-- A header refused at core g with a cause (01 R31, R40, 02 R123): a closed reply to a sender, a refusal to a requester, which the
receiving core counts; an exit word or a report is discarded and counted (08 R310, 07 R285). -/
def State.refuse (s : State) (g : Nat) (h : Hdr) (c : Cause) : State :=
  match h.from_ with
  | .proc r => s.sendFor h (.core g) (.core r.g) 0 (.refuse h c)
  | .third _ _ => if h.failed then s else (s.countRcvd g h.launch).sendFor h (.core g) (s.replyTo g h) 0 (.refuse h c)
  | .report _ => s.countRcvd g h.launch
  | .trap _ => s
  | .exit r => (if h.failed then s else s.countRcvd g h.launch).reclaimRef r
  | .scale port qp c => if c then s.qpDelivered port qp else s
  | .far _ _ => s.sendFor h (.core g) .egress 0 (.refuse h c)

/-- The message is taken (01 R36, R38): counted, and its sender told. A failed void delivery was counted at its arrival. -/
def State.taken (s : State) (g : Nat) (h : Hdr) (done : Bool) : State :=
  if h.failed then s
  else
    let r := s.countIn g h
    match h.from_ with
    | .proc _ => r.1.sendFor h (.core g) (s.replyTo g h) 0 (if done then .done h r.2 else .accept h r.2)
    | .third _ _ => r.1.sendFor h (.core g) (s.replyTo g h) 0 (.accept h r.2)
    | .far _ _ => r.1.sendFor h (.core g) .egress 0 (if done then .done h r.2 else .accept h r.2)
    | .scale port qp c => if c then r.1.qpDelivered port qp else r.1
    | _ => r.1

/-- A grant goes to the sender of a header (01 R36, R39), or to the cluster engine that holds a third-party read's data (02 R125). -/
def State.grantTo (s : State) (g e : Nat) (h : Hdr) (addr : Nat) (slot : Bool) : State :=
  s.sendFor h (.core g) (s.replyTo g h) 0 (.grant g e h addr slot)

/-! Endpoints. -/

/-- Slots of a buffered endpoint (01 R38). -/
def Endp.size (x : Endp) : Nat := x.depth.toNat + 1

/-- Bytes of a slot (01 R29). -/
def Endp.slotBytes (x : Endp) : Nat := roundUp (x.esz.toNat + 1) 64

/-- LM offset of place i of the slot order. -/
def Core.slotAt (c : Core) (x : Endp) (i : Nat) : Nat :=
  (c.procAt x.owner).sb.toNat + x.ring.toNat + (x.hs + i) % x.size * x.slotBytes

/-- The head slot is filled (01 R38, R45). -/
def Endp.headFilled (x : Endp) : Bool := match x.slots with | y :: _ => y.filled | [] => false

/-- Data is available to a receive (08 R303), a failed void delivery among it. -/
def Endp.ready (x : Endp) : Bool := if x.mode then x.headFilled else x.st == .pend || x.st == .xfer

/-- An endpoint closed: its generation increments (01 R30, R40). -/
def Endp.shut (x : Endp) : Endp := { Endp.zero with gen := x.gen + 1 }

/-- Endpoint e of core g is closed (01 R40): queued headers are answered, filled slots discarded, the owner's own wait ends, a
stopped child of an exit endpoint gives up its slot (01 R22). -/
def State.closeNow (s : State) (g e : Nat) : State :=
  let x := s.epAt g e
  let s1 := s.setEp g e x.shut
  let s2 := x.hq.foldl (fun st h => st.refuse g h .closed) s1
  let p := s2.procAt g x.owner
  let s3 := if !(s2.coreAt g).holdsProc x.owner then s2 else match p.blk with
    | .recv _ e' _ _ c _ _ => if e' = e then s2.wakeWith g x.owner { p with blk := .none } c 2 else s2
    | .alt _ gs => if gs.contains e && p.state == .chan then s2.wakeAlt g x.owner gs else s2
    | _ => s2
  match x.child with
  | some k => s3.reclaimStopped g k
  | none => s3

/-- A granted transfer of the endpoint is in progress (01 R37, R40). -/
def Endp.busy (x : Endp) : Bool := x.grant.isSome || x.slots.any fun y => !y.filled

/-- The close takes effect once granted transfers have completed (01 R40). -/
def State.closeEp (s : State) (g e : Nat) : State :=
  let x := s.epAt g e
  if x.st = .closed || x.st = .forwarding then s
  else if x.busy then s.setEp g e { x with closing := true }
  else s.closeNow g e

/-- A close that waited for a granted transfer takes effect. -/
def State.finishClose (s : State) (g e : Nat) : State :=
  let x := s.epAt g e
  if x.closing && !x.busy then s.closeNow g e else s

/-- The child's exit endpoint is closed and its slot reclaimed by a JOIN that took its item (08 R303, R309). -/
def State.joined (s : State) (g e : Nat) (join : Bool) : State := if join then s.closeNow g e else s

/-- The head slot's element read from its ring, charged to the dye of the receiver that takes it (01 R74, 15 R481). -/
def State.slotRead (s : State) (g : Nat) (x : Endp) (dye : BitVec 16) : State :=
  if x.exit || (match x.slots with | y :: _ => y.failed | [] => true) then s else s.lmCharge g dye (x.esz.toNat + 1)

/-- The element in the head slot: the exit word's bytes, or the ring's, with the granule's tag (01 R29; log entry 15). -/
def State.slotData (s : State) (g : Nat) (x : Endp) (i : Nat) : List Byte × Bool :=
  if x.exit then (wordBytes 8 x.xword, false)
  else
    let c := s.coreAt g
    (c.lmRead (c.slotAt x i) (x.esz.toNat + 1), c.lmTag (c.slotAt x i))

/-- The endpoint without its head slot. -/
def Endp.pop (x : Endp) : Endp := { x with slots := x.slots.drop 1, hs := (x.hs + 1) % x.size }

/-- A header's data written into place i of the slot order (01 R38), charged to its sender (01 R74, 15 R481). -/
def State.writeSlot (s : State) (g e i : Nat) (h : Hdr) (bytes : List Byte) : State :=
  let x := s.epAt g e
  if h.failed then s
  else if x.exit then s.setEp g e { x with xword := bytesWord bytes }
  else
    let c := s.coreAt g
    (s.setCore g (c.lmWriteCap (c.slotAt x i) bytes (h.ek == 3 && h.tag))).lmCharge g h.payer bytes.length

/-- The owner's RECV takes the head slot, and the owner is made ready; its ALT is made ready to select (01 R38). -/
def State.serve (s : State) (g e : Nat) : State :=
  let x := s.epAt g e
  let p := s.procAt g x.owner
  if !x.headFilled || !(s.coreAt g).holdsProc x.owner then s
  else match p.blk with
    | .recv _ e' ek a c addr join =>
      if e' ≠ e then s
      else
        let failed := match x.slots with | y :: _ => y.failed | [] => false
        let d := s.slotData g x 0
        let q := { p with blk := .none }
        let s1 := (s.setEp g e x.pop).slotRead g x p.dye
        let s2 := if failed then s1.setProc g x.owner q else s1.putElement g x.owner q p.dye ek a addr d.1 d.2
        let s3 := s2.wakeWith g x.owner (s2.procAt g x.owner) c (if failed then 3 else 0)
        s3.joined g e join
    | .alt _ gs => if gs.contains e && p.state == .chan then s.wakeAlt g x.owner gs else s
    | _ => s

/-- A header's message fills a new slot at the tail of the order (01 R38). -/
def State.fill (s : State) (g e : Nat) (h : Hdr) : State :=
  let x := s.epAt g e
  let s1 := s.writeSlot g e x.slots.length h h.bytes
  let y := s1.epAt g e
  let s2 := s1.setEp g e { y with slots := y.slots ++ [{ filled := true, failed := h.failed, hid := h.hid }] }
  s2.taken g h false

/-- The oldest refused headers are granted while slots are free (01 R38, R39). -/
def State.grantQueued (s : State) (g e : Nat) : Nat → State
  | 0 => s
  | fuel + 1 =>
    let x := s.epAt g e
    match x.hq with
    | [] => s
    | h :: rest =>
      if !x.mode || x.size ≤ x.slots.length then s
      else
        let s1 := s.setEp g e { x with hq := rest }
        let s2 := if h.carried || h.failed then s1.fill g e h
          else
            let y := s1.epAt g e
            (s1.setEp g e { y with slots := y.slots ++ [{ filled := false, failed := false, hid := h.hid }] }).grantTo g e h 0 true
        s2.grantQueued g e fuel

/-- What follows any action on a buffered endpoint (01 R38): the owner is served, then refused headers are granted. -/
def State.settleEp (s : State) (g e : Nat) : State :=
  let s1 := s.serve g e
  let s2 := s1.grantQueued g e (s1.epAt g e).hq.length
  (s2.serve g e).finishClose g e

/-! Headers arriving. -/

/-- Entries of core g's header store in use (14 R445). -/
def Core.storeUse (c : Core) : Nat := (c.eps.map fun e => e.2.hq.length).sum

/-- Cycles of 1 µs (00 R3, 14 R445). -/
def microsecond : Nat := 2250

/-- A header sent back to its sender's side, which sends it again 1 µs later (14 R445). -/
def State.bounce (s : State) (g : Nat) (h : Hdr) (e : Nat) : State :=
  s.sendFor h (.core g) (s.replyTo g h) h.bytes.length (.returned g e h (s.cycle + microsecond))

/-- A header joins the endpoint's queue, or goes back to its sender when the header store is full (14 R445). -/
def State.queueHdr (s : State) (g e : Nat) (h : Hdr) (st : EpState) : State :=
  let c := s.coreAt g
  if Config.headerStore ≤ c.storeUse then s.bounce g h e
  else
    let x := c.epAt e
    let kept := if h.carried || h.failed then h else { h with bytes := [] }
    (s.countVoid g h).setEp g e { x with hq := x.hq ++ [kept], st := st }

/-- A header at a rendezvous endpoint (01 R35, R36). -/
def State.meetRendezvous (s : State) (g e : Nat) (h : Hdr) : State :=
  let x := s.epAt g e
  let p := s.procAt g x.owner
  match x.st with
  | .waitr =>
    match p.blk with
    | .recv _ _ ek a c addr _ =>
      let q := { p with blk := .none }
      if h.failed then ((s.countVoid g h).setEp g e { x with st := .empty }).wakeWith g x.owner q c 3
      else if h.carried then
        let s1 := (s.setEp g e { x with st := .empty }).putElement g x.owner q h.payer ek a addr h.bytes h.tag
        (s1.wakeWith g x.owner (s1.procAt g x.owner) c 0).taken g h true
      else (s.setEp g e { x with st := .xfer, grant := some h }).grantTo g e h addr false
    | _ => s.queueHdr g e h .pend
  | .guard =>
    let s1 := s.queueHdr g e h .pend
    match p.blk with
    | .alt _ gs => if (s1.epAt g e).hq.isEmpty then s1 else s1.wakeAlt g x.owner gs
    | _ => s1
  | .xfer => s.queueHdr g e h .xfer
  | _ => s.queueHdr g e h (if x.hq.isEmpty && Config.headerStore ≤ (s.coreAt g).storeUse then x.st else .pend)

/-- A header at a buffered endpoint (01 R38). -/
def State.meetBuffered (s : State) (g e : Nat) (h : Hdr) : State :=
  let x := s.epAt g e
  if x.hq.isEmpty && decide (x.slots.length < x.size) then ((s.countVoid g h).fill g e h).settleEp g e
  else s.queueHdr g e h x.st

/-- An endpoint can receive a third-party delivery of that length (02 R120). -/
def Endp.takesThird (x : Endp) (h : Hdr) : Bool := (x.ek == 0 && h.len == 8) || (x.ek == 1 && h.len == x.esz.toNat + 1)

/-- The kind and length of a third-party delivery, from this package or another, match the endpoint (02 R120, R122, 07 R284). -/
def Endp.fits (x : Endp) (h : Hdr) : Bool :=
  match h.from_ with
  | .third _ _ => x.takesThird h
  | _ => !h.third || x.takesThird h

/-- A header arrives at endpoint e of core g (01 R30, R31, R35, R38, 02 R122, 14 R442). -/
def State.arrive (s : State) (g e : Nat) (h : Hdr) : State :=
  let x := s.epAt g e
  let s0 := s.countVoid g h
  match x.st with
  | .forwarding => s.sendFor h (.core g) (.core x.fwd.1) h.bytes.length (.header x.fwd.2 h)
  | .closed => s0.refuse g h .closed
  | _ =>
    if x.gen != h.gen then s0.refuse g h .closed
    else if !x.fits h then s0.refuse g h .type
    else if !x.acc.getLsbD h.part then s0.refuse g h .rights
    else if x.mode then s.meetBuffered g e { h with ek := x.ek }
    else s.meetRendezvous g e { h with ek := x.ek }

/-! Sending. -/

/-- Fields of an endpoint handle (01 R26). -/
def hCk (h : BitVec 128) : Nat := (h.extractLsb' 124 4).toNat
/-- PKG. -/
def hPkg (h : BitVec 128) : Nat := (h.extractLsb' 108 12).toNat
/-- EXT. -/
def hExt (h : BitVec 128) : Bool := h.getLsbD 107
/-- LOC. -/
def hLoc (h : BitVec 128) : Nat := (h.extractLsb' 97 10).toNat
/-- IDX. -/
def hIdx (h : BitVec 128) : Nat := (h.extractLsb' 89 8).toNat
/-- EK. -/
def hEk (h : BitVec 128) : BitVec 2 := h.extractLsb' 87 2
/-- ESZ. -/
def hEsz (h : BitVec 128) : Nat := (h.extractLsb' 75 12).toNat
/-- MODE. -/
def hMode (h : BitVec 128) : Bool := h.getLsbD 74
/-- S. -/
def hS (h : BitVec 128) : Bool := h.getLsbD 68
/-- T. -/
def hT (h : BitVec 128) : Bool := h.getLsbD 66
/-- GEN. -/
def hGen (h : BitVec 128) : BitVec 32 := h.extractLsb' 32 32

/-- The handle of an endpoint (01 R26). -/
def mkHandle (part : Nat) (pkg : BitVec 12) (ext : Bool) (loc idx : Nat) (ek : BitVec 2) (esz : BitVec 12) (mode : Bool) (depth : BitVec 5)
    (sRight gRight tRight : Bool) (gen : BitVec 32) : BitVec 128 :=
  (1#4 ++ BitVec.ofNat 4 part ++ pkg ++ BitVec.ofBool ext ++ BitVec.ofNat 10 loc ++ BitVec.ofNat 8 idx ++ ek ++ esz ++
    BitVec.ofBool mode ++ depth ++ BitVec.ofBool sRight ++ BitVec.ofBool gRight ++ BitVec.ofBool tRight ++ 0#2 ++ gen ++ 0#32 :
    BitVec 128)

/-- A header posted to the endpoint a handle names (08 R299): on a core, at a scale-out port, or in another package; the host
interface unit has no endpoint that the spec opens, so it answers as a closed one (log entry 23). -/
def State.postHeader (s : State) (g : Nat) (hd : BitVec 128) (h : Hdr) : State :=
  if hPkg hd ≠ s.bring.pkgid.toNat then
    if hExt hd then s.refuse g h .closed
    else (s.carry g .egress h.dye h.bytes.length).post (.core g) .egress (.farHeader (hPkg hd) (hLoc hd) (hIdx hd) h)
  else if hExt hd then
    if hLoc hd = 1 ∨ hLoc hd = 2 then (s.carry g .egress h.dye h.bytes.length).post (.core g) .egress (.work (hLoc hd - 1) (hIdx hd) h)
    else s.refuse g h .closed
  else (s.carry g (.core (hLoc hd)) h.dye h.bytes.length).post (.core g) (.core (hLoc hd)) (.header (hIdx hd) h)

/-- Earlier releases and fences have completed, since each waits at its own head; VHELD ≥ VSEEN remains (08 R292, 03 R146). -/
def State.heldBack (s : State) (g : Nat) (p : Proc) : Bool := decide ((s.coreAt g).vheld < p.vseen.toNat)

/-- What a sending form sends (08 R300): the state its checks leave, local address, length, bytes and tag; or the trap of its checks. -/
structure Source where
  st : State
  addr : Nat
  len : Nat
  bytes : List Byte
  tag : Bool

/-- A sending form (08 R299): handle checks, source checks, the length, the waits of R292 and R363, then the header is posted and
the process blocks. -/
def State.sendForm (s : State) (rs : List Reg) (a b : Reg) (ek : BitVec 2)
    (src : Nat → Nat → Proc → (Source → Res) → Res) : Res :=
  s.withProc fun g k p =>
    if p.awaits (rs ++ [b, oddOf b]) || p.acquiring then s.stall
    else
      let h := p.pair b
      if !p.pairTag b then .next (s.trap g k p .captag 0)
      else if hCk h ≠ 1 || !hS h then .next (s.trap g k p .rights 0)
      else if hEk h ≠ ek then .next (s.trap g k p .type 0)
      else src g k p fun x =>
        if (ek == 1 || ek == 2) && x.len ≠ hEsz h + 1 then .next (x.st.trap g k p .type 0)
        else if x.st.heldBack g p || (ek == 2 && x.st.tilePending (x.st.pref g k)) then x.st.stall
        else
          let f := x.st.fresh
          let inline_ := ek == 0 || ek == 3 || hMode h
          let hdr : Hdr := { hid := f.1, from_ := .proc (x.st.pref g k), part := p.part, dye := p.dye, gen := hGen h, ek := ek, len := x.len
                             bytes := if inline_ then x.bytes else [], tag := x.tag, failed := false, launch := p.launch }
          let s0 := if ek == 1 && inline_ then f.2.lmCharge g p.dye x.len else f.2
          let s1 := (s0.countSent g p.launch 1).retire g k p
          let q := s1.procAt g k
          .next ((s1.block g k q .chan (.send p.pc f.1 ek a x.addr x.len)).postHeader g h hdr)

/-- SEND (08 R299, R300). -/
def execSend (a b : Reg) (s : State) : Res :=
  s.sendForm [a] a b 0 fun _ _ p f => f { st := s, addr := 0, len := 8, bytes := wordBytes 8 (p.reg a), tag := false }

/-- SENDB: the source lies in the segment at a multiple of 16 (08 R300). -/
def execSendb (a b c : Reg) (s : State) : Res :=
  s.sendForm [a, c] a b 1 fun g k p f =>
    let ea := p.reg a
    let n := (p.reg c).toNat
    if ea.toNat % 16 ≠ 0 then .next (s.trap g k p .align ea)
    else if !p.inSeg ea n then .next (s.trap g k p .segment ea)
    else f { st := s, addr := ea.toNat, len := n, bytes := s.lmRead g (p.phys ea) (min n 4096), tag := false }

/-- SENDT: the process owns the tile unit; a shape that is MX or holds no shape traps TYPE (08 R300, 10 R363). -/
def execSendt (a : BitVec 3) (b : Reg) (s : State) : Res :=
  s.sendForm [] (a.setWidth 4) b 2 fun g k p f =>
    s.acquire g k p fun s1 =>
      let t := s1.tileAt g
      let sh := t.shape a.toNat
      if !shapeSends sh then .next (s1.trap g k p .type 0)
      else f { st := s1, addr := a.toNat, len := shapeRows sh * shapeBpr sh, bytes := t.image a.toNat sh, tag := false }

/-- SENDH: a tagged pair with its G right (01 R33, 08 R300). -/
def execSendh (a b : Reg) (s : State) : Res :=
  s.sendForm [a, oddOf a] a b 3 fun g k p f =>
    if !p.pairTag a then .next (s.trap g k p .captag 0)
    else if !capG (p.pair a) then .next (s.trap g k p .rights 0)
    else f { st := s, addr := 0, len := 16, bytes := p.pairBytes a, tag := true }

/-! Receiving. -/

/-- A receiving form completes with a status (08 R303). -/
def State.received (s : State) (g k : Nat) (p : Proc) (c : Reg) (st : Word) (e : Nat) (join : Bool) : Res :=
  .next ((s.retire g k (p.setReg c st)).joined g e (join && st != 1))

/-- The loop of a receiving form at an endpoint that its checks accept (08 R303). -/
def State.receiveAt (s : State) (g k : Nat) (p : Proc) (e : Nat) (ek : BitVec 2) (a c : Reg) (addr : Nat) (join : Bool) (dl : Word) :
    Res :=
  let x := s.epAt g e
  let wait (st : EpState) (grant : Option Hdr) (hq : List Hdr) : State :=
    let s1 := (s.setEp g e { x with st := st, grant := grant, hq := hq }).retire g k p
    let q := { s1.procAt g k with deadline := dl }
    s1.block g k q .chan (.recv p.pc e ek a c addr join)
  if x.mode then
    match x.slots with
    | y :: _ =>
      if y.filled then
        let d := s.slotData g x 0
        let s1 := (s.setEp g e x.pop).slotRead g x p.dye
        let s2 := if y.failed then s1 else s1.putElement g k p p.dye ek a addr d.1 d.2
        let s3 := s2.settleEp g e
        s3.received g k (s3.procAt g k) c (if y.failed then 3 else 0) e join
      else if dl ≤ s.time then s.received g k p c 1 e join
      else .next (wait x.st x.grant x.hq)
    | [] => if dl ≤ s.time then s.received g k p c 1 e join else .next (wait x.st x.grant x.hq)
  else match x.hq with
    | h :: rest =>
      let st' : EpState := if rest.isEmpty then .empty else .pend
      if h.failed then (s.setEp g e { x with hq := rest, st := st' }).received g k p c 3 e join
      else if h.carried then
        let s1 := (s.setEp g e { x with hq := rest, st := st' }).putElement g k p h.payer ek a addr h.bytes h.tag
        let s2 := s1.taken g h true
        s2.received g k (s2.procAt g k) c 0 e join
      else .next ((wait .xfer (some h) rest).grantTo g e h addr false)
    | [] => if dl ≤ s.time then s.received g k p c 1 e join else .next (wait .waitr none [])

/-- A receiving form (08 R302-R304): the checks of the endpoint, those of the destination, then the loop. -/
def State.receiveForm (s : State) (rs : List Reg) (a : Reg) (ek : BitVec 2) (join t : Bool) (b c d : Reg)
    (dest : Nat → Nat → Proc → Endp → (State → Nat → Res) → Res) : Res :=
  s.withProc fun g k p =>
    if p.awaits (rs ++ [b, c] ++ (if t then [d] else [])) || p.acquiring then s.stall
    else
      let e := (p.reg b).toNat % 256
      let x := s.epAt g e
      if x.st = .closed || x.st = .forwarding then .next (s.trap g k p .closed 0)
      else if x.owner ≠ k then .next (s.trap g k p .rights 0)
      else if x.ek ≠ ek || x.exit != join then .next (s.trap g k p .type 0)
      else dest g k p x fun s1 addr => s1.receiveAt g k p e ek a c addr join (if t then p.reg d else Config.never)

/-- RECV (08 R303). -/
def execRecv (a : Reg) (t : Bool) (b c d : Reg) (s : State) : Res :=
  s.receiveForm [a] a 0 false t b c d fun _ _ _ _ f => f s 0

/-- JOIN: the word of an exit endpoint (08 R303, R309). -/
def execJoin (a : Reg) (t : Bool) (b c d : Reg) (s : State) : Res :=
  s.receiveForm [a] a 0 true t b c d fun _ _ _ _ f => f s 0

/-- RECVB: the destination lies in the segment at a multiple of 16 (08 R304). -/
def execRecvb (a : Reg) (t : Bool) (b c d : Reg) (s : State) : Res :=
  s.receiveForm [a] a 1 false t b c d fun g k p x f =>
    let ea := p.reg a
    if ea.toNat % 16 ≠ 0 then .next (s.trap g k p .align ea)
    else if !p.inSeg ea (x.esz.toNat + 1) then .next (s.trap g k p .segment ea)
    else f s ea.toNat

/-- RECVT: the process owns the tile unit and the tile's shape fits the element (08 R304, 10 R363). -/
def execRecvt (a : BitVec 3) (t : Bool) (b c d : Reg) (s : State) : Res :=
  s.receiveForm [] (a.setWidth 4) 2 false t b c d fun g k p x f =>
    s.acquire g k p fun s1 =>
      let sh := (s1.tileAt g).shape a.toNat
      if shapeRows sh * shapeBpr sh ≠ x.esz.toNat + 1 || !shapeSends sh then .next (s1.trap g k p .type 0)
      else if s1.tilePending (s1.pref g k) then s1.stall
      else f s1 a.toNat

/-- RECVH (08 R303). -/
def execRecvh (a : Reg) (t : Bool) (b c d : Reg) (s : State) : Res :=
  s.receiveForm [a, oddOf a] a 3 false t b c d fun _ _ _ _ f => f s 0

/-! Opening and closing. -/

/-- The lowest-numbered closed endpoint of a core (08 R296). -/
def Core.freeEp (c : Core) : Option Nat := (List.range Config.numEndpoints).find? fun e => (c.epAt e).st == .closed

/-- CHOPEN (08 R295, R296). -/
def execChopen (a b c : Reg) (s : State) : Res :=
  s.withProc fun g k p =>
    if p.awaits [a, oddOf a, b, c] || p.acquiring then s.stall
    else
      let d := p.reg b
      let esz := bitsOf d.toNat 11 0
      let ek := bitsOf d.toNat 13 12
      let mode := d.getLsbD 14
      let depth := bitsOf d.toNat 19 15
      let ro := (p.reg c).toNat
      if bitsOf d.toNat 63 40 ≠ 0 || d.getLsbD 23 then .next (s.trap g k p .bounds 0)
      else if (ek == 0 && esz != 7) || (ek == 3 && esz != 15) || (ek == 2 && decide (3071 < esz)) || (!mode && depth != 0) then
        .next (s.trap g k p .bounds 0)
      else if mode && ro % 64 != 0 then .next (s.trap g k p .align (p.reg c))
      else if mode && decide (p.segLen < ro + (depth + 1) * roundUp (esz + 1) 64) then .next (s.trap g k p .segment (p.reg c))
      else match (s.coreAt g).freeEp with
        | none => .next (s.retire g k (p.setPair a 0 0 false))
        | some e =>
          let x := s.epAt g e
          let y : Endp := { Endp.zero with
            st := if mode then .buffered else .empty
            ek := BitVec.ofNat 2 ek
            esz := BitVec.ofNat 12 esz
            mode := mode
            depth := BitVec.ofNat 5 depth
            owner := k
            acc := d.extractLsb' 24 16 ||| (1#16 <<< p.part)
            gen := x.gen
            ring := if mode then BitVec.ofNat 32 ro else 0 }
          let h := mkHandle p.part s.bring.pkgid false g e y.ek y.esz mode y.depth (d.getLsbD 20) (d.getLsbD 21) (d.getLsbD 22) x.gen
          .next ((s.setEp g e y).retire g k (p.setPair a (h.setWidth 64) (h.extractLsb' 64 64) true))

/-- CHCLOSE (08 R297): it waits for a granted transfer (01 R40). -/
def execChclose (a : Reg) (s : State) : Res :=
  s.withProc fun g k p =>
    if p.awaits [a] || p.acquiring then s.stall
    else
      let e := (p.reg a).toNat % 256
      let x := s.epAt g e
      if x.st = .closed || x.st = .forwarding then .next (s.trap g k p .closed 0)
      else if x.owner ≠ k then .next (s.trap g k p .rights 0)
      else if x.exit then .next (s.trap g k p .type 0)
      else if x.busy then s.stall
      else .next ((s.closeNow g e).retire g k p)

/-! Alternatives. -/

/-- The first failing check of an ALT's enabled guards (08 R306). -/
def State.guardFault (s : State) (g k : Nat) (es : List (Nat × Nat)) : Option Cause :=
  es.findSome? fun e =>
    let x := s.epAt g e.2
    if x.st = .closed || x.st = .forwarding then some .closed else if x.owner ≠ k then some .rights else none

/-- ALT (01 R45, R46, 08 R306): `fair` for ALTF. The deadline of a selection after blocking is the one read at issue (08 R291). -/
def State.alt (s : State) (fair : Bool) (a : Reg) (t : Bool) (b c d : Reg) (n : BitVec 4) : Res :=
  s.withProc fun g k p =>
    if p.awaits ([a, b, c] ++ (if t then [d] else [])) || p.acquiring then s.stall
    else
      let count := n.toNat + 1
      let base := p.reg b
      if !p.inSeg base count then .next (s.trap g k p .segment base)
      else if s.localHeld g (Span.ofLen (p.phys base) count) Span.none then s.stall
      else
        let list := s.lmRead g (p.phys base) count
        let mask := p.reg c
        let es := ((List.range count).map fun j => (j, ((list.getD j 0).toNat))).filter fun e => mask.getLsbD e.1
        match s.guardFault g k es with
        | some x => .next ((s.lmCharge g p.dye count).trap g k p x 0)
        | none =>
          let paid := s.lmCharge g p.dye count
          let dl := match p.blk with
            | .alt pc _ => if pc = p.pc then p.deadline else if t then p.reg d else Config.never
            | _ => if t then p.reg d else Config.never
          let start := if fair then p.rot.toNat % count else 0
          let order := (List.range count).map fun i => (start + i) % count
          let q := { p with blk := .none, deadline := Config.never }
          let rot (x : Proc) : Proc := if fair then { x with rot := BitVec.ofNat 4 ((start + 1) % count) } else x
          match order.find? fun j => es.any fun e => e.1 == j && (s.epAt g e.2).ready with
          | some j => .next (paid.retire g k ((rot q).setReg a (BitVec.ofNat 64 j)))
          | none =>
            if t && decide (dl ≤ s.time) then .next (paid.retire g k ((rot q).setReg a 16))
            else if es.isEmpty && !t then .next (paid.retire g k (q.setReg a 17))
            else
              let s1 := es.foldl (fun st e =>
                let x := st.epAt g e.2
                if x.st = .empty then st.setEp g e.2 { x with st := .guard } else st) paid
              .next (s1.block g k { p with deadline := if t then dl else Config.never } .chan (.alt p.pc (es.map (·.2))))

/-- ALTP: the priority form (01 R46). -/
def execAltp (a : Reg) (t : Bool) (b c d : Reg) (n : BitVec 4) (s : State) : Res := s.alt false a t b c d n

/-- ALTF: the fair form (01 R46). -/
def execAltf (a : Reg) (t : Bool) (b c d : Reg) (n : BitVec 4) (s : State) : Res := s.alt true a t b c d n

/-! The messages. -/

/-- The rendezvous or buffered sender of a header leaves its wait (01 R36, R39); a message that its receiver did not count is counted here
(01 R64). -/
def State.sent (s : State) (h : Hdr) (counted : Bool) : State :=
  match h.from_ with
  | .proc r =>
    let s1 := if counted then s else s.countRcvd r.g h.launch
    match s1.find r with
    | none => s1
    | some p =>
      match p.blk with
      | .send _ id _ _ _ _ => if id = h.hid then s1.wake r.g r.slot { p with blk := .none } else s1
      | _ => s1
  | _ => s

/-- A member of a third-party read has answered: none for accepted. -/
def State.memberAnswer (s : State) (k i : Nat) (c : Option Cause) : State :=
  { s with tprs := s.tprs.map fun (t : Tpr) =>
      if t.k == k then { t with members := t.members.modify i fun m => { m with answered := true, refused := c } } else t }

/-- Every recipient has accepted, refused, or received a failed void delivery. -/
def Tpr.answered (t : Tpr) : Bool := t.members.all (·.answered)

/-- A read that nobody waits for any more leaves the relay buffer (02 R125). -/
def Tpr.ended (t : Tpr) : Bool :=
  t.answered && (t.reported || (t.report.isNone && t.fault.isNone && t.members.all fun m => m.refused.isNone))

/-- Reads that are over are forgotten. -/
def State.reapTprs (s : State) : State := { s with tprs := s.tprs.filter fun t => !t.ended }

/-- An acceptance or done message has reached the sender's side; a read that is over with it is forgotten (02 R125). -/
def State.acknowledged (s : State) (h : Hdr) (counted : Bool) : State :=
  match h.from_ with
  | .third k i =>
    let s1 := s.memberAnswer k i none
    let s2 := match s.tprs.find? fun t => t.k == k with
      | some t => if counted then s1 else s1.countRcvd t.who.g t.launch
      | none => s1
    s2.reapTprs
  | _ => s.sent h counted

/-- A closed reply or refusal has reached the sender's side (01 R30, R40, R64, 08 R299): the sending instruction will trap. A failed void delivery was
counted when it was sent or arrived (R64), and nobody waits for its answer. -/
def State.refused (s : State) (h : Hdr) (c : Cause) : State :=
  match h.from_ with
  | .third k i =>
    if h.failed then s else
    let s1 := s.memberAnswer k i (some c)
    match s.tprs.find? fun t => t.k == k with
    | some t =>
      let hd := (t.members.getD i { handle := 0, sent := false, answered := false, refused := none }).handle
      if hPkg hd = s.bring.pkgid.toNat && s.counts (hLoc hd) t.launch then s1 else s1.countRcvd t.who.g t.launch
    | none => s1
  | .proc r =>
    let s1 := s.countRcvd r.g h.launch
    match s1.find r with
    | none => s1
    | some p =>
      match p.blk with
      | .send pc id _ _ _ _ =>
        if id = h.hid then s1.wake r.g r.slot { p with blk := .replyTrap pc c, pc := pc } else s1
      | _ => s1
  | _ => s

/-- The reply to a header of another package leaves by its port (16 R489). -/
def State.farReply (s : State) (h : Hdr) (ok : Bool) (cause : BitVec 4) : Option State :=
  match h.from_ with
  | .far pkg ident => s.leave pkg h.dye (.headerReply ident ok cause) 0
  | _ => none

/-- The dye whose message a body is, and its bytes of data, as its transport is charged (01 R74, 08 R294). -/
def Body.fare : Body → BitVec 16 × Nat
  | .header _ h => (h.payer, h.bytes.length)
  | .done h _ | .accept h _ | .refuse h _ => (h.payer, 0)
  | _ => (0, 0)

/-- A message for core g is caught in its spill ring while its partition is held (01 R71, 08 R293, 14 R453); one that finds the ring full is
returned and sent again 1 µs later (R453). `rest` is the state without the message. -/
def State.catchSpill (s rest : State) (g : Nat) (m : Msg) : State :=
  if s.spillRoom g m then { rest with spilled := rest.spilled ++ [m] }
  else match m.body with
    | .header e h => rest.bounce g h e
    | b => (rest.transport (.core g) m.src b.fare.1 b.fare.2).post (.core g) m.src (.bounced g b (s.cycle + microsecond))

/-- A member blocked on the released phase is made ready (08 R316). -/
def State.wakeMember (s : State) (sc phase : Nat) (r : PRef) : State :=
  match s.find r with
  | none => s
  | some p =>
    match p.blk with
    | .barrier _ a sc' =>
      if sc' = sc && p.arrPhase == phase && p.state == .barrier then
        s.wakeWith r.g r.slot { p with blk := .none, ap := false } a 0
      else s
    | _ => s

/-- What a message of the channel protocol does at its core (14 R454 replays spilled ones so). -/
def State.handle (s : State) (g : Nat) (b : Body) : State :=
  match b with
  | .header e h => s.arrive g e h
  | .done h c => s.sent h c
  | .accept h c => s.acknowledged h c
  | .refuse h c => s.refused h c
  | .release r sc phase => s.wakeMember sc phase r
  | _ => s

/-- CHANNEL_HEADER_ARRIVAL (01 R35, R38, R71, 14 R442, R445); a header for another package leaves by the egress port (16 R491). -/
def execChannelHeaderArrival (n : Nat) (s : State) : Res :=
  match s.takeMsg n with
  | some (m, s1) =>
    match m.dst, m.body with
    | .core g, .header _ _ => .next (if s.spills g then s.catchSpill s1 g m else s1.handle g m.body)
    | .egress, .farHeader pkg g e h =>
      match s1.leave pkg h.dye (.header h.hid h.part g e h.gen h.ek h.len h.bytes h.tag h.failed (match h.from_ with | .third _ _ => true | _ => false)) with
      | some s2 => .next (if h.failed then s2 else { s2 with farHdrs := s2.farHdrs ++ [(pkg, h)] })
      | none => .next s
    | _, _ => .next s
  | none => .next s

/-- A resent block's bytes read again from its sender's LM, at the sender's charge (15 R481). -/
def State.resendCharge (s : State) (h : Hdr) (n : Nat) : State :=
  match h.from_ with
  | .proc r => if h.ek = 1 then s.lmCharge r.g h.payer n else s
  | _ => s

/-- HEADER_RESEND (14 R445, R453): a returned header or message is sent again once its microsecond has passed; a barrier's release that comes again is
taken, or caught, at once (01 R71, 08 R293). -/
def execHeaderResend (n : Nat) (s : State) : Res :=
  match s.takeMsg n with
  | some (⟨_, dst, .returned g e h due⟩, s1) =>
    if due ≤ s.cycle then
      let data := match h.from_ with
        | .proc r => match s1.find r with
          | some p => match p.blk with
            | .send _ _ ek _ addr len =>
              if h.carried || !(s.epAt g e).mode then h.bytes
              else if ek = 1 then s1.lmRead r.g (p.sb.toNat + addr) len
              else (s1.tileAt r.g).image addr ((s1.tileAt r.g).shape addr)
            | _ => h.bytes
          | none => h.bytes
        | _ => h.bytes
      .next ((s1.resendCharge h data.length).sendFor h dst (.core g) data.length (.header e { h with bytes := data }))
    else .next s
  | some (⟨_, dst, .bounced g b due⟩, s1) =>
    if due ≤ s.cycle then
      let s2 := s1.transport dst (.core g) b.fare.1 b.fare.2
      match b with
      | .release _ _ _ => .next (if s.spills g then s.catchSpill s2 g ⟨dst, .core g, b⟩ else s2.handle g b)
      | _ => .next (s2.post dst (.core g) b)
    else .next s
  | _ => .next s

/-- The data of a granted transfer as its sender's core reads it now (01 R36, R39, 08 R301, 02 R125): the whole element at the grant (DESIGN CHOICE, log
entry 73). -/
def State.grantedData (s : State) (h : Hdr) : List Byte :=
  match h.from_ with
  | .proc r =>
    match s.find r with
    | some p =>
      match p.blk with
      | .send _ _ ek _ addr len =>
        if ek = 2 then (s.tileAt r.g).image addr ((s.tileAt r.g).shape addr) else s.lmRead r.g (p.sb.toNat + addr) len
      | _ => (List.range h.len).map fun i => Config.lostByte h.hid i
    | none => (List.range h.len).map fun i => Config.lostByte h.hid i
  | .third k _ =>
    match s.tprs.find? fun t => t.k == k with
    | some t => t.data.getD []
    | none => (List.range h.len).map fun i => Config.lostByte h.hid i
  | _ => h.bytes

/-- The relay buffer of a third-party read's cluster read or written, charged as its cluster memory is (02 R125, R126; log entry 61). -/
def State.relayCharge (s : State) (t : Tpr) (n : Nat) : State := s.charge (meterCluster (clusterOf t.who.g)) t.dye .cm ((n + 63) / 64)

/-- The data of a delivery read at its sender's side: a third-party read's from its relay buffer (02 R125), a block from its sender's LM (15 R481). -/
def State.relayRead (s : State) (h : Hdr) (n : Nat) : State :=
  match h.from_ with
  | .third k _ => (match s.tprs.find? fun t => t.k == k with | some t => s.relayCharge t n | none => s)
  | .proc r => if h.ek = 1 && n != 0 then s.lmCharge r.g h.payer n else s
  | _ => s

/-- TRANSFER_GRANT (01 R36, R39): the grant reaches the sender's side, whose network interface moves the data; a grant of a header from another
package goes there. -/
def execTransferGrant (n : Nat) (s : State) : Res :=
  match s.takeMsg n with
  | some (⟨_, dst, .grant g e h addr slot⟩, s1) =>
    match dst, h.from_ with
    | .egress, .far pkg ident =>
      match s1.leave pkg h.dye (.headerGrant ident) 0 with
      | some s2 => .next { s2 with farIn := s2.farIn ++ [(g, e, addr, slot, h)] }
      | none => .next s
    | _, _ =>
      let data := s1.grantedData h
      let dest : Node := if s1.farHdrs.any fun x => x.2.hid == h.hid then .egress else .core g
      .next (((s1.relayRead h data.length).transport dst dest h.payer data.length).post dst dest (.data e h data addr slot))
  | _ => .next s

/-- Data for another package leaves as a packet; none while the port cannot take it. -/
def State.sendData (s : State) (h : Hdr) (bytes : List Byte) : Option State :=
  match s.farHdrs.find? fun x => x.2.hid == h.hid with
  | some x => s.leave x.1 h.dye (.headerData h.hid bytes)
  | none => none

/-- TRANSFER_DONE (01 R36, R37): the last byte of a rendezvous transfer is written; the owner is made ready and the sender is told. -/
def execTransferDone (n : Nat) (s : State) : Res :=
  match s.takeMsg n with
  | some (⟨src, dst, .data e h bytes addr false⟩, s1) =>
    match dst with
    | .egress => .next ((s1.sendData h bytes).getD s)
    | .core g =>
      let x := s1.epAt g e
      if x.st = .forwarding then
        .next ((s1.transport (.core g) (.core x.fwd.1) h.payer bytes.length).post src (.core x.fwd.1) (.data x.fwd.2 h bytes addr false))
      else match x.grant with
        | none => .next s1
        | some h' =>
          if h'.hid ≠ h.hid then .next s1
          else
            let s2 := s1.setEp g e { x with grant := none, st := if x.hq.isEmpty then .empty else .pend }
            let p := s2.procAt g x.owner
            let s3 := match p.blk with
              | .recv _ _ ek a c _ _ =>
                let q := s2.putElement g x.owner { p with blk := .none } h.payer ek a addr bytes false
                q.wakeWith g x.owner (q.procAt g x.owner) c 0
              | _ => s2
            .next ((s3.taken g h true).finishClose g e)
    | _ => .next s
  | _ => .next s

/-- DONE_MESSAGE (01 R36). -/
def execDoneMessage (n : Nat) (s : State) : Res :=
  match s.takeMsg n with
  | some (m, s1) =>
    match m.dst, m.body with
    | .core g, .done _ _ => .next (if s.spills g then s.catchSpill s1 g m else s1.handle g m.body)
    | .egress, .done h _ => .next ((s1.farReply h true 0).getD s)
    | _, _ => .next s
  | none => .next s

/-- GRANTED_DATA_ARRIVAL (01 R38): a reserved slot is filled and the message accepted. -/
def execGrantedDataArrival (n : Nat) (s : State) : Res :=
  match s.takeMsg n with
  | some (⟨src, dst, .data e h bytes addr true⟩, s1) =>
    match dst with
    | .egress => .next ((s1.sendData h bytes).getD s)
    | .core g =>
      let x := s1.epAt g e
      if x.st = .forwarding then
        .next ((s1.transport (.core g) (.core x.fwd.1) h.payer bytes.length).post src (.core x.fwd.1) (.data x.fwd.2 h bytes addr true))
      else
        let i := x.slots.findIdx fun y => y.hid == h.hid && !y.filled
        if x.slots.length ≤ i then .next s1
        else
          let s2 := s1.writeSlot g e i h bytes
          let y := s2.epAt g e
          let s3 := s2.setEp g e { y with slots := y.slots.modify i fun z => { z with filled := true } }
          .next ((s3.taken g h false).settleEp g e)
    | _ => .next s
  | _ => .next s

/-- ACCEPTANCE (01 R39). -/
def execAcceptance (n : Nat) (s : State) : Res :=
  match s.takeMsg n with
  | some (m, s1) =>
    match m.dst, m.body with
    | .core g, .accept _ _ => .next (if s.spills g then s.catchSpill s1 g m else s1.handle g m.body)
    | .cluster _, .accept h c => .next (s1.acknowledged h c)
    | .egress, .accept h _ => .next ((s1.farReply h true 0).getD s)
    | _, _ => .next s
  | none => .next s

/-- CLOSED_REPLY (01 R30, R31, R40): the reply of a refused header reaches its sender's side. -/
def execClosedReply (n : Nat) (s : State) : Res :=
  match s.takeMsg n with
  | some (m, s1) =>
    match m.dst, m.body with
    | .core g, .refuse _ _ => .next (if s.spills g then s.catchSpill s1 g m else s1.handle g m.body)
    | .cluster _, .refuse h c => .next (s1.refused h c)
    | .egress, .refuse h c => .next ((s1.farReply h false c.code).getD s)
    | _, _ => .next s
  | none => .next s

end Sys2Proof.Machine
end

