-- ==== Sys2Proof/Machine/ThirdParty.lean ====
section
/-! DEFINITION. Third-party reads (02 R120-R127, 07 R281-R287): RDTO and RDTOG in all their forms, the source read, the deliveries, and what the
requester is told. -/

namespace Sys2Proof.Machine

/-! The relay buffer (02 R125). -/

/-- Bytes of the relay buffer reserved to a core. -/
def relayReserve : Nat := 4096
/-- Bytes of the relay buffer that the cluster shares. -/
def relayShared : Nat := 65536

/-- Whether a read of `n` bytes by core g fits: in the reserve (false), in the shared space (true), or not at all. -/
def State.relayFit (s : State) (g n : Nat) : Option Bool :=
  let own := ((s.tprs.filter fun t => t.who.g == g && !t.shared && !t.answered).map (·.len)).sum
  let all := ((s.tprs.filter fun t => clusterOf t.who.g == clusterOf g && t.shared && !t.answered).map (·.len)).sum
  if own + n ≤ relayReserve then some false else if all + n ≤ relayShared then some true else none

/-! Issue. -/

/-- First byte of a group's descriptor (02 R121). -/
def groupDesc (h : BitVec 128) : Nat := (h.extractLsb' 64 48).toNat * 16
/-- Members of a group (02 R121). -/
def groupCount (h : BitVec 128) : Nat := (h.extractLsb' 114 6).toNat + 1
/-- T of a group handle (02 R121). -/
def groupT (h : BitVec 128) : Bool := h.getLsbD 113

/-- The source of a third-party read (07 R282): its first byte, and its far pointer in the X forms. -/
def State.tprSource (s : State) (g : Nat) (p : Proc) (far : Bool) (b c : Reg) : Except (Cause × Word) (Word × Option (BitVec 128)) :=
  let len := bitsOf (p.reg c).toNat 12 0
  let off : Word := p.reg c >>> 13
  if len = 0 ∨ 4096 < len then .error (.bounds, 0)
  else if far then
    if !p.pairTag b then .error (.captag, 0)
    else if hCk (p.pair b) ≠ 3 then .error (.rights, 0)
    else .ok (off, some (p.pair b))
  else
    let src := p.reg b + off
    match s.rangeCheck p.part rightR src len with
    | some e => .error (e, src)
    | none =>
      let there := match (s.translate p.part (clusterOf g) p.dye src.toNat).1 with | .ok l => l.isFar | _ => false
      if s.noticed g p && !there then .error (.revoked, src) else .ok (src, none)

/-- The recipients of a third-party read, when they are known (07 R282): none while the descriptor is read. -/
def Proc.tprMembers (p : Proc) (group : Bool) (h : BitVec 128) : Option (Except Cause (List (BitVec 128))) :=
  if !group then some (.ok [h])
  else match p.wait with
    | .desc pc got fault =>
      if pc ≠ p.pc then none
      else match fault with
        | some c => some (.error c)
        | none =>
          if got.length < groupCount h then none
          else
            let l := (List.range (groupCount h)).map fun i => ((got.find? fun x => x.1 == i).map (·.2)).getD none
            if l.any Option.isNone then some (.error .captag)
            else
              let m := l.map fun x => x.getD 0
              if m.all fun x => hCk x == 1 && hT x then some (.ok m) else some (.error .rights)
    | _ => none

/-- The reads of a group's descriptor are sent, in current mode and never forwarded (07 R282). -/
def State.askDesc (s : State) (g k : Nat) (p : Proc) (h : BitVec 128) : State :=
  let base := groupDesc h
  let q := { p with wait := .desc p.pc [] none, outs := p.outs.filter fun o => match o.dest with | .desc _ => false | _ => true }
  (List.range (groupCount h)).foldl (fun st i =>
    let ea : Word := BitVec.ofNat 64 (base + 16 * i)
    let f := st.fresh
    let t := f.2.translate p.part (clusterOf g) p.dye ea.toNat
    let cur := t.2.procAt g k
    let out : Out := { oid := f.1, seq := p.seq, pc := p.pc, ea := ea, len := 16, dest := .desc i, acquire := false }
    let s1 := t.2.setProc g k { cur with outs := cur.outs ++ [out] }
    match t.1 with
    | .error e => s1.post (.cluster (clusterOf g)) (.core g) (.err (s1.request g k p f.1 (.lm g 0) 16 (.readCap false)) e)
    | .ok l =>
      let r := { s1.request g k p f.1 l 16 (.readCap false) with mode := .current p.vseen.toNat }
      match (if l.isFar then s.farCheck p.part ea.toNat 16 0 else none) with
      | some e => s1.post .egress (.core g) (.err r e)
      | none => (s1.carry g l.node p.dye 0).post (.core g) l.node (.req r)) (s.setProc g k q)

/-- The report endpoint's checks (07 R282). -/
def State.reportCheck (s : State) (g k : Nat) (report : Option Nat) : Option Cause :=
  match report with
  | none => none
  | some f =>
    let x := s.epAt g f
    if x.st = .closed || x.st = .forwarding then some .closed
    else if x.owner ≠ k then some .rights
    else if x.ek ≠ 0 then some .type
    else none

/-- Queue entries that the parts of a source go behind (02 R91, 07 R282). -/
def State.tprBehind (s : State) (who : PRef) (q : List WqE) (p : Proc) (src len : Nat) : List Nat :=
  (List.range ((src + len - 1) / 128 - src / 128 + 1)).flatMap fun u =>
    match (s.translate p.part (clusterOf who.g) p.dye (max src ((src / 128 + u) * 128))).1 with
    | .ok l => behindOf q who l 128
    | .error _ => []

/-- RDTO and RDTOG (07 R281, R282): every check in its order, the waits, then the read is issued. -/
def State.thirdParty (s : State) (group far : Bool) (a b c : Reg) (report : Option Nat) : Res :=
  s.withProc fun g k p =>
    if p.awaits ([a, oddOf a, b, c] ++ (if far then [oddOf b] else [])) || p.acquiring then s.stall
    else
      let h := p.pair a
      if !p.pairTag a then .next (s.trap g k p .captag 0)
      else if (if group then hCk h ≠ 2 || !groupT h else hCk h ≠ 1 || !hT h) then .next (s.trap g k p .rights 0)
      else match s.tprSource g p far b c with
        | .error e => .next (s.trap g k p e.1 e.2)
        | .ok (src, fp) =>
          let descFault := if group && (match p.wait with | .desc pc _ _ => pc != p.pc | _ => true) then
              s.rangeCheck p.part rightR (BitVec.ofNat 64 (groupDesc h)) (16 * groupCount h)
            else none
          match descFault, p.tprMembers group h with
          | some e, _ => .next (s.trap g k p e (BitVec.ofNat 64 (groupDesc h)))
          | none, none =>
            if (match p.wait with | .desc pc _ _ => pc == p.pc | _ => false) ||
                (List.range (groupCount h)).any (fun i => s.walkWaits p.part (clusterOf g) (groupDesc h + 16 * i)) then s.stall
            else .next (s.askDesc g k p h)
          | none, some (.error e) => .next (s.trap g k p e (if e = .captag || e = .rights then 0 else BitVec.ofNat 64 (groupDesc h)))
          | none, some (.ok ms) =>
            let len := bitsOf (p.reg c).toNat 12 0
            match s.reportCheck g k report with
            | some e => .next (s.trap g k p e 0)
            | none =>
              if s.heldBack g p then s.stall
              else match s.relayFit g len with
                | none => s.stall
                | some shared =>
                  let f := s.reapTprs.fresh
                  let who := s.pref g k
                  let n := ms.length + (if report.isSome then 1 else 0)
                  let t : Tpr := {
                    k := f.1, who := who, part := p.part, launch := p.launch, dye := p.dye, pc := p.pc, seq := p.seq
                    report := report
                    rgen := match report with | some x => (s.epAt g x).gen | none => 0
                    rseq := p.rseq, src := src, far := fp, len := len
                    mode := if p.txid != 0 || p.sm then .snapshot p.snap.toNat else .current p.vseen.toNat
                    behind := if fp.isNone then s.tprBehind who (s.clusterAt (clusterOf g)).wq p src.toNat len else []
                    behindEq := if fp.isNone then s.tprBehind who s.egress p src.toNat len else []
                    members := ms.map fun x => { handle := x, sent := false, answered := false, refused := none }
                    shared := shared, parts := [], asked := [], data := none, fault := none, reported := false }
                  let s1 : State := { f.2 with tprs := f.2.tprs ++ [t] }
                  let q := { p with seq := p.seq + 1, rseq := if report.isSome then p.rseq + 1 else p.rseq }
                  .next ((s1.countSent g p.launch n).retire g k q)

/-- RDTO (07 R282). -/
def execRdto (a b c : Reg) (s : State) : Res := s.thirdParty false false a b c none
/-- RDTO with a report (07 R282, R284). -/
def execRdtoWithReport (a b c : Reg) (f : BitVec 8) (s : State) : Res := s.thirdParty false false a b c (some f.toNat)
/-- RDTOX: the source by a far pointer (07 R281). -/
def execRdtox (a b c : Reg) (s : State) : Res := s.thirdParty false true a b c none
/-- RDTOX with a report. -/
def execRdtoxWithReport (a b c : Reg) (f : BitVec 8) (s : State) : Res := s.thirdParty false true a b c (some f.toNat)
/-- RDTOG: to every member of a group (02 R120). -/
def execRdtog (a b c : Reg) (s : State) : Res := s.thirdParty true false a b c none
/-- RDTOG with a report. -/
def execRdtogWithReport (a b c : Reg) (f : BitVec 8) (s : State) : Res := s.thirdParty true false a b c (some f.toNat)
/-- RDTOGX. -/
def execRdtogx (a b c : Reg) (s : State) : Res := s.thirdParty true true a b c none
/-- RDTOGX with a report. -/
def execRdtogxWithReport (a b c : Reg) (f : BitVec 8) (s : State) : Res := s.thirdParty true true a b c (some f.toNat)

/-! The read. -/

/-- Third-party read k changed. -/
def State.mapTpr (s : State) (k : Nat) (f : Tpr → Tpr) : State :=
  { s with tprs := s.tprs.map fun (t : Tpr) => if t.k == k then f t else t }

/-- A source-side fault (02 R123): the first that any part meets. -/
def Tpr.faulted (t : Tpr) (c : Cause) : Tpr := if t.fault.isSome || t.data.isSome then t else { t with fault := some c }

/-- Part u has been read; the last one makes the data complete. -/
def Tpr.gotPart (t : Tpr) (u : Nat) (bytes : List Byte) : Tpr :=
  if t.fault.isSome || t.parts.any fun x => x.1 == u then t
  else
    let parts := t.parts ++ [(u, bytes)]
    let all := (List.range t.count).all fun i => parts.any fun x => x.1 == i
    { t with
      parts := parts
      data := if all then some ((List.range t.count).flatMap fun i => ((parts.find? fun x => x.1 == i).map (·.2)).getD []) else none }

/-- A current-mode read of this line is held by a prepared mark (02 R110). -/
def State.readHeld (s : State) (m : ReadMode) (l : Loc) : Bool :=
  match l, m with
  | .hbm _ dpa, .current _ => (s.lineAt (dpa / 128)).prep.isSome
  | _, _ => false

/-- Queue entries and requests that a part of a source goes behind (02 R91, R92, 03 R134): older ones that meet its bytes or are its process's and have
its home. -/
def State.sourceBlocked (s : State) (t : Tpr) (l : Loc) (n : Nat) : Bool :=
  let first (e : WqE) : Bool := decide (e.oid < t.k) && (e.meets l n || (e.who == t.who && e.loc.sameHome l))
  (s.clusterAt (clusterOf t.who.g)).wq.any first || (l.isFar && s.egress.any first) || s.olderAt t.who t.k l

/-- The data of a part comes to the relay buffer, or its fault to the cluster engine (02 R125, R126): the transport is the requester's. -/
def State.sourceBack (s : State) (t : Tpr) (l : Loc) (n : Nat) : State :=
  (s.transport l.node (.cluster (clusterOf t.who.g)) t.dye n).relayCharge t n

/-- SOURCE_READ (02 R124, 07 R283): part u of the source of read k is read at its home in arrival order, or asked of its package. -/
def execSourceRead (k u : Nat) (e : Ecc) (s : State) : Res :=
  match s.tprs.find? fun t => t.k == k with
  | none => .next s
  | some t =>
    if t.count ≤ u || !t.wants u || (t.far.isNone && s.walkWaits t.part (clusterOf t.who.g) (t.part_ u).1) then .next s
    else if ((s.clusterAt (clusterOf t.who.g)).wq.any fun x => t.behind.contains x.seq) ||
        (s.egress.any fun x => t.behindEq.contains x.seq) then .next s
    else
      let pt := t.part_ u
      let l := s.tprLoc t pt.1 pt.2
      let readAt (st : State) (loc : Loc) (m : ReadMode) (here : Bool) : State :=
        if st.readHeld m loc || !st.mayAccept loc t.part || s.sourceBlocked t loc pt.2 then s
        else
          let r : GReq := { oid := 0, who := t.who, dye := t.dye, part := t.part, loc := loc, op := .read pt.2, mode := m
                            behind := [], behindEq := [], ingress := !here }
          let a := ((st.transport (.cluster (clusterOf t.who.g)) loc.node r.payer 0).turned loc t.part).perform r e
          match a.2 with
          | some (.resp _ bytes _ _ v _ _ _) =>
            ((if here then a.1.seen t.who v else a.1).sourceBack t loc pt.2).mapTpr k fun x => x.gotPart u bytes
          | some (.err _ c) => (a.1.sourceBack t loc 0).mapTpr k fun x => x.faulted c
          | _ => s
      match l.1 with
      | .error c => .next (l.2.mapTpr k fun x => x.faulted c)
      | .ok (.far pkg part epoch dva) =>
        if s.sourceBlocked t (.far pkg part epoch dva) pt.2 then .next s
        else if pkg = s.bring.pkgid.toNat then
          if s.ingressWaits part dva then .next s
          else match l.2.ingress part epoch dva pt.2 rightR with
          | (.error c, s1) => .next (s1.mapTpr k fun x => x.faulted c)
          | (.ok loc, s1) => .next (readAt s1 loc (.current 0) false)
        else
          let f := l.2.fresh
          let r : GReq := { oid := f.1, who := t.who, dye := t.dye, part := t.part, loc := .far pkg part epoch dva, op := .read pt.2
                            mode := .current 0, behind := [], behindEq := [] }
          match (f.2.transport (.cluster (clusterOf t.who.g)) .egress t.dye 0).sendFar r with
          | some s1 => .next (s1.mapTpr k fun x => { x with asked := x.asked ++ [(f.1, u)] })
          | none => .next s
      | .ok loc => .next (readAt l.2 loc t.mode true)

/-! The deliveries. -/

/-- The delivery to member i, as a message of the requester (02 R120, R125). -/
def Tpr.header (t : Tpr) (hid i : Nat) (m : Member) (failed : Bool) : Hdr :=
  let hd := m.handle
  { hid := hid, from_ := .third t.k i, part := t.part, dye := t.dye, gen := hGen hd, ek := hEk hd, len := t.len
    bytes := if failed then [] else if hEk hd = 0 || hMode hd then t.data.getD [] else []
    tag := false, failed := failed, launch := t.launch }

/-- The recipient's core counts for the requester's launch (01 R64). -/
def State.insideLaunch (s : State) (t : Tpr) (hd : BitVec 128) : Bool := hPkg hd == s.bring.pkgid.toNat && !hExt hd && s.counts (hLoc hd) t.launch

/-- Member i of read k is sent its delivery, real or void, from the relay buffer. A void delivery to a recipient outside the launch is counted received
here, as no acknowledgement comes back (01 R64; log entry 22). -/
def State.deliverMember (s : State) (t : Tpr) (i : Nat) (m : Member) (failed : Bool) : State :=
  let f := s.fresh
  let s1 := f.2.mapTpr t.k fun x =>
    { x with members := x.members.modify i fun y => { y with sent := true, answered := failed || y.answered } }
  let h := t.header f.1 i m failed
  let s2 := if failed && !s.insideLaunch t m.handle then s1.countRcvd t.who.g t.launch else s1
  ((s2.relayRead h h.bytes.length).postHeader t.who.g m.handle h).reapTprs

/-- THIRD_PARTY_DELIVERY (02 R120): the data goes to member i. -/
def execThirdPartyDelivery (k i : Nat) (s : State) : Res :=
  match s.tprs.find? fun t => t.k == k with
  | none => .next s
  | some t =>
    match t.members[i]? with
    | none => .next s
    | some m => if t.data.isNone || t.fault.isSome || m.sent then .next s else .next (s.deliverMember t i m false)

/-- FAILED_VOID_DELIVERY (02 R123): after a source-side fault, member i is sent a void delivery. -/
def execFailedVoidDelivery (k i : Nat) (s : State) : Res :=
  match s.tprs.find? fun t => t.k == k with
  | none => .next s
  | some t =>
    match t.members[i]? with
    | none => .next s
    | some m => if t.fault.isNone || m.sent then .next s else .next (s.deliverMember t i m true)

/-- The lowest refused member, with its cause. -/
def Tpr.firstRefused (t : Tpr) : Option (Nat × Cause) :=
  ((List.range t.members.length).findSome? fun i => match t.members[i]? with
    | some m => m.refused.map fun c => (i, c)
    | none => none)

/-- ERROR_COMPLETION (02 R123, 07 R286): without a report, the requester has a deferred fault; an X form's INFO is its source's offset (DESIGN CHOICE, log
entry 72). -/
def execErrorCompletion (k : Nat) (s : State) : Res :=
  match s.tprs.find? fun t => t.k == k with
  | none => .next s
  | some t =>
    if t.report.isSome || t.reported then .next s
    else
      let fault : Option (Cause × Word) := match t.fault with
        | some c => some (c, t.src)
        | none => if t.answered then t.firstRefused.map fun x => (x.2, 0x8000000000000000 + BitVec.ofNat 64 x.1) else none
      match fault with
      | none => .next s
      | some (c, info) =>
        let s1 := s.mapTpr k fun (x : Tpr) => { x with reported := true }
        let s2 : State := match s1.find t.who with
          | some p =>
            let q : Proc := { p with faults := p.faults ++ [{ seq := t.seq, cause := c, fpc := t.pc, info := info }] }
            s1.update t.who q
          | none => s1
        .next s2.reapTprs

/-- The report word (07 R284). -/
def Tpr.reportWord (t : Tpr) : Word :=
  let refused := (t.members.filter fun m => m.refused.isSome).length
  let st : Nat := if t.fault.isSome then 2 else if refused = 0 then 0 else 1
  let cause : BitVec 4 := match t.fault, t.firstRefused with
    | some c, _ => c.code
    | none, some x => x.2.code
    | none, none => 0
  let first := match t.fault, t.firstRefused with
    | none, some x => x.1
    | _, _ => 0xFF
  (BitVec.ofNat 4 st ++ 0#4 ++ 0#4 ++ cause ++ BitVec.ofNat 8 (if t.fault.isSome then 0 else refused) ++ BitVec.ofNat 8 first ++ 0#16 ++
    t.rseq : BitVec 64)

/-- REPORT (07 R284, R285): sent to the report endpoint once every recipient has answered, or at once after a source-side fault. -/
def execReport (k : Nat) (s : State) : Res :=
  match s.tprs.find? fun t => t.k == k with
  | none => .next s
  | some t =>
    match t.report with
    | none => .next s
    | some f =>
      if t.reported || !(t.fault.isSome || t.answered) then .next s
      else
        let id := s.fresh
        let h : Hdr := { hid := id.1, from_ := .report k, part := t.part, dye := t.dye, gen := t.rgen, ek := 0, len := 8
                         bytes := wordBytes 8 t.reportWord, tag := false, failed := false, launch := t.launch }
        let s1 := id.2.mapTpr k fun x => { x with reported := true }
        let s2 := s1.post (.core t.who.g) (.core t.who.g) (.header f h)
        .next s2.reapTprs

end Sys2Proof.Machine
end

