-- ==== Sys2Proof/Machine/Vector.lean ====
section
/-! DEFINITION. The vector unit (09 R321-R353): starting checks, streams, element groups, restart, and every vector instruction. -/

namespace Sys2Proof.Machine

/-- The instructions of 09 R336 by what they compute. -/
inductive VCode where
  | add | sub | mul | div | fma | min | max | abs | neg | cmp | sel | and | or | xor | not | shl | shr | sar | cvt
  | exp2 | log2 | rcp | rsq | tanh | sqrt | red | scan | bcast | perm | gather | scatter | rand | mov | sadd | ssub | mulh
  deriving DecidableEq, Repr

/-! Elements (09 R337-R342). -/

/-- A sign-and-magnitude pattern as an integer: the order of the values, with both zeros at 0 (09 R338). -/
def Fmt.order (f : Fmt) (x : Nat) : Int :=
  let m : Int := (x % 2 ^ (f.e + f.m) : Nat)
  if x / 2 ^ (f.e + f.m) % 2 = 1 then -m else m

/-- The same with -0 below +0 (04 R178). -/
def Fmt.rank (f : Fmt) (x : Nat) : Int :=
  let m : Int := (x % 2 ^ (f.e + f.m) : Nat)
  if x / 2 ^ (f.e + f.m) % 2 = 1 then -m - 1 else m

/-- The conditions of VCMP on ordered operands (09 R338). -/
def vcond (cond : Nat) (x y : Int) : Bool :=
  match cond with
  | 0 => decide (x = y)
  | 1 => decide (x ≠ y)
  | 2 => decide (x < y)
  | 3 => decide (y ≤ x)
  | 4 => decide (x ≤ y)
  | 5 => decide (y < x)
  | 6 => false
  | _ => true

/-- VCMP on a FLT type: the condition, and NV for a signalling NaN (09 R338). -/
def Fmt.compare (f : Fmt) (cond x y : Nat) : Bool × BitVec 5 :=
  let vs := [f.value x, f.value y]
  if vs.any FV.isNan then (decide (cond = 1 ∨ cond = 6), nvOf vs) else (vcond cond (f.order x) (f.order y), 0)

/-- VMIN (`less`) and VMAX on a FLT type (04 R178, 09 R337). -/
def Fmt.pick (f : Fmt) (less : Bool) (x y : Nat) : Nat × BitVec 5 :=
  let vs := [f.value x, f.value y]
  if vs.any FV.isNan then (f.nan, nvOf vs)
  else (if decide (f.rank x ≤ f.rank y) == less then x else y, 0)

/-- VABS and VNEG on a FLT type (09 R337). -/
def Fmt.signOp (f : Fmt) (x : Nat) (g : Nat → Nat) : Nat × BitVec 5 :=
  let v := f.value x
  if v.isNan then (f.nan, nvOf [v]) else (g x, 0)

/-- An element of a FLT instruction that computes (09 R337, R340, R341). -/
def Fmt.elem (f : Fmt) (c : VCode) (mode rnd cond x y z : Nat) : Nat × BitVec 5 :=
  let vx := f.value x
  let vy := f.value y
  let done (r : FV × BitVec 5) : Nat × BitVec 5 := f.roundAny mode rnd (.inl r.1, r.2)
  let top := 2 ^ (f.e + f.m)
  match c with
  | .add => done (FV.add mode vx vy)
  | .sub => done (FV.add mode vx vy.neg)
  | .mul => done (FV.mul vx vy)
  | .div => f.roundAny mode rnd (FV.div vx vy)
  | .fma =>
    let p := FV.mul vx vy
    let r := FV.add mode p.1 (f.value z)
    done (r.1, p.2 ||| r.2)
  | .min => f.pick true x y
  | .max => f.pick false x y
  | .abs => f.signOp x fun v => v % top
  | .neg => f.signOp x fun v => if v / top % 2 = 1 then v - top else v + top
  | .cmp => let r := f.compare cond x y; (if r.1 then 2 ^ f.width - 1 else 0, r.2)
  | .exp2 => Fun.exp2.apply f mode rnd x
  | .log2 => Fun.log2.apply f mode rnd x
  | .rcp => Fun.rcp.apply f mode rnd x
  | .rsq => Fun.rsq.apply f mode rnd x
  | .tanh => Fun.tanh.apply f mode rnd x
  | .sqrt => Fun.sqrt.apply f mode rnd x
  | _ => (x, 0)

/-- An element of an INT instruction that computes (09 R337, 04 R159, R160). -/
def intElem (b : Nat) (sg : Bool) (c : VCode) (cond x y z : Nat) : Nat :=
  let ix := intVal b sg x
  let iy := intVal b sg y
  let iz := intVal b sg z
  match c with
  | .add => wrapInt b (ix + iy)
  | .sub => wrapInt b (ix - iy)
  | .mul => wrapInt b (ix * iy)
  | .div => if iy = 0 then 2 ^ b - 1 else wrapInt b (ix.tdiv iy)
  | .fma => wrapInt b (ix * iy + iz)
  | .min => if ix ≤ iy then x else y
  | .max => if iy ≤ ix then x else y
  | .abs => wrapInt b ix.natAbs
  | .neg => wrapInt b (-ix)
  | .cmp => if vcond cond ix iy then 2 ^ b - 1 else 0
  | .shl => wrapInt b (ix * 2 ^ (y % b))
  | .shr => x / 2 ^ (y % b)
  | .sar => wrapInt b (intVal b true x / 2 ^ (y % b))
  | .sadd => wrapInt b (clampInt b sg (ix + iy))
  | .ssub => wrapInt b (clampInt b sg (ix - iy))
  | .mulh => wrapInt b (ix * iy / 2 ^ b)
  | _ => x

/-- Element i of an instruction that treats its elements one by one (09 R336, R337). -/
def Ty.elem (t : Ty) (c : VCode) (mode rnd cond x y z : Nat) : Nat × BitVec 5 :=
  match c with
  | .and => (x &&& y, 0)
  | .or => (x ||| y, 0)
  | .xor => (x ^^^ y, 0)
  | .not => (2 ^ t.bits - 1 - x, 0)
  | .sel => (if z ≠ 0 then x else y, 0)
  | .mov => (x, 0)
  | _ =>
    match t with
    | .flt f => f.elem c mode rnd cond x y z
    | .int b sg => (intElem b sg c cond x y z, 0)

/-- The operator of VRED and VSCAN (09 R343). -/
def redOp (code : Nat) : VCode :=
  match code with
  | 0 => .add | 1 => .min | 2 => .max | 3 => .and | 4 => .or | _ => .xor

/-- The identity of an operator (04 R182, 09 R343). -/
def Ty.identity (t : Ty) (code : Nat) : Nat :=
  match code, t with
  | 1, .flt f => if f.infs then f.inf false else f.maxBits
  | 2, .flt f => if f.infs then f.inf true else f.sign true + f.maxBits
  | 1, .int b sg => wrapInt b (intMax b sg)
  | 2, .int b sg => wrapInt b (intMin b sg)
  | 3, _ => 2 ^ t.bits - 1
  | _, _ => 0

/-- One level of the reduction tree: neighbours combined, an odd last element risen (04 R181). -/
def treeLevel (op : Nat → Nat → Nat × BitVec 5) : List Nat → List Nat × BitVec 5
  | x :: y :: r =>
    let v := op x y
    let t := treeLevel op r
    (v.1 :: t.1, v.2 ||| t.2)
  | l => (l, 0)

/-- The reduction tree over at most 2^fuel elements (04 R181). -/
def tree (op : Nat → Nat → Nat × BitVec 5) : Nat → List Nat → Nat × BitVec 5
  | 0, l => (l.headD 0, 0)
  | fuel + 1, l =>
    match l with
    | [] => (0, 0)
    | [x] => (x, 0)
    | _ =>
      let a := treeLevel op l
      let b := tree op fuel a.1
      (b.1, a.2 ||| b.2)

/-- The value of element k - 1 of a segment before the carry from the segment before it (09 R345). -/
def scanPrefix (op : Nat → Nat → Nat × BitVec 5) (xs : List Nat) (k : Nat) : Nat × BitVec 5 :=
  let step (a : Option Nat × BitVec 5 × Nat) (p : Nat) : Option Nat × BitVec 5 × Nat :=
    if k / p % 2 = 0 then a
    else
      let b := tree op 3 ((xs.drop a.2.2).take p)
      match a.1 with
      | none => (some b.1, a.2.1 ||| b.2, a.2.2 + p)
      | some v => let r := op v b.1; (some r.1, a.2.1 ||| b.2 ||| r.2, a.2.2 + p)
  let r := [8, 4, 2, 1].foldl step (none, 0, 0)
  (r.1.getD 0, r.2.1)

/-- A segment of VSCAN (09 R345): its results and flags, from the last result of the segment before it. -/
def scanSegment (op : Nat → Nat → Nat × BitVec 5) (xs : List Nat) (prev : Option Nat) : List Nat × BitVec 5 :=
  let rs := (List.range xs.length).map fun i =>
    let a := scanPrefix op xs (i + 1)
    match prev with
    | none => a
    | some d => let r := op d a.1; (r.1, a.2 ||| r.2)
  (rs.map (·.1), rs.foldl (fun f r => f ||| r.2) 0)

/-- Segments of a group of VSCAN, in order. -/
def scanGroup (op : Nat → Nat → Nat × BitVec 5) : Nat → List Nat → Option Nat → List Nat × BitVec 5
  | 0, _, _ => ([], 0)
  | fuel + 1, xs, prev =>
    if xs.isEmpty then ([], 0)
    else
      let a := scanSegment op (xs.take 8) prev
      let b := scanGroup op fuel (xs.drop 8) a.1.getLast?
      (a.1 ++ b.1, a.2 ||| b.2)

/-! Streams (09 R325, R328). -/

/-- A vector instruction as a process on a core executes it: its place in the scoreboard, and the element that VBCAST has read (09 R346). -/
structure Vec where
  c : VCode
  o : VOps
  g : Nat
  p : Proc
  id : Nat
  elem : Option Nat

/-- A stream: pointer, step, element bytes, alignment, and the bytes it spans when it is contiguous. -/
structure VStream where
  r : Reg
  p : Word
  strided : Bool
  step : Int
  size : Nat
  align : Nat
  total : Nat
  inc : Bool
  deriving DecidableEq, Repr

/-- ET (09 R321). -/
def Vec.et (v : Vec) : Nat := v.p.vty.toNat % 16
/-- DT (09 R321). -/
def Vec.dt (v : Vec) : Nat := v.p.vty.toNat / 16
/-- VL (09 R321). -/
def Vec.n (v : Vec) : Nat := v.p.vl.toNat
/-- Bytes of an element of ET. -/
def Vec.size (v : Vec) : Nat := codeBits v.et / 8
/-- The type ET names. -/
def Vec.ty (v : Vec) : Ty := (Ty.ofCode v.et).getD (.int 8 true)
/-- x10[2:0]: a condition or an operator. -/
def Vec.sub (v : Vec) : Nat := v.o.x10.toNat % 8
/-- Is one side of a VCVT an MX type (09 R342)? -/
def Vec.mx (v : Vec) : Bool := v.c == .cvt && (isMx v.et || isMx v.dt)

/-- The stochastic value of element i (09 R352). -/
def Vec.random (v : Vec) (i : Nat) : Nat :=
  if v.o.rnd = 4 then gen (v.p.reg v.o.e) (v.p.reg (oddOf v.o.e) + BitVec.ofNat 64 i) else 0

/-- A stream of `bits`-bit elements of a field (bit 2 of inc and str is a, 1 b, 0 c), `count` elements long; a part of a byte or block at the end of an MX
stream is not counted (DESIGN CHOICE, log entry 75). -/
def Vec.stream (v : Vec) (r : Reg) (bit bits count : Nat) : VStream :=
  let size := bits / 8
  { r := r, p := v.p.reg r, strided := v.o.str.getLsbD bit
    step := if v.o.str.getLsbD bit then (v.p.reg v.o.e).toInt else size
    size := size, align := max size 1, total := count * bits / 8, inc := v.o.inc.getLsbD bit }

/-- An MX element array (04 R166, 09 R328). -/
def Vec.mxStream (v : Vec) (r : Reg) (bit code : Nat) : VStream :=
  { v.stream r bit (codeBits code) v.n with size := 1, align := 16 }

/-- Elements of a group (09 R330). -/
def Vec.group (v : Vec) : Nat :=
  if v.mx then 32
  else
    let d := if v.c == .cvt then codeBits v.dt / 8 else 0
    let i := if v.c == .gather || v.c == .scatter then 4 else 0
    64 / max (max v.size (max d i)) 1

/-- Elements a VRED leaves in its destination (09 R344). -/
def Vec.redLen (v : Vec) : Nat := max 1 ((v.n + v.group - 1) / v.group)

/-- Field c is a stream: of elements, of indices, or of MX scales (09 R336). -/
def Vec.cStream (v : Vec) : Option VStream :=
  match v.c with
  | .gather | .scatter => some (v.stream v.o.c 0 32 v.n)
  | .cvt => if v.mx then some { v.stream v.o.c 0 8 (v.n / 32) with step := 1 } else none
  | .add | .sub | .mul | .div | .fma | .min | .max | .cmp | .sel | .and | .or | .xor | .shl | .shr | .sar | .sadd | .ssub | .mulh =>
    if v.o.scalar then none else some (v.stream v.o.c 0 (codeBits v.et) v.n)
  | _ => none

/-- Field a is a stream, but for VSCATTER's base. -/
def Vec.aStream (v : Vec) : Option VStream :=
  match v.c with
  | .scatter => none
  | .cvt => if isMx v.dt then some (v.mxStream v.o.a 2 v.dt) else some (v.stream v.o.a 2 (codeBits v.dt) v.n)
  | .red => some (v.stream v.o.a 2 (codeBits v.et) v.redLen)
  | _ => some (v.stream v.o.a 2 (codeBits v.et) v.n)

/-- Field b is a stream, but for a base, a key, or VBCAST's element pointer, which is checked as a stream of one element (09 R346). -/
def Vec.bStream (v : Vec) : Option VStream :=
  match v.c with
  | .gather | .rand => none
  | .bcast => if v.o.m = 1 then some (v.stream v.o.b 1 (codeBits v.et) 1) else none
  | .cvt => if isMx v.et then some (v.mxStream v.o.b 1 v.et) else some (v.stream v.o.b 1 (codeBits v.et) v.n)
  | _ => some (v.stream v.o.b 1 (codeBits v.et) v.n)

/-- The streams in field order. -/
def Vec.streams (v : Vec) : List VStream := v.aStream.toList ++ v.bStream.toList ++ v.cStream.toList

/-- Local address of element k of a stream. -/
def VStream.at_ (x : VStream) (k : Nat) : Int := (x.p.toNat : Int) + x.step * k

/-- Check 2 of 09 R328. -/
def VStream.aligned (x : VStream) : Bool := x.p.toNat % x.align == 0 && (!x.strided || x.step % x.align == 0)

/-- Check 3 of 09 R328 for a stream of `n` elements in a segment. -/
def VStream.inside (x : VStream) (n segLen : Nat) : Bool :=
  if x.strided then
    let last := x.at_ (n - 1)
    decide (0 ≤ min (x.at_ 0) last) && decide (max (x.at_ 0) last + x.size ≤ segLen)
  else decide (x.p.toNat + x.total ≤ segLen)

/-- A stream's pointer at completion (09 R329). -/
def VStream.after (x : VStream) (n : Nat) : Word :=
  if x.strided then x.p + BitVec.ofInt 64 (x.step * n) else x.p + BitVec.ofNat 64 x.total

/-- The base register of VGATHER or VSCATTER (09 R348). -/
def Vec.base (v : Vec) : Option Word :=
  match v.c with
  | .gather => some (v.p.reg v.o.b)
  | .scatter => some (v.p.reg v.o.a)
  | _ => none

/-- Check 1 of 09 R328: the types, and the encodings that depend on them (09 R323, R326, R336, R338, R341, R342). -/
def Vec.accepts (v : Vec) : Bool :=
  let int := decide (v.et ≤ 7)
  let flt := decide (8 ≤ v.et ∧ v.et ≤ 12)
  (match v.c with
    | .shl | .shr | .sar | .sadd | .ssub | .mulh => int
    | .exp2 | .log2 | .rcp | .rsq | .tanh => flt && (v.et != 8 || v.o.rnd == 0)
    | .sqrt => flt
    | .rand => v.et == 2 || v.et == 6 || v.et == 8
    | .cmp => !isMx v.et && !(int && decide (6 ≤ v.sub))
    | .cvt =>
      !(isMx v.et && isMx v.dt) && !(isMx v.dt && v.o.str.getLsbD 2) && !(isMx v.et && v.o.str.getLsbD 1) &&
        (v.mx || (v.o.c == 0 && !v.o.inc.getLsbD 0))
    | _ => !isMx v.et) &&
  (v.o.rnd == 0 || v.c == .cvt || flt)

/-- The checks of 09 R328 in their order: a cause with INFO, the pointer of the first stream that fails in field order (DESIGN CHOICE, log entry 72). -/
def Vec.check (v : Vec) : Option (Cause × Word) :=
  if !v.accepts then some (.illegal, 0)
  else
    let dst := if v.c == .red then v.aStream.toList else []
    let live := if v.n = 0 then dst else v.streams
    match live.find? fun x => !x.aligned with
    | some x => some (.align, x.p)
    | none =>
      match live.find? fun x => !x.inside v.n v.p.segLen with
      | some x => some (.segment, x.p)
      | none =>
        if v.mx && v.n % 32 != 0 then some (.bounds, 0)
        else match v.base with
          | some b => if b.toNat % v.size != 0 then some (.align, b) else none
          | none => none

/-! Element groups (09 R330-R335). -/

/-- What one group does: bytes read and bytes written, in order, as local addresses; flags; or the address of an indexed element outside the
segment. -/
structure VGroup where
  reads : List (Int × Nat)
  writes : List (Int × List Byte)
  flags : BitVec 5
  fault : Option Word
  deriving DecidableEq, Repr

/-- Bytes of the process's segment. -/
def Vec.read (v : Vec) (s : State) (a : Int) (n : Nat) : Nat := bytesNat (s.lmRead v.g (v.p.phys (BitVec.ofInt 64 a)) n)

/-- Element k of a stream. -/
def Vec.get (v : Vec) (s : State) (x : VStream) (k : Nat) : Nat := v.read s (x.at_ k) x.size

/-- Elements k0 to k1 - 1 as places. -/
def ks (k0 k1 : Nat) : List Nat := (List.range (k1 - k0)).map (· + k0)

/-- The places of elements k0 to k1 - 1 of a stream, for the scoreboard. -/
def VStream.places (x : VStream) (k0 k1 : Nat) : List (Int × Nat) := (ks k0 k1).map fun k => (x.at_ k, x.size)

/-- The pass of VRED that group t belongs to (09 R344): whether it reads stream b, the elements of the pass, and the group within it. -/
def redPass (size : Nat) : Nat → Bool → Nat → Nat → Bool × Nat × Nat
  | 0, first, n, t => (first, n, t)
  | fuel + 1, first, n, t =>
    let m := (n + size - 1) / size
    if t < m ∨ m ≤ 1 then (first, n, t) else redPass size fuel false m (t - m)

/-- Groups of every pass of VRED (09 R344). -/
def redTotal (size : Nat) : Nat → Nat → Nat
  | 0, _ => 1
  | fuel + 1, n =>
    let m := (n + size - 1) / size
    if m ≤ 1 then 1 else m + redTotal size fuel m

/-- Groups of the instruction (09 R330, R344). -/
def Vec.total (v : Vec) : Nat :=
  if v.c == .red then redTotal v.group 20 v.n else (v.n + v.group - 1) / v.group

/-- A result of `n` bytes. -/
def put (a : Int) (n x : Nat) : Int × List Byte := (a, natBytes n x)

/-- A VRED group (09 R344, 04 R182). -/
def Vec.redGroup (v : Vec) (s : State) (a b : VStream) (t : Nat) : VGroup :=
  if v.n = 0 then { reads := [], writes := [put (a.at_ 0) v.size (v.ty.identity v.sub)], flags := 0, fault := none }
  else
    let q := redPass v.group 20 true v.n t
    let src := if q.1 then b else a
    let k0 := q.2.2 * v.group
    let k1 := Nat.min (k0 + v.group) q.2.1
    let r := tree (fun x y => v.ty.elem (redOp v.sub) v.o.rnd.toNat 0 0 x y 0) 16 ((ks k0 k1).map (v.get s src))
    { reads := src.places k0 k1, writes := [put (a.at_ q.2.2) v.size r.1], flags := r.2, fault := none }

/-- A VSCAN group (09 R345). -/
def Vec.scanPart (v : Vec) (s : State) (a b : VStream) (k0 k1 : Nat) : VGroup :=
  let prev := if k0 = 0 then none else some (v.get s a (k0 - 1))
  let r := scanGroup (fun x y => v.ty.elem (redOp v.sub) v.o.rnd.toNat 0 0 x y 0) 8 ((ks k0 k1).map (v.get s b)) prev
  { reads := b.places k0 k1 ++ (if k0 = 0 then [] else a.places (k0 - 1) k0)
    writes := (ks k0 k1).zipWith (fun k x => put (a.at_ k) v.size x) r.1
    flags := r.2, fault := none }

/-- A value into the type DT (09 R342). -/
def Ty.ofValue (t : Ty) (mode : Nat) (sat : Bool) (rnd : Nat) (x : FV) : Nat × BitVec 5 :=
  match t with
  | .flt f => f.convert mode sat rnd x
  | .int b sg => toInt b sg mode rnd x

/-- Element i of a packed MX block (04 R166). -/
def unpackElem (width x i : Nat) : Nat := x / 2 ^ (width * i) % 2 ^ width

/-- A VCVT group into MX (09 R342, 04 R167): where a block and its scale overlap, the scale is written last (DESIGN CHOICE, log entry 75). -/
def Vec.toMxGroup (v : Vec) (s : State) (f : Fmt) (a b c : VStream) (j : Nat) : VGroup :=
  let k0 := 32 * j
  let k1 := k0 + 32
  let r := toMx f v.o.rnd.toNat (fun i => v.random (k0 + i)) ((ks k0 k1).map fun k => v.ty.value (v.get s b k))
  let nb := 4 * f.width
  { reads := b.places k0 k1
    writes := [put ((a.p.toNat : Int) + nb * j) nb (packElems f.width r.2.1), put ((c.p.toNat : Int) + j) 1 r.1]
    flags := r.2.2, fault := none }

/-- A VCVT group out of MX (09 R342, 04 R165, R175). -/
def Vec.ofMxGroup (v : Vec) (s : State) (f : Fmt) (d : Ty) (a b c : VStream) (j : Nat) : VGroup :=
  let k0 := 32 * j
  let nb := 4 * f.width
  let blk := v.read s ((b.p.toNat : Int) + nb * j) nb
  let scale := v.read s ((c.p.toNat : Int) + j) 1
  let rs := (List.range 32).map fun i =>
    d.ofValue v.o.rnd.toNat v.o.sat (v.random (k0 + i)) (mxValue f scale (unpackElem f.width blk i))
  { reads := [((b.p.toNat : Int) + nb * j, nb), ((c.p.toNat : Int) + j, 1)]
    writes := (ks k0 (k0 + 32)).zipWith (fun k x => put (a.at_ k) a.size x.1) rs
    flags := rs.foldl (fun fl x => fl ||| x.2) 0, fault := none }

/-- The addresses of the indexed elements of a group (09 R348). -/
def Vec.indexed (v : Vec) (s : State) (c : VStream) (k0 k1 : Nat) : List Nat :=
  (ks k0 k1).map fun k => (v.base.getD 0).toNat + v.get s c k * v.size

/-- A VGATHER or VSCATTER group (09 R348). -/
def Vec.indexGroup (v : Vec) (s : State) (x c : VStream) (k0 k1 : Nat) : VGroup :=
  let ads := v.indexed s c k0 k1
  let there := ads.map fun (a : Nat) => ((a : Int), v.size)
  match ads.find? fun a => decide (v.p.segLen < a + v.size) with
  | some a => { reads := c.places k0 k1, writes := [], flags := 0, fault := some (BitVec.ofNat 64 a) }
  | none =>
    if v.c == .gather then
      { reads := c.places k0 k1 ++ there
        writes := (ks k0 k1).zipWith (fun k (a : Nat) => put (x.at_ k) v.size (v.read s a v.size)) ads
        flags := 0, fault := none }
    else
      { reads := c.places k0 k1 ++ x.places k0 k1
        writes := (ks k0 k1).zipWith (fun k (a : Nat) => put a v.size (v.get s x k)) ads
        flags := 0, fault := none }

/-- A value of VRAND (09 R350): the low 32 bits, or an exact FP32 value in [0, 1). -/
def randValue (et r : Nat) : Nat := if et = 8 then (fp32.round 0 false 0 (.fin false (r / 256) (-24))).1 else r

/-- The source place of element i of VPERM (09 R347). -/
def permSource (pattern : Word) (i : Nat) : Nat := 8 * (i / 8) + bitsOf pattern.toNat (3 * (i % 8) + 2) (3 * (i % 8))

/-- A group that writes one element of stream a for each of its places. -/
def Vec.eachGroup (v : Vec) (s : State) (a : VStream) (k0 k1 : Nat) : VGroup :=
  let cond := v.sub
  let mode := v.o.rnd.toNat
  let b := v.bStream
  let c := v.cStream
  let readB (k : Nat) : Nat := match b with | some x => v.get s x k | none => 0
  let y (k : Nat) : Nat := match c with | some x => v.get s x k | none => (v.p.reg v.o.c).toNat % 2 ^ (8 * v.size)
  let zRead := v.c == .fma || v.c == .sel
  let one (k : Nat) : Nat × BitVec 5 :=
    match v.c with
    | .cvt => convert v.ty ((Ty.ofCode v.dt).getD (.int 8 true)) mode v.o.sat (v.random k) (readB k)
    | .bcast => (if v.o.m = 1 then v.elem.getD (readB 0) else y k, 0)
    | .perm => (if permSource (v.p.reg v.o.c) k < v.n then readB (permSource (v.p.reg v.o.c) k) else 0, 0)
    | .rand => (randValue v.et (gen (v.p.reg v.o.b) (v.p.reg v.o.c + BitVec.ofNat 64 k)), 0)
    | _ => v.ty.elem v.c mode (v.random k) cond (readB k) (y k) (if zRead then v.get s a k else 0)
  let bReads : List (Int × Nat) := match v.c, b with
    | .bcast, some x => if v.elem.isSome then [] else x.places 0 1
    | .perm, some x => ((ks k0 k1).map (permSource (v.p.reg v.o.c))).filterMap fun q => if q < v.n then some (x.at_ q, x.size) else none
    | _, some x => x.places k0 k1
    | _, none => []
  let rs := (ks k0 k1).map fun k => (k, one k)
  { reads := bReads ++ (match c with | some x => x.places k0 k1 | none => []) ++ (if zRead then a.places k0 k1 else [])
    writes := rs.map fun r => put (a.at_ r.1) a.size r.2.1
    flags := rs.foldl (fun fl r => fl ||| r.2.2) 0, fault := none }

/-- Group t of the instruction (09 R330, R331). -/
def Vec.run (v : Vec) (s : State) (t : Nat) : VGroup :=
  let k0 := t * v.group
  let k1 := Nat.min (k0 + v.group) v.n
  let empty : VGroup := { reads := [], writes := [], flags := 0, fault := none }
  match v.c, v.aStream, v.bStream, v.cStream with
  | .red, some a, some b, _ => v.redGroup s a b t
  | .scan, some a, some b, _ => v.scanPart s a b k0 k1
  | .gather, some a, _, some c => v.indexGroup s a c k0 k1
  | .scatter, _, some b, some c => v.indexGroup s b c k0 k1
  | .cvt, some a, some b, some c =>
    match mxFmt v.dt, mxFmt v.et with
    | some f, _ => v.toMxGroup s f a b c t
    | none, some f => v.ofMxGroup s f ((Ty.ofCode v.dt).getD (.int 8 true)) a b c t
    | none, none => empty
  | _, some a, _, _ => v.eachGroup s a k0 k1
  | _, none, _, _ => empty

/-- A physical interval of a local place. -/
def Vec.span (v : Vec) (a : Int) (n : Nat) : Span := (a + v.p.sb.toNat, a + v.p.sb.toNat + n)

/-- The group is held by the scoreboard (09 R332, 10 R374). -/
def Vec.held (v : Vec) (s : State) (x : VGroup) : Bool :=
  (x.reads.any fun r => s.lmHeld v.g v.id (v.span r.1 r.2) Span.none) ||
    x.writes.any fun w => s.lmHeld v.g v.id Span.none (v.span w.1 w.2.length)

/-- The bytes that a stream of `n` elements spans in LM. -/
def Vec.extent (v : Vec) (x : VStream) (n : Nat) : Span :=
  if x.strided then
    let last := x.at_ (n - 1)
    if n = 0 then Span.none else v.span (min (x.at_ 0) last) ((max (x.at_ 0) last - min (x.at_ 0) last).toNat + x.size)
  else if x.total = 0 then Span.none else v.span x.p.toNat x.total

/-- The whole of the process's segment (10 R373). -/
def Vec.segment (v : Vec) : Span := v.span 0 v.p.segLen

/-- The read interval of the instruction's scoreboard entry (10 R373): the streams it reads, a destination that it reads back, and for VGATHER the
whole segment. -/
def Vec.readSpan (v : Vec) : Span :=
  let back := if v.c == .fma || v.c == .sel || v.c == .red || v.c == .scan then v.aStream.toList else []
  let scale := if v.c == .cvt && !isMx v.et then [] else v.cStream.toList
  (v.bStream.toList ++ scale ++ back).foldl (fun sp x => sp.join (v.extent x (if v.c == .bcast then 1 else v.n)))
    (if v.c == .gather then v.segment else Span.none)

/-- The write interval of the instruction's scoreboard entry (10 R373): its destination, and for VSCATTER the whole segment. -/
def Vec.writeSpan (v : Vec) : Span :=
  let scale := if v.c == .cvt && isMx v.dt then v.cStream.toList else []
  (v.aStream.toList ++ scale).foldl (fun sp x => sp.join (v.extent x v.n)) (if v.c == .scatter then v.segment else Span.none)

/-- Distinct 64-byte LM groups that the group reads or writes (09 R353, 15 R481). -/
def Vec.touched (v : Vec) (x : VGroup) : Nat :=
  let line (a : Int) : Nat := ((a + v.p.sb.toNat) / 64).toNat
  let lines (a : Int) (n : Nat) : List Nat := if n = 0 then [] else (List.range (line (a + n - 1) + 1 - line a)).map (· + line a)
  ((x.reads.flatMap fun r => lines r.1 r.2) ++ (x.writes.flatMap fun w => lines w.1 w.2.length)).foldl (fun l i => insertNat i l) [] |>.length

/-- What the group's reads find of which no event tells (17 R516). -/
def Vec.look (v : Vec) (s : State) (x : VGroup) : State :=
  x.reads.foldl (fun st r => st.lmFound v.g v.p.dye (v.p.phys (BitVec.ofInt 64 r.1)) r.2) s

/-- A word that the group reads has a double-bit error (17 R516): its local address. -/
def Vec.poisoned (v : Vec) (s : State) (x : VGroup) : Option Word :=
  (x.reads.find? fun r => (s.coreAt v.g).lmBad.any fun w => overlaps (8 * w) 8 (v.p.phys (BitVec.ofInt 64 r.1)) r.2).map
    fun r => BitVec.ofInt 64 r.1

/-- The group's writes in order, and its charges (09 R331, R335). -/
def Vec.apply (v : Vec) (s : State) (x : VGroup) : State :=
  let s1 := x.writes.foldl (fun st w => st.lmWrite v.g (v.p.phys (BitVec.ofInt 64 w.1)) w.2) s
  (s1.charge v.g v.p.dye .vstep 1).charge v.g v.p.dye .lm (v.touched x)

/-- How a run of groups ends: at group j with every group done or not, at a group outside the segment, or after a group that met a double-bit
error. -/
inductive VEnd where
  | at_ (j : Nat)
  | fault (j : Nat) (a : Word)
  | poison (j : Nat) (a : Word)
  deriving DecidableEq, Repr

/-- The instruction once VBCAST has read its element (09 R346). -/
def Vec.kept (v : Vec) (s : State) : Vec :=
  match v.c, v.o.m == 1, v.elem, v.bStream with
  | .bcast, true, none, some x => { v with elem := some (v.get s x 0) }
  | _, _, _, _ => v

/-- At most `fuel` groups from group j on: the state with their effects, their flags, and how the run ends. -/
def Vec.groups (v : Vec) : Nat → Nat → State → BitVec 5 → State × BitVec 5 × VEnd
  | 0, j, s, fl => (s, fl, .at_ j)
  | fuel + 1, j, s, fl =>
    let x := v.run s j
    let s1 := v.look s x
    if v.held s x then (s, fl, .at_ j)
    else match v.poisoned s1 x, x.fault with
      | some a, _ => (v.apply s1 { x with writes := [] }, fl, .poison (j + 1) a)
      | none, some a => (v.apply s1 { x with writes := [] }, fl, .fault j a)
      | none, none => (v.kept s).groups fuel (j + 1) (v.apply s1 x) (fl ||| x.flags)

/-- The process after completion (09 R329, R334): pointers advanced, VRC zero when the instruction started from it. -/
def Vec.finish (v : Vec) (p : Proc) : Proc :=
  let q := v.streams.foldl (fun (q : Proc) x => if x.inc then q.setReg x.r (x.after v.n) else q) p
  if p.vrpc = p.pc then { q with vrc := 0 } else q

/-- The process stopped at a group boundary (09 R333). -/
def Proc.stopAt (p : Proc) (j : Nat) : Proc := { p with vrc := BitVec.ofNat 20 j, vrpc := p.pc }

/-- Registers that a vector instruction names (06 R219, 09 R325-R327, R352). -/
def Vec.names (v : Vec) : List Reg :=
  v.o.a :: (if v.c == .bcast && v.o.m == 0 then [] else [v.o.b]) ++ (if v.o.scalar || v.cStream.isSome then [v.o.c] else []) ++
    (if v.o.rnd == 4 then [v.o.e, oddOf v.o.e] else if v.o.str != 0 then [v.o.e] else [])

/-- The vector instruction in progress at the process's PC: its place in the scoreboard and VBCAST's element. -/
def Proc.vecNow (p : Proc) : Option (Nat × Option Nat) :=
  match p.wait with
  | .vec pc id _ _ x => if pc = p.pc then some (id, x) else none
  | _ => none

/-- A vector instruction of process p that goes on later (09 R333): its scoreboard entry stands (10 R373). -/
def State.vecStays (s : State) (g k : Nat) (v : Vec) (q : Proc) : State :=
  let s1 : State := if v.p.vecNow.isSome then s else { s with nextId := max s.nextId (v.id + 1) }
  s1.setProc g k { q with wait := .vec v.p.pc v.id v.readSpan v.writeSpan v.elem }

/-- A vector instruction of process p in slot k (09 R328-R334): at most `limit` groups, all of those left when there is no limit. -/
def State.vector (s : State) (g k : Nat) (p : Proc) (c : VCode) (o : VOps) (limit : Option Nat) : Res :=
  let now := p.vecNow
  let v : Vec := { c := c, o := o, g := g, p := p, id := (now.map (·.1)).getD s.nextId, elem := now.bind (·.2) }
  if p.awaits v.names || p.acquiring then s.stall
  else match v.check with
    | some (e, info) => .next (s.trap g k p e info)
    | none =>
      if now.isNone && s.sbFull g then s.stall
      else
        let start := if p.vrpc = p.pc then p.vrc.toNat else 0
        let left := v.total - start
        let r := v.groups (match limit with | some l => Nat.min l left | none => left) start s 0
        let q := p.raise r.2.1
        match r.2.2 with
        | .at_ j =>
          if v.total ≤ j then .next (r.1.retire g k (v.finish q))
          else if j = start then .next (r.1.vecStays g k v q)
          else .next (r.1.vecStays g k (v.kept s) (q.stopAt j))
        | .fault j a => .next (r.1.trap g k (q.stopAt j) .segment a)
        | .poison j a =>
          let f : PFault := { seq := p.seq, cause := .poison, fpc := p.pc, info := a }
          let q1 : Proc := { q with faults := q.faults ++ [f], seq := q.seq + 1 }
          if v.total ≤ j then .next (r.1.retire g k (v.finish q1)) else .next (r.1.vecStays g k (v.kept s) (q1.stopAt j))

/-- A vector instruction of the running process. -/
def State.vectorOp (s : State) (c : VCode) (o : VOps) : Res := s.withProc fun g k p => s.vector g k p c o none

/-! The instructions. -/

/-- VSETL (09 R322). -/
def execVsetl (a b : Reg) (t : BitVec 8) (s : State) : Res :=
  s.scalar [a, b] fun p =>
    let n := Nat.min (p.reg b).toNat 65536
    { p with vl := BitVec.ofNat 17 n, vty := t }.setReg a (BitVec.ofNat 64 n)

/-- VFLG (09 R349): it waits for the process's tile operations and for AFADDs whose flags have still to come (04 R177, 07 R264). -/
def execVflg (a : Reg) (m : BitVec 2) (s : State) : Res :=
  s.withProc fun g k p =>
    if p.awaits [a] || s.tilePending (s.pref g k) || p.outs.any (·.flags) then s.stall
    else
      let f := p.flags
      .next (s.retire g k (match m.toNat with
        | 0 => p.setReg a (f.setWidth 64)
        | 1 => { p with flags := 0 }.setReg a (f.setWidth 64)
        | _ => { p with flags := (p.reg a).setWidth 5 }))

/-- VADD (09 R336, R337). -/
def execVadd (o : VOps) (s : State) : Res := s.vectorOp .add o

/-- VSUB (09 R336, R337). -/
def execVsub (o : VOps) (s : State) : Res := s.vectorOp .sub o

/-- VMUL (09 R336, R337). -/
def execVmul (o : VOps) (s : State) : Res := s.vectorOp .mul o

/-- VDIV (09 R336, R337). -/
def execVdiv (o : VOps) (s : State) : Res := s.vectorOp .div o

/-- VFMA (09 R337). -/
def execVfma (o : VOps) (s : State) : Res := s.vectorOp .fma o

/-- VMIN (09 R337). -/
def execVmin (o : VOps) (s : State) : Res := s.vectorOp .min o

/-- VMAX (09 R337). -/
def execVmax (o : VOps) (s : State) : Res := s.vectorOp .max o

/-- VABS (09 R337). -/
def execVabs (o : VOps) (s : State) : Res := s.vectorOp .abs o

/-- VNEG (09 R337). -/
def execVneg (o : VOps) (s : State) : Res := s.vectorOp .neg o

/-- VCMP (09 R338). -/
def execVcmp (o : VOps) (s : State) : Res := s.vectorOp .cmp o

/-- VSEL (09 R339). -/
def execVsel (o : VOps) (s : State) : Res := s.vectorOp .sel o

/-- VAND (09 R337). -/
def execVand (o : VOps) (s : State) : Res := s.vectorOp .and o

/-- VOR (09 R337). -/
def execVor (o : VOps) (s : State) : Res := s.vectorOp .or o

/-- VXOR (09 R337). -/
def execVxor (o : VOps) (s : State) : Res := s.vectorOp .xor o

/-- VNOT (09 R337). -/
def execVnot (o : VOps) (s : State) : Res := s.vectorOp .not o

/-- VSHL (09 R337). -/
def execVshl (o : VOps) (s : State) : Res := s.vectorOp .shl o

/-- VSHR (09 R337). -/
def execVshr (o : VOps) (s : State) : Res := s.vectorOp .shr o

/-- VSAR (09 R337). -/
def execVsar (o : VOps) (s : State) : Res := s.vectorOp .sar o

/-- VCVT (09 R342). -/
def execVcvt (o : VOps) (s : State) : Res := s.vectorOp .cvt o

/-- VEXP2 (09 R341). -/
def execVexp2 (o : VOps) (s : State) : Res := s.vectorOp .exp2 o

/-- VLOG2 (09 R341). -/
def execVlog2 (o : VOps) (s : State) : Res := s.vectorOp .log2 o

/-- VRCP (09 R341). -/
def execVrcp (o : VOps) (s : State) : Res := s.vectorOp .rcp o

/-- VRSQ (09 R341). -/
def execVrsq (o : VOps) (s : State) : Res := s.vectorOp .rsq o

/-- VTANH (09 R341). -/
def execVtanh (o : VOps) (s : State) : Res := s.vectorOp .tanh o

/-- VSQRT (09 R341). -/
def execVsqrt (o : VOps) (s : State) : Res := s.vectorOp .sqrt o

/-- VRED (09 R344). -/
def execVred (o : VOps) (s : State) : Res := s.vectorOp .red o

/-- VSCAN (09 R345). -/
def execVscan (o : VOps) (s : State) : Res := s.vectorOp .scan o

/-- VBCAST (09 R346). -/
def execVbcast (o : VOps) (s : State) : Res := s.vectorOp .bcast o

/-- VPERM (09 R347). -/
def execVperm (o : VOps) (s : State) : Res := s.vectorOp .perm o

/-- VGATHER (09 R348). -/
def execVgather (o : VOps) (s : State) : Res := s.vectorOp .gather o

/-- VSCATTER (09 R348). -/
def execVscatter (o : VOps) (s : State) : Res := s.vectorOp .scatter o

/-- VRAND (09 R350). -/
def execVrand (o : VOps) (s : State) : Res := s.vectorOp .rand o

/-- VMOV (09 R337). -/
def execVmov (o : VOps) (s : State) : Res := s.vectorOp .mov o

/-- VSADD (09 R337). -/
def execVsadd (o : VOps) (s : State) : Res := s.vectorOp .sadd o

/-- VSSUB (09 R337). -/
def execVssub (o : VOps) (s : State) : Res := s.vectorOp .ssub o

/-- VMULH (09 R337). -/
def execVmulh (o : VOps) (s : State) : Res := s.vectorOp .mulh o

/-- The vector instruction that an instruction is, if any. -/
def vecOf : Instr → Option (VCode × VOps)
  | .vadd o => some (.add, o)
  | .vsub o => some (.sub, o)
  | .vmul o => some (.mul, o)
  | .vdiv o => some (.div, o)
  | .vfma o => some (.fma, o)
  | .vmin o => some (.min, o)
  | .vmax o => some (.max, o)
  | .vabs o => some (.abs, o)
  | .vneg o => some (.neg, o)
  | .vcmp o => some (.cmp, o)
  | .vsel o => some (.sel, o)
  | .vand o => some (.and, o)
  | .vor o => some (.or, o)
  | .vxor o => some (.xor, o)
  | .vnot o => some (.not, o)
  | .vshl o => some (.shl, o)
  | .vshr o => some (.shr, o)
  | .vsar o => some (.sar, o)
  | .vcvt o => some (.cvt, o)
  | .vexp2 o => some (.exp2, o)
  | .vlog2 o => some (.log2, o)
  | .vrcp o => some (.rcp, o)
  | .vrsq o => some (.rsq, o)
  | .vtanh o => some (.tanh, o)
  | .vsqrt o => some (.sqrt, o)
  | .vred o => some (.red, o)
  | .vscan o => some (.scan, o)
  | .vbcast o => some (.bcast, o)
  | .vperm o => some (.perm, o)
  | .vgather o => some (.gather, o)
  | .vscatter o => some (.scatter, o)
  | .vrand o => some (.rand, o)
  | .vmov o => some (.mov, o)
  | .vsadd o => some (.sadd, o)
  | .vssub o => some (.ssub, o)
  | .vmulh o => some (.mulh, o)
  | _ => none

end Sys2Proof.Machine
end

