-- ==== Sys2Proof/Machine/Tile.lean ====
section
/-! DEFINITION. The tile unit's instructions and commands (10 R354-R375) and the tile multiply-accumulate (04 R179, R180). -/

namespace Sys2Proof.Machine

/-! Issue. -/

/-- Commands a tile queue holds (10 R362). -/
def tileQueue : Nat := 8

/-- An instruction that begins with Acquire (10 R358), once its registers have their data and no acquire of 03 R138 is outstanding. -/
def State.withTile (s : State) (rs : List Reg) (f : State → Nat → Nat → Proc → Res) : Res :=
  s.withProc fun g k p => if p.awaits rs || p.acquiring then s.stall else s.acquire g k p fun s1 => f s1 g k p

/-- A checked tile command put into the queue (10 R362, R373): issue stalls while the queue is full or its entry is wanting. `shape` is what it
does to the shape registers at issue. -/
def State.tileIssue (s : State) (g k : Nat) (p : Proc) (cmd : TCmd) (shape : Tile → Tile) : Res :=
  let t := s.tileAt g
  let e : TEntry := { seq := s.nextId, who := s.pref g k, dye := p.dye, sb := p.sb.toNat, cmd := cmd }
  if tileQueue ≤ t.queue.length || (e.sbEntry.isSome && s.sbFull g) then s.stall
  else
    let s1 := s.fresh.2
    .next ((s1.setTile g { shape t with queue := t.queue ++ [e] }).retire g k p)

/-- TACQ (10 R359). -/
def execTacq (s : State) : Res := s.withTile [] fun s1 g k p => .next (s1.retire g k p)

/-- TREL (10 R359). -/
def execTrel (s : State) : Res := s.withProc fun g k p => .next ((s.releaseTile g k).retire g k p)

/-- TSET (10 R365). -/
def execTset (a : BitVec 3) (b : Reg) (s : State) : Res :=
  s.withTile [b] fun s1 g k p =>
    if !shapeValid (p.reg b) then .next (s1.trap g k p .bounds 0)
    else .next ((s1.setTile g ((s1.tileAt g).setShape a.toNat (p.reg b))).retire g k p)

/-- Every row of a tile access lies in the segment (10 R366). -/
def Proc.rowsIn (p : Proc) (ea st : Word) (rows n : Nat) : Bool :=
  (List.range rows).all fun r => p.inSeg (rowAt ea st r) n

/-- The checks of TLD and TST in their order (10 R366). -/
def Proc.tileCheck (p : Proc) (sh ea st sb : Word) (mx : Bool) : Option (Cause × Word) :=
  if shapeRows sh = 0 || mx != isMx (shapeEc sh) then some (.type, 0)
  else if ea.toNat % 16 ≠ 0 ∨ st.toNat % 16 ≠ 0 then some (.align, ea)
  else if !p.rowsIn ea st (shapeRows sh) (shapeBpr sh) then some (.segment, ea)
  else if mx && !p.rowsIn sb (BitVec.ofNat 64 (shapeSpr sh)) (shapeRows sh) (shapeSpr sh) then some (.segment, sb)
  else none

/-- TLD and TST (10 R366): the command captures shape, address, stride and scale base. -/
def State.tileMove (s : State) (a : BitVec 3) (b c : Reg) (mx : Bool) (d : BitVec 20) (cmd : Word → Nat → Nat → Nat → TCmd) : Res :=
  s.withTile (if mx then [b, c, oddOf c] else [b, c]) fun s1 g k p =>
    let sh := (s1.tileAt g).shape a.toNat
    let ea := p.ea b d
    let st := p.reg c
    let sb := if mx then p.reg (oddOf c) else 0
    match p.tileCheck sh ea st sb mx with
    | some (e, info) => .next (s1.trap g k p e info)
    | none => s1.tileIssue g k p (cmd sh ea.toNat st.toNat sb.toNat) id

/-- TLD (10 R366). -/
def execTld (a : BitVec 3) (b c : Reg) (mx : Bool) (d : BitVec 20) (s : State) : Res :=
  s.tileMove a b c mx d fun sh ea st sb => .tld a.toNat sh ea st sb mx

/-- TST (10 R366). -/
def execTst (a : BitVec 3) (b c : Reg) (mx : Bool) (d : BitVec 20) (s : State) : Res :=
  s.tileMove a b c mx d fun sh ea st sb => .tst a.toNat sh ea st sb mx

/-- TLDC and TSTC (10 R367): 16 rows of 48 bytes, without the shape check. -/
def State.accMove (s : State) (b c : Reg) (d : BitVec 20) (cmd : Nat → Nat → TCmd) : Res :=
  s.withTile [b, c] fun s1 g k p =>
    let ea := p.ea b d
    let st := p.reg c
    if ea.toNat % 16 ≠ 0 ∨ st.toNat % 16 ≠ 0 then .next (s1.trap g k p .align ea)
    else if !p.rowsIn ea st 16 48 then .next (s1.trap g k p .segment ea)
    else s1.tileIssue g k p (cmd ea.toNat st.toNat) id

/-- TLDC (10 R367). -/
def execTldc (a : BitVec 3) (b c : Reg) (d : BitVec 20) (s : State) : Res := s.accMove b c d fun ea st => .tldc a.toNat ea st

/-- TSTC (10 R367). -/
def execTstc (a : BitVec 3) (b c : Reg) (d : BitVec 20) (s : State) : Res := s.accMove b c d fun ea st => .tstc a.toNat ea st

/-- TZC of an accumulator (10 R368). -/
def execTzcC (a : BitVec 3) (s : State) : Res := s.withTile [] fun s1 g k p => s1.tileIssue g k p (.zeroC a.toNat) id

/-- TZC of a tile register (10 R368). -/
def execTzcT (a : BitVec 3) (s : State) : Res := s.withTile [] fun s1 g k p => s1.tileIssue g k p (.zeroT a.toNat) id

/-- TMMA in the format of an element code (10 R369, R370). -/
def State.tmma (s : State) (ec : Nat) (a b c : BitVec 3) : Res :=
  s.withTile [] fun s1 g k p =>
    let x := (s1.tileAt g).shape b.toNat
    let y := (s1.tileAt g).shape c.toNat
    if shapeEc x ≠ ec ∨ shapeEc y ≠ ec ∨ shapeRows x ≠ 16 ∨ shapeRows y ≠ 12 ∨ shapeCols x ≠ shapeCols y then
      .next (s1.trap g k p .type 0)
    else s1.tileIssue g k p (.mma a.toNat b.toNat c.toNat ec (shapeCols x)) id

/-- TMMA.BF16 (10 R369). -/
def execTmmaBf16 (a b c : BitVec 3) (s : State) : Res := s.tmma 9 a b c
/-- TMMA.F16 (10 R369). -/
def execTmmaF16 (a b c : BitVec 3) (s : State) : Res := s.tmma 10 a b c
/-- TMMA.E4M3 (10 R369). -/
def execTmmaE4m3 (a b c : BitVec 3) (s : State) : Res := s.tmma 11 a b c
/-- TMMA.E5M2 (10 R369). -/
def execTmmaE5m2 (a b c : BitVec 3) (s : State) : Res := s.tmma 12 a b c
/-- TMMA.MXF8 (10 R369). -/
def execTmmaMxf8 (a b c : BitVec 3) (s : State) : Res := s.tmma 13 a b c
/-- TMMA.MXF6 (10 R369). -/
def execTmmaMxf6 (a b c : BitVec 3) (s : State) : Res := s.tmma 14 a b c
/-- TMMA.MXF4 (10 R369). -/
def execTmmaMxf4 (a b c : BitVec 3) (s : State) : Res := s.tmma 15 a b c
/-- TMMA.I8 (10 R369). -/
def execTmmaI8 (a b c : BitVec 3) (s : State) : Res := s.tmma 0 a b c

/-- TCVT (10 R371). -/
def execTcvt (a b : BitVec 3) (c : Reg) (i32 : Bool) (r : BitVec 3) (sat : Bool) (s : State) : Res :=
  s.withTile (if r = 4 then [c, oddOf c] else []) fun s1 g k p =>
    let d := (s1.tileAt g).shape a.toNat
    if shapeRows d ≠ 16 ∨ shapeCols d ≠ 12 ∨ isMx (shapeEc d) then .next (s1.trap g k p .type 0)
    else
      let key := if r = 4 then p.reg c else 0
      let base := if r = 4 then p.reg (oddOf c) else 0
      s1.tileIssue g k p (.cvt a.toNat b.toNat i32 (shapeEc d) r sat key base) id

/-- The shape of a transposed tile (10 R372). -/
def shapeTran (s : Word) : Word := BitVec.ofNat 64 (shapeEc s + shapeCols s * 16 + shapeRows s * 1024)

/-- TTRAN (10 R372): the destination's shape is written at issue. -/
def execTtran (a b : BitVec 3) (s : State) : Res :=
  s.withTile [] fun s1 g k p =>
    let sh := (s1.tileAt g).shape b.toNat
    if shapeRows sh = 0 ∨ isMx (shapeEc sh) ∨ 16 < shapeCols sh ∨ 192 < shapeRows sh * (codeBits (shapeEc sh) / 8) then
      .next (s1.trap g k p .type 0)
    else s1.tileIssue g k p (.tran a.toNat b.toNat sh) fun t => t.setShape a.toNat (shapeTran sh)

/-! The multiply-accumulate (04 R179, R180). -/

/-- Element k of a row of packed elements, with its MX scale applied. -/
def tileElem (ec : Nat) (row scales : List Byte) (k : Nat) : FV :=
  match mxFmt ec with
  | some f => mxValue f ((scales.getD (k / 32) 0).toNat) (unpackElem f.width (bytesNat row) k)
  | none =>
    match Ty.ofCode ec with
    | some t => t.value (unpackElem t.bits (bytesNat row) k)
    | none => .nan false

/-- The values of a row of a tile register. -/
def Tile.rowValues (t : Tile) (i ec cols r : Nat) : List FV :=
  let row := Mem.read (t.reg i) (192 * r) (cols * codeBits ec / 8)
  let sc := if isMx ec then Mem.read (t.scale i) (12 * r) (cols / 32) else []
  (List.range cols).map (tileElem ec row sc)

/-- One element of TMMA: every product exact, one rounding (04 R179, R180). -/
def dot (c : Nat) (xs ys : List FV) : Nat × BitVec 5 :=
  let vc := fp32.value c
  let ps := xs.zipWith FV.mul ys
  let terms := vc :: ps.map (·.1)
  let pos := terms.any fun v => v == .inf false
  let neg := terms.any fun v => v == .inf true
  let nv := nvOf [vc] ||| ps.foldl (fun f p => f ||| p.2) 0 ||| (if pos && neg then fNV else 0)
  if terms.any FV.isNan || (pos && neg) then (fp32.nan, nv)
  else if pos then (fp32.inf false, nv)
  else if neg then (fp32.inf true, nv)
  else
    let r := fp32.round 0 false 0 (ps.foldl (fun a p => (FV.add 0 a p.1).1) vc)
    (r.1, nv ||| r.2)

/-- One element of TMMA.I8 (04 R179). -/
def dotInt (c : Nat) (xs ys : List FV) : Nat :=
  let int : FV → Int
    | .fin n m _ => if n then -(m : Int) else m
    | _ => 0
  wrapInt 32 (intVal 32 true c + (xs.zipWith (fun x y => int x * int y) ys).foldl (· + ·) 0)

/-- An accumulator with element (i, j) of every place replaced (10 R354), and the flags of all. -/
def accMap (m : Mem) (f : Nat → Nat → Nat → Nat × BitVec 5) : Mem × BitVec 5 :=
  (List.range 192).foldl (fun a n =>
    let r := f (n / 12) (n % 12) (bytesNat (Mem.read m (4 * n) 4))
    (Mem.write a.1 (4 * n) (natBytes 4 r.1), a.2 ||| r.2)) (m, 0)

/-- TMMA when it executes. -/
def Tile.mma (t : Tile) (c a b ec k : Nat) : Tile × BitVec 5 :=
  let xs := (List.range 16).map (t.rowValues a ec k)
  let ys := (List.range 12).map (t.rowValues b ec k)
  let r := accMap (t.acc c) fun i j old =>
    if ec = 0 then (dotInt old (xs.getD i []) (ys.getD j []), 0) else dot old (xs.getD i []) (ys.getD j [])
  (t.setAcc c r.1, r.2)

/-! Conversion and transposition (10 R371, R372). -/

/-- TCVT when it executes. -/
def Tile.cvt (t : Tile) (a c : Nat) (i32 : Bool) (ec : Nat) (rnd : Nat) (sat : Bool) (key base : Word) : Tile × BitVec 5 :=
  let src : Ty := if i32 then .int 32 true else .flt fp32
  let dst := (Ty.ofCode ec).getD (.int 8 true)
  let n := dst.bits / 8
  let r := (List.range 192).foldl (fun (x : Mem × BitVec 5) i =>
    let old := bytesNat (Mem.read (t.acc c) (4 * i) 4)
    let v := convert src dst rnd sat (if rnd = 4 then gen key (base + BitVec.ofNat 64 i) else 0) old
    (Mem.write x.1 (192 * (i / 12) + n * (i % 12)) (natBytes n v.1), x.2 ||| v.2)) (t.reg a, 0)
  (t.setReg a r.1, r.2)

/-- TTRAN when it executes: all of the source's image is read first. -/
def Tile.tran (t : Tile) (a b : Nat) (sh : Word) : Tile :=
  let n := codeBits (shapeEc sh) / 8
  let src := t.reg b
  t.setReg a ((List.range (shapeRows sh * shapeCols sh)).foldl (fun m q =>
    let i := q / shapeCols sh
    let j := q % shapeCols sh
    Mem.write m (192 * j + n * i) (Mem.read src (192 * i + n * j) n)) (t.reg a))

/-! Loads and stores (10 R366, R367). -/

/-- Physical offset of row r of a command's LM side. -/
def TEntry.rowOff (e : TEntry) (ea st r : Nat) : Nat := e.sb + (rowAt (BitVec.ofNat 64 ea) (BitVec.ofNat 64 st) r).toNat

/-- TLD when it executes. -/
def State.tileLoad (s : State) (g : Nat) (e : TEntry) (t : Nat) (sh : Word) (ea st sb : Nat) (mx : Bool) : State :=
  let u := s.tileAt g
  let bpr := shapeBpr sh
  let spr := shapeSpr sh
  let m := (List.range (shapeRows sh)).foldl (fun m r => Mem.write m (192 * r) (s.lmRead g (e.rowOff ea st r) bpr)) (u.reg t)
  let u1 := u.setReg t m
  if mx then
    s.setTile g (u1.setScale t ((List.range (shapeRows sh)).foldl
      (fun m r => Mem.write m (12 * r) (s.lmRead g (e.sb + sb + r * spr) spr)) (u.scale t)))
  else s.setTile g u1

/-- TST when it executes: rows in ascending order. -/
def State.tileStore (s : State) (g : Nat) (e : TEntry) (t : Nat) (sh : Word) (ea st sb : Nat) (mx : Bool) : State :=
  let u := s.tileAt g
  (List.range (shapeRows sh)).foldl (fun x r =>
    let y := x.lmWrite g (e.rowOff ea st r) (Mem.read (u.reg t) (192 * r) (shapeBpr sh))
    if mx then y.lmWrite g (e.sb + sb + r * shapeSpr sh) (Mem.read (u.scale t) (12 * r) (shapeSpr sh)) else y) s

/-- TLDC when it executes. -/
def State.accLoad (s : State) (g : Nat) (e : TEntry) (c ea st : Nat) : State :=
  let u := s.tileAt g
  s.setTile g (u.setAcc c ((List.range 16).foldl (fun m r => Mem.write m (48 * r) (s.lmRead g (e.rowOff ea st r) 48)) (u.acc c)))

/-- TSTC when it executes. -/
def State.accStore (s : State) (g : Nat) (e : TEntry) (c ea st : Nat) : State :=
  (List.range 16).foldl (fun x r => x.lmWrite g (e.rowOff ea st r) (Mem.read ((s.tileAt g).acc c) (48 * r) 48)) s

/-- The energy of a TMMA of K elements (15 R481, R538), rounded up to 1/256 pJ. -/
def State.chargeMma (s : State) (g : Nat) (dye : BitVec 16) (ec k : Nat) : State :=
  let ev : Ev := if ec = 15 then .mmaMx4 else if ec = 14 then .mmaMx6 else if ec = 0 then .mmaI8 else .mma
  let full := (tileCols ec).getD 1
  let amount := (s.madder.coeff.getD ev.idx 0 * k + full - 1) / full
  { s with madder := s.madder.charge g dye ev.rail amount }

/-- What the command's reads of LM find (17 R516): tile commands take no fault for it (10 R364). -/
def State.tileFound (s : State) (g : Nat) (e : TEntry) : State :=
  match e.cmd with
  | .tld _ sh ea st sb mx => (List.range (shapeRows sh)).foldl (fun x r =>
      let y := x.lmFound g e.dye (e.rowOff ea st r) (shapeBpr sh)
      if mx then y.lmFound g e.dye (e.sb + sb + r * shapeSpr sh) (shapeSpr sh) else y) s
  | .tldc _ ea st => (List.range 16).foldl (fun x r => x.lmFound g e.dye (e.rowOff ea st r) 48) s
  | _ => s

/-- The command's effect, with its flags (10 R362, R366-R372). -/
def State.tileRun (s : State) (g : Nat) (e : TEntry) : State × BitVec 5 :=
  let u := s.tileAt g
  match e.cmd with
  | .tld t sh ea st sb mx => ((s.tileFound g e).tileLoad g e t sh ea st sb mx, 0)
  | .tst t sh ea st sb mx => (s.tileStore g e t sh ea st sb mx, 0)
  | .tldc c ea st => ((s.tileFound g e).accLoad g e c ea st, 0)
  | .tstc c ea st => (s.accStore g e c ea st, 0)
  | .zeroC c => (s.setTile g (u.setAcc c []), 0)
  | .zeroT t => (s.setTile g ((u.setReg t []).setScale t []), 0)
  | .mma c a b ec k => let r := u.mma c a b ec k; (s.setTile g r.1, r.2)
  | .cvt t c i32 ec rnd sat key base => let r := u.cvt t c i32 ec rnd.toNat sat key base; (s.setTile g r.1, r.2)
  | .tran t b sh => (s.setTile g (u.tran t b sh), 0)

/-- Bytes a command moves between LM and the tile unit. -/
def TCmd.moved : TCmd → Nat
  | .tld _ sh _ _ _ mx => shapeRows sh * (shapeBpr sh + (if mx then shapeSpr sh else 0))
  | .tst _ sh _ _ _ mx => shapeRows sh * (shapeBpr sh + (if mx then shapeSpr sh else 0))
  | .tldc _ _ _ => 768
  | .tstc _ _ _ => 768
  | _ => 0

/-- A command's charge (15 R481, R538). -/
def State.chargeTile (s : State) (g : Nat) (dye : BitVec 16) (c : TCmd) : State :=
  match c with
  | .zeroC _ => s.charge g dye .tzc 1
  | .zeroT _ => s.charge g dye .tzc 1
  | .mma _ _ _ ec k => s.chargeMma g dye ec k
  | .cvt _ _ _ _ _ _ _ _ => s.charge g dye .tcvt 1
  | .tran _ _ _ => s.charge g dye .tcvt 1
  | c => (s.charge g dye .vstep 1).charge g dye .lm ((c.moved + 63) / 64)

/-- The command's LM accesses are held by earlier entries (10 R374). -/
def State.tileHeld (s : State) (g : Nat) (e : TEntry) : Bool :=
  match e.sbEntry with
  | some x => s.lmHeld g e.seq x.reads x.writes
  | none => false

/-- TILE_COMMAND_START (10 R375): the oldest command begins when none runs and no earlier entry holds its LM accesses. -/
def execTileCommandStart (g : Nat) (s : State) : Res :=
  let t := s.tileAt g
  match t.queue with
  | [] => .next s
  | e :: _ => if t.busy || s.tileHeld g e then .next s else .next (s.setTile g { t with busy := true })

/-- TILE_COMMAND_COMPLETE (10 R362-R364): the running command takes its whole effect, and its flags reach its issuer. -/
def execTileCommandComplete (g : Nat) (s : State) : Res :=
  let t := s.tileAt g
  match t.busy, t.queue with
  | true, e :: rest =>
    let r := s.tileRun g e
    let s1 := r.1.setTile g { r.1.tileAt g with queue := rest, busy := false }
    let s2 := match s1.find e.who with
      | some p => s1.update e.who (p.raise r.2)
      | none => s1
    .next (s2.chargeTile g e.dye e.cmd)
  | _, _ => .next s

end Sys2Proof.Machine
end

