-- ==== Sys2Proof/Machine/Copy.lean ====
section
/-! DEFINITION. The copy engine (10 R376-R396): staging, issue, transfers, conversion, decryption, completion, ring objects, and SCRUB. -/

namespace Sys2Proof.Machine

/-! Ring objects (10 R392). -/

/-- A ring object's header. -/
structure Ring where
  base : Nat
  ssz : Nat
  ns : Nat
  ip : Nat
  wp : Nat
  rp : Nat
  deriving DecidableEq, Repr

/-- A field of `n` bytes at an offset of some bytes. -/
def field (bs : List Byte) (off n : Nat) : Nat := bytesNat ((bs.drop off).take n)

/-- A header from its 64 bytes. -/
def Ring.ofBytes (bs : List Byte) : Ring :=
  { base := field bs 0 8, ssz := field bs 8 4, ns := field bs 12 2, ip := field bs 16 8, wp := field bs 24 8, rp := field bs 32 8 }

/-- The header obeys the table (10 R392), for a segment of some bytes; STAT has been checked before. -/
def Ring.ok (r : Ring) (bs : List Byte) (segLen : Nat) : Bool :=
  r.base % 64 == 0 && r.ssz % 64 == 0 && decide (64 ≤ r.ssz) && decide (1 ≤ r.ns ∧ r.ns ≤ 64) && field bs 14 2 == 0 &&
    field bs 40 24 == 0 && decide (r.rp ≤ r.wp ∧ r.wp ≤ r.ip ∧ r.ip ≤ r.rp + r.ns) && decide (r.base + r.ns * r.ssz ≤ segLen)

/-- What a ring address leads to: held by the scoreboard, the trap of the first failing check and whether the header was read for it, or the header. -/
inductive RingRead where
  | held
  | bad (c : Cause) (read : Bool)
  | ok (r : Ring)
  deriving DecidableEq, Repr

/-- The checks of a ring object in their order (10 R392). -/
def State.ringAt (s : State) (g : Nat) (p : Proc) (ra : Word) : RingRead :=
  if ra.toNat % 64 ≠ 0 then .bad .align false
  else if !p.inSeg ra 64 then .bad .segment false
  else if s.localHeld g (Span.ofLen (p.phys ra) 64) Span.none then .held
  else
    let bs := s.lmRead g (p.phys ra) 64
    let r := Ring.ofBytes bs
    if p.segLen < ra.toNat + 64 + 8 * r.ns then .bad .segment true
    else if !r.ok bs p.segLen then .bad .bounds true
    else .ok r

/-- The status word of a slot. -/
def State.ringStat (s : State) (g : Nat) (p : Proc) (ra : Word) (i : Nat) : Word := bytesWord (s.lmRead g (p.phys ra + 64 + 8 * i) 8)

/-! Staging and issue. -/

/-- CPSET (10 R378); the staging set is in LM (14 R443). -/
def execCpset (b : Reg) (f : BitVec 4) (s : State) : Res :=
  s.withProc fun g k p =>
    if p.awaits [b] then s.stall
    else
      let s1 := s.setCore g ((s.coreAt g).touch (0x5A000 + 104 * p.stg.toNat + 8 * f.toNat) 8)
      .next (s1.retire g k { p with staging := p.staging.setIfInBounds f.toNat (p.reg b) })

/-- The write-set id of a staging set. -/
def cpWsid (x : Vector Word 13) : Nat := (stg x 8).toNat % 4096
/-- The key slot of a staging set. -/
def cpKey (x : Vector Word 13) : Nat := (stg x 9).toNat % 64

/-- Every field obeys 10 R376 and R377, and the elements of a row are whole (10 R379). An MX array off the boundary of 04 R166 is converted where it stands
(DESIGN CHOICE, log entry 69). -/
def cpFieldsOk (x : Vector Word 13) : Bool :=
  let len := cpLen x
  let conv := (stg x 6).toNat
  decide (1 ≤ len ∧ len < 2 ^ 32) && decide (1 ≤ cpRows x ∧ cpRows x ≤ 65536) && conv / 2 ^ 13 == 0 &&
    (cpEn x || conv % 4096 == 0) && decide (cpRnd x ≤ 3) && !(cpEn x && isMx (cpSec x) && isMx (cpDec x)) &&
    (!cpEn x || (len * 8 % codeBits (cpSec x) == 0 && (!(isMx (cpSec x) || isMx (cpDec x)) || cpElems x % 32 == 0))) &&
    (stg x 8).toNat / 4096 == 0 && (stg x 9).toNat / 64 == 0 &&
    bitsOf (stg x 11).toNat 63 52 == 0 && bitsOf (stg x 11).toNat 5 1 == 0 &&
    bitsOf (stg x 12).toNat 63 52 == 0 && bitsOf (stg x 12).toNat 2 1 == 0

/-- The checks of a decrypting copy before its descriptor is read, in their order (10 R379, R384). -/
def State.keyCheck (s : State) (p : Proc) (x : Vector Word 13) : Option (Cause × Word) :=
  let cry := stg x 10
  if cpKey x = 0 then none
  else if cpEn x || cpWsid x == 0 || decide (2 ^ 32 < cpLen x * cpRows x) then some (.bounds, 0)
  else if (match Tbl.find s.keys (cpKey x) with | some k => k.part != p.part | none => true) then some (.rights, 0)
  else if cry.toNat % 32 ≠ 0 then some (.align, cry)
  else if !p.inSeg cry 32 then some (.segment, cry)
  else none

/-- Checks 1, 3 and 4 of 07 R249 on an extent; an empty one passes. -/
def State.spanCheck (s : State) (part need : Nat) (x : Span) : Option (Cause × Word) :=
  if x.2 ≤ x.1 then none
  else if x.1 < 0 ∨ 2 ^ 52 < x.2 then some (.bounds, BitVec.ofInt 64 x.1)
  else (s.rangeCheck part need (BitVec.ofInt 64 x.1) (x.2 - x.1).toNat).map fun c => (c, BitVec.ofInt 64 x.1)

/-- D (10 R379): the ring's slot in the window, or DST. -/
def cpDest (g sb : Nat) (x : Vector Word 13) (ring : Option Ring) : Word :=
  match ring with
  | some r => BitVec.ofNat 64 (windowLm g (sb + r.base + r.ip % r.ns * r.ssz))
  | none => stg x 1

/-- The right a copy needs at its destination (10 R379). -/
def cpNeed (p : Proc) (x : Vector Word 13) (d : Word) : Nat :=
  if cpWsid x != 0 || (p.txid != 0 && !isWindow d.toNat) then rightW + rightV else rightW

/-- The checks on source, destination and bitmap in their order (10 R379); each extent needs what its own space asks for. -/
def State.copyRanges (s : State) (p : Proc) (x : Vector Word 13) (ring : Option Ring) (d : Word) : Option (Cause × Word) :=
  let dst := cpDst x d
  let scl := cpSclDst x
  let slot : Option (Cause × Word) := match ring with
    | some r => if dst.1 < d.toNat ∨ (d.toNat : Int) + r.ssz < dst.2 then some (Cause.bounds, BitVec.ofInt 64 dst.1) else none
    | none => none
  let ebm : Option (Cause × Word) :=
    if cpEbm x && decide (p.segLen < cpEbmAt x + cpEbmLen x d) then some (Cause.segment, BitVec.ofNat 64 (cpEbmAt x)) else none
  [s.spanCheck p.part rightR (cpSrc x), s.spanCheck p.part rightR (cpSclSrc x), slot, s.spanCheck p.part (cpNeed p x d) dst,
    s.spanCheck p.part (cpNeed p x (BitVec.ofInt 64 scl.1)) scl, ebm].findSome? id

/-- Every piece of the copy has been written, or a fault has ended it. -/
def Copy.moved (c : Copy) : Bool := c.fault.isSome || decide (cpUnits c.x (BitVec.ofNat 64 c.dst) ≤ c.done.length)

/-- The copy has issued all its reads (10 R389), or a fault has ended it. -/
def Copy.issued (c : Copy) : Bool :=
  c.fault.isSome || decide (cpReads c.x ≤ c.reads.length + (c.asked.map (·.count)).sum)

/-- Commands a core's request ring holds, and incomplete copies a process may have (10 R379, R389). -/
def requestRing : Nat := 16

/-- CPGO's command cannot be placed now (10 R373, R379). Its place in the request ring is free again when every piece is written (DESIGN CHOICE, log
entry 89). -/
def State.copyFull (s : State) (g : Nat) (who : PRef) (c : Copy) : Bool :=
  let j := (s.clusterAt (clusterOf g)).journal
  decide (requestRing ≤ (j.filter fun y => y.who == who && y.finished.isNone).length) ||
    decide (requestRing ≤ (j.filter fun y => y.who.g == g && !y.moved).length) ||
    (c.usesLm g && s.sbFull g)

/-- CPGO's command, as captured (10 R379): `desc` the crypto descriptor, `ip` the ring's IP, `d` the destination. -/
def State.newCopy (s : State) (g k : Nat) (p : Proc) (desc : List Byte) (ip d : Nat) : Copy where
  id := s.nextId
  seq := s.nextId
  who := s.pref g k
  part := p.part
  launch := p.launch
  dye := p.dye
  sbase := p.sb.toNat
  x := p.staging
  dst := d
  txid := p.txid.toNat
  snap := p.snap.toNat
  sm := p.sm
  vseen := p.vseen.toNat
  floor := p.floor.toNat
  ringN := ip
  desc := desc
  reads := []
  got := []
  asked := []
  done := []
  errs := []
  fault := none
  farW := []
  finished := none

/-- CPGO completes: SENT, the id, the ring's IP, the journal (10 R379). The process's number of copies names this one. -/
def State.startCopy (s : State) (g k : Nat) (p : Proc) (a : Reg) (c : Copy) : State :=
  let n := p.cpn + 1
  let s1 := s.fresh.2.countSent g p.launch 1
  let s2 := if cpRing c.x then
      (s1.lmWrite g (c.sbase + cpRingAt c.x + 16) (natBytes 8 (c.ringN + 1))).charge g p.dye .lm 1
    else s1
  let q : Proc := { p with cpn := n }
  let s3 := s2.retire g k (q.setReg a n)
  let cl := s3.clusterAt (clusterOf g)
  s3.setCluster (clusterOf g) { cl with journal := cl.journal ++ [{ c with id := n.toNat }] }

/-- CPGO's reads of the crypto descriptor and the ring header, which the copy's dye pays (10 R391). -/
def State.payReads (s : State) (g : Nat) (p : Proc) (n : Nat) : State := if n = 0 then s else s.charge g p.dye .lm n

/-- CPGO from the stall for room on (10 R379): a tagged copy is first registered, and starts as captured when the service has replied. `n` counts the
LM reads that are still to be paid. -/
def State.placeCopy (s : State) (g k : Nat) (p : Proc) (a : Reg) (desc : List Byte) (ip d n : Nat) : Res :=
  let c := s.newCopy g k p desc ip d
  let base := p.sb.toNat + cpRingAt p.staging
  let paid := s.payReads g p n
  if s.copyFull g (s.pref g k) c || (cpRing p.staging && s.localHeld g Span.none (Span.ofLen (base + 16) 8)) then s.stall
  else if cpWsid p.staging = 0 then .next (paid.startCopy g k p a c)
  else match p.wait with
    | .copyReg pc done _ _ _ =>
      if pc ≠ p.pc then .next (paid.setProc g k { p with wait := .copyReg p.pc false desc ip d })
      else if done then .next (paid.startCopy g k p a c)
      else s.stall
    | _ => .next (paid.setProc g k { p with wait := .copyReg p.pc false desc ip d })

/-- LM reads that CPGO makes before it starts: the crypto descriptor's and the ring header's (10 R379, R391). -/
def cpgoReads (desc : List Byte) (ring : Bool) : Nat := (if desc.isEmpty then 0 else 1) + if ring then 1 else 0

/-- CPGO's checks that depend on the ring, and what follows (10 R379): `desc` is the descriptor as it has been read. -/
def State.checkedCopy (s : State) (g k : Nat) (p : Proc) (a : Reg) (desc : List Byte) (ring : Option Ring) : Res :=
  let d := cpDest g p.sb.toNat p.staging ring
  let n := cpgoReads desc ring.isSome
  match s.copyRanges p p.staging ring d with
  | some (c, i) => .next ((s.payReads g p n).trap g k p c i)
  | none =>
    if (match ring with | some r => r.ip - r.rp == r.ns | none => false) then .next ((s.payReads g p n).retire g k (p.setReg a 0))
    else s.placeCopy g k p a desc (match ring with | some r => r.ip | none => 0) d.toNat n

/-- CPGO (10 R379): the descriptor and the ring header are read, held by the scoreboard (R374), and checked once; while its registration is under way
it only waits. -/
def execCpgo (a : Reg) (s : State) : Res :=
  s.withProc fun g k p =>
    if p.awaits [a] || p.acquiring then s.stall
    else
      let x := p.staging
      let ra : Word := BitVec.ofNat 64 (cpRingAt x)
      let fresh (_ : Unit) : Res :=
        if !cpFieldsOk x then .next (s.trap g k p .bounds 0)
        else match s.keyCheck p x with
          | some (c, i) => .next (s.trap g k p c i)
          | none =>
            if cpKey x != 0 && s.localHeld g (Span.ofLen (p.phys (stg x 10)) 32) Span.none then s.stall
            else
              let desc := if cpKey x = 0 then [] else s.lmRead g (p.phys (stg x 10)) 32
              if field desc 12 4 ≠ 0 then .next ((s.payReads g p 1).trap g k p .bounds 0)
              else if cpRing x then
                match s.ringAt g p ra with
                | .held => s.stall
                | .bad c read => .next ((s.payReads g p (cpgoReads desc read)).trap g k p c ra)
                | .ok r => s.checkedCopy g k p a desc (some r)
              else s.checkedCopy g k p a desc none
      match p.wait with
      | .copyReg pc _ desc ip d => if pc = p.pc then s.placeCopy g k p a desc ip d 0 else fresh ()
      | _ => fresh ()

/-- COPY_REGISTRATION (10 R379): the service has replied, one message each way (02 R536). -/
def execCopyRegistration (g slot : Nat) (s : State) : Res :=
  let p := s.procAt g slot
  match p.wait with
  | .copyReg pc false desc ip d =>
    if s.tss.ready then
      .next (((s.setProc g slot { p with wait := .copyReg pc true desc ip d }).leg (.cluster (clusterOf g)) .tss p.dye).leg .tss (.cluster (clusterOf g)) p.dye)
    else .next s
  | _ => .next s

/-! Geometry of the pieces (10 R379, R380). -/

/-- Piece u of some rows, from row r on: its row, its offset in the row, its length. -/
def pieceAt (row : Nat → Nat × Nat) : Nat → Nat → Nat → Option (Nat × Nat × Nat)
  | 0, _, _ => none
  | fuel + 1, r, u =>
    let y := row r
    let n := piecesOf y.1 y.2
    if u < n then
      let lo := max y.1 ((y.1 / 16 + u) * 16)
      let hi := min (y.1 + y.2) ((y.1 / 16 + u + 1) * 16)
      some (r, lo - y.1, hi - lo)
    else pieceAt row fuel (r + 1) (u - n)

/-- Piece u of the source. -/
def Copy.source (c : Copy) (u : Nat) : Option (Nat × Nat × Nat) := pieceAt (cpSrcRow c.x) (2 * cpRows c.x) 0 u

/-- Piece u of the destination. -/
def Copy.unit (c : Copy) (u : Nat) : Option (Nat × Nat × Nat) := pieceAt (cpDstRow c.x (BitVec.ofNat 64 c.dst)) (2 * cpRows c.x) 0 u

/-- How many pieces a transfer takes from piece u on, which lies at [a, a + n) in a row that ends at `e`: those of its 128-byte line that are still to be
taken (10 R380); and their bytes. -/
def lineRun (taken : Nat → Bool) (u a e : Nat) : Nat × Nat :=
  let stop := min e ((a / 128 + 1) * 128)
  let k := ((List.range (piecesOf a (stop - a))).takeWhile fun i => !taken (u + i)).length
  (k, min stop ((a / 16 + k) * 16) - a)

/-- Piece u of the source is read or asked for. -/
def Copy.readTaken (c : Copy) (u : Nat) : Bool :=
  c.reads.contains u || c.asked.any fun x => decide (x.u ≤ u) && decide (u < x.u + x.count)

/-- A transfer: its row, its offset in the row, the pieces it takes, its address and its bytes. -/
structure Transfer where
  row : Nat
  off : Nat
  count : Nat
  addr : Nat
  len : Nat
  deriving DecidableEq, Repr

/-- The transfer that reads piece u of the source, or its line from there. -/
def Copy.readOf (c : Copy) (u : Nat) (line : Bool) : Option Transfer :=
  (c.source u).map fun p =>
    let y := cpSrcRow c.x p.1
    let k := if line then lineRun c.readTaken u (y.1 + p.2.1) (y.1 + y.2) else (1, p.2.2)
    { row := p.1, off := p.2.1, count := k.1, addr := y.1 + p.2.1, len := k.2 }

/-- The transfer that writes piece u of the destination, or its line from there. -/
def Copy.writeOf (c : Copy) (u : Nat) (line : Bool) : Option Transfer :=
  (c.unit u).map fun p =>
    let y := cpDstRow c.x (BitVec.ofNat 64 c.dst) p.1
    let k := if line then lineRun c.done.contains u (y.1 + p.2.1) (y.1 + y.2) else (1, p.2.2)
    { row := p.1, off := p.2.1, count := k.1, addr := y.1 + p.2.1, len := k.2 }

/-- A part of a transfer that goes to one home: its offset in the row, its address and its bytes. -/
structure Part_ where
  off : Nat
  addr : Nat
  len : Nat
  deriving DecidableEq, Repr

/-- The parts of [a, a + n), at an offset of its row: where it lies in another package, it is cut at the 128-byte lines there and at the end of the
far-map entry (10 R380, 16 R493). The number bounds the parts: a transfer has at most 128 bytes. -/
def State.farParts (s : State) (part : Nat) : Nat → Nat → Nat → Nat → List Part_
  | 0, _, _, _ => []
  | fuel + 1, off, a, n =>
    if n = 0 then []
    else match (if isWindow a then none else s.farAt part a) with
      | none => [{ off := off, addr := a, len := n }]
      | some f =>
        let there := bitsOf f.cap.toNat 51 0 + (a - f.lbase)
        let k := min n (min (128 - there % 128) (f.lbase + bitsOf f.cap.toNat 95 52 + 1 - a))
        { off := off, addr := a, len := k } :: s.farParts part fuel (off + k) (a + k) (n - k)

/-- The parts of a transfer of the copy. -/
def State.partsOf (s : State) (c : Copy) (t : Transfer) : List Part_ := s.farParts c.part 4 t.off t.addr t.len

/-! Reading. -/

/-- How the copy's HBM reads choose their version (10 R380). -/
def Copy.mode (c : Copy) : ReadMode := if c.txid != 0 || c.sm then .snapshot c.snap else .current c.vseen

/-- A read of the copy at a location. -/
def Copy.read (c : Copy) (oid : Nat) (l : Loc) (n : Nat) : GReq :=
  { oid := oid, who := c.who, dye := c.dye, part := c.part, loc := l, op := .read n, mode := c.mode, behind := [], behindEq := [] }

/-- The journal with a copy changed. -/
def State.mapCopy (s : State) (cl id : Nat) (who : PRef) (f : Copy → Copy) : State :=
  let x := s.clusterAt cl
  s.setCluster cl { x with journal := x.journal.map fun (c : Copy) => if c.id == id && c.who == who then f c else c }

/-- Where a copy's access leads (10 R385, 16 R494): `here` tells that it came back in at this package's own ingress. -/
structure Reach where
  loc : Loc
  here : Bool
  deriving DecidableEq, Repr

/-- The home of a copy's access to [a, a + n) with a right, or its fault (10 R385, 16 R493, R494). -/
def State.reach (s : State) (cl : Nat) (c : Copy) (a n need : Nat) : Except Cause Reach × State :=
  let t := s.translate c.part cl c.dye a
  match t.1 with
  | .error x => (.error x, t.2)
  | .ok l =>
    match (if l.isFar then s.farCheck c.part a n (if need = rightR then 0 else 1) else none), s.selfFar l with
    | some x, _ => (.error x, t.2)
    | none, none => (.ok { loc := l, here := true }, t.2)
    | none, some (part, epoch, dva) =>
      match t.2.ingress part epoch dva n need with
      | (.error x, s1) => (.error x, s1)
      | (.ok (.far _ _ _ _), s1) => (.error .rights, s1)
      | (.ok loc, s1) => (.ok { loc := loc, here := false }, s1)

/-- Bytes of the source come into the copy, at a place in their row; those of a poisoned line marked. -/
def Copy.take (c : Copy) (row off : Nat) (bytes : List Byte) (bad : Bool) : Copy := { c with got := c.got ++ [(row, off, bytes, bad)] }

/-- Pieces u to u + count − 1 of the source have been read. -/
def Copy.read_ (c : Copy) (u count : Nat) : Copy := { c with reads := c.reads ++ (List.range count).map (u + ·) }

/-- A copy's read answered: bytes, marked zeros from a poisoned line, or a fault (10 R385). -/
def Copy.answered (c : Copy) (row : Nat) (x : Part_) : Option Body → Copy
  | some (.resp _ bytes _ _ _ _ _ _) => c.take row x.off bytes false
  | some (.err _ .poison) => c.take row x.off (List.replicate x.len 0) true
  | some (.err _ y) => { c with fault := some y }
  | _ => c

/-- The weight that a round gives a core, in bytes (10 R389, 15 R480). -/
def Core.share (c : Core) : Nat := 4096 * c.weight.toNat

/-- The copy's partition is held, so its transfers wait (10 R390). -/
def State.copyHeld (s : State) (c : Copy) : Bool :=
  let x := s.partAt c.part
  x.stopping && (x.full || (match s.find c.who with | some p => !p.stw | none => true))

/-- An earlier copy of the core still has reads to issue (10 R389). -/
def State.copyBehind (s : State) (cl : Nat) (c : Copy) : Bool :=
  (s.clusterAt cl).journal.any fun y => y.who.g == c.who.g && decide (y.seq < c.seq) && y.finished.isNone && !y.issued

/-- The transfer's access to LM of the core is held by earlier entries (10 R374). -/
def State.transferHeld (s : State) (c : Copy) (write : Bool) (t : Transfer) : Bool :=
  let x := lmPart c.who.g ((t.addr : Int), (t.addr : Int) + t.len)
  s.lmHeld c.who.g c.seq (if write then Span.none else x) (if write then x else Span.none)

/-- An access of the copy waits for its walk, here or at this package's own ingress (02 R110, 15 R459). -/
def State.copyWalkWaits (s : State) (cl : Nat) (c : Copy) (a : Nat) : Bool :=
  s.walkWaits c.part cl a ||
    match (s.translate c.part cl c.dye a).1 with
    | .ok l => (match s.selfFar l with | some (part, _, dva) => s.ingressWaits part dva | none => false)
    | .error _ => false

/-- Something at the home, or in a queue that the read goes behind, makes part of a source transfer wait (02 R110, R537, 15 R478, R479). -/
def State.readWaits (s : State) (cl : Nat) (c : Copy) (t : Part_) : Bool :=
  s.copyWalkWaits cl c t.addr ||
  match (s.translate c.part cl c.dye t.addr).1, (s.reach cl c t.addr t.len rightR).1 with
  | .ok l, r =>
    ((s.clusterAt cl).wq.any fun e => e.meets l t.len) || (l.isFar && s.egress.any fun e => e.meets l t.len) ||
      (match r with
        | .ok x => s.readHeld (if x.here then c.mode else .current 0) x.loc || !s.mayAccept x.loc c.part
        | .error _ => false)
  | .error _, _ => false

/-- A source transfer of the copy that could be taken now: piece u, not held by anything but the rounds of the engine. -/
def State.readReady (s : State) (cl : Nat) (c : Copy) (u : Nat) (t : Transfer) : Bool :=
  c.finished.isNone && c.fault.isNone && !c.readTaken u && !s.copyHeld c && !s.copyBehind cl c && !s.transferHeld c false t &&
    !(s.partsOf c t).any (s.readWaits cl c)

/-- The first piece of the source that is neither read nor asked for. -/
def Copy.nextRead (c : Copy) : Nat :=
  let n := c.reads.length + (c.asked.map (·.count)).sum
  if c.readTaken n then ((List.range (n + 1)).find? fun u => !c.readTaken u).getD 0 else n

/-- Another core of the cluster may still take a transfer in this round (10 R389). -/
def State.roundOpen (s : State) (cl g : Nat) : Bool :=
  (s.clusterAt cl).journal.any fun y =>
    y.who.g != g && (match y.readOf y.nextRead true with
      | some t => decide (t.len ≤ Tbl.get 0 (s.clusterAt cl).deficit y.who.g) && s.readReady cl y y.nextRead t
      | none => false)

/-- Core g takes a transfer of n bytes, in this round or as the first of the next (10 R389, 15 R480): a round gives every core with requests its share;
none while the round goes on without it. -/
def State.takeRound (s : State) (cl g n : Nat) : Option State :=
  let x := s.clusterAt cl
  if n ≤ Tbl.get 0 x.deficit g then some (s.setCluster cl { x with deficit := Tbl.put x.deficit g (Tbl.get 0 x.deficit g - n) })
  else if s.roundOpen cl g then none
  else
    let cores := ((x.journal.filter fun y => y.finished.isNone && !y.issued).map fun y => y.who.g).eraseDups
    let d := cores.foldl (fun (d : Tbl Nat) h => Tbl.put d h (Tbl.get 0 x.deficit h + (s.coreAt h).share)) []
    some (s.setCluster cl { x with deficit := Tbl.put d g (Tbl.get 0 d g - n) })

/-- The version that a read found raises its process's VSEEN (03 R145; DEDUCED for a copy, log entry 88). -/
def State.seenBy (s : State) (c : Copy) (here : Bool) : Option Body → State
  | some (.resp _ _ _ _ v _ _ _) => if here then s.seen c.who v else s
  | _ => s

/-- Part of a source transfer made: read at its home (10 R380), or asked of its package (16 R494), none while no packet can leave; its transport is the
copy's (R391). Answers with the request identity when it was asked. -/
def State.copyRead (s : State) (cl : Nat) (c : Copy) (row : Nat) (t : Part_) (e : Ecc) : Option (State × Copy × Option Nat) :=
  let r := s.reach cl c t.addr t.len rightR
  match r.1 with
  | .error x => some (r.2, { c with fault := some x }, none)
  | .ok x =>
    let s1 := r.2.transport (.cluster cl) x.loc.node c.dye 0
    if x.loc.isFar then
      let f := s1.fresh
      (f.2.sendFar (c.read f.1 x.loc t.len)).map fun s2 => (s2, c, some f.1)
    else
      let q : GReq := { c.read 0 x.loc t.len with mode := if x.here then c.mode else .current 0, ingress := !x.here }
      let a := (s1.turned x.loc c.part).perform q e
      let s2 := a.1.transport x.loc.node (.cluster cl) c.dye (match a.2 with | some b => b.size | none => 0)
      some (s2.seenBy c x.here a.2, c.answered row t a.2, none)

/-- The parts of a source transfer made in turn, until one faults: the state, the copy, and the parts that were asked. -/
def State.copyReads (s : State) (cl : Nat) (c : Copy) (row : Nat) (e : Ecc) : List Part_ → Option (State × Copy × List (Nat × Nat × Nat))
  | [] => some (s, c, [])
  | t :: ts =>
    if c.fault.isSome then some (s, c, [])
    else
      match s.copyRead cl c row t e with
      | none => none
      | some (s1, c1, oid) =>
        (s1.copyReads cl c1 row e ts).map fun r =>
          (r.1, r.2.1, match oid with | some o => (o, t.off, t.len) :: r.2.2 | none => r.2.2)

/-- A far part of a source transfer has come (10 R385): poison is kept, another fault ends the copy; the last one completes the transfer. -/
def Copy.gotFar (c : Copy) (oid : Nat) (bytes : List Byte) (cause : BitVec 4) : Copy :=
  match c.asked.find? fun x => x.parts.any fun y => y.1 == oid with
  | none => c
  | some x =>
    let part := (x.parts.find? fun y => y.1 == oid).getD (oid, 0, 0)
    let rest := x.parts.filter fun y => y.1 != oid
    let others := c.asked.filter fun y => y.u != x.u
    let c1 : Copy := if cause = 0 then c.take x.row part.2.1 bytes false
      else if cause = Cause.poison.code then c.take x.row part.2.1 (List.replicate part.2.2 0) true
      else { c with fault := some (c.fault.getD (Cause.ofCode cause)) }
    if rest.isEmpty then { c1.read_ x.u x.count with asked := others } else { c1 with asked := others ++ [{ x with parts := rest }] }

/-- The bytes of a row that have come, each marked when a poisoned line gave it; none while one is missing. -/
def Copy.bytesAt (c : Copy) (row lo n : Nat) : Option (List (Byte × Bool)) :=
  let here := c.got.filter fun e => e.1 == row
  (List.range n).mapM fun i =>
    (here.find? fun e => decide (e.2.1 ≤ lo + i) && decide (lo + i < e.2.1 + e.2.2.1.length)).map fun e =>
      (e.2.2.1.getD (lo + i - e.2.1) 0, e.2.2.2)

/-! Conversion (10 R382) and decryption (10 R384). -/

/-- The bits of element i of some bytes, and whether a byte of it is marked. -/
def elemOf (bits : Nat) (bs : List (Byte × Bool)) (i : Nat) : Nat × Bool :=
  let lo := bits * i / 8
  let hi := (bits * i + bits - 1) / 8
  let part := (bs.drop lo).take (hi - lo + 1)
  (bytesNat (part.map (·.1)) / 2 ^ (bits * i % 8) % 2 ^ bits, part.any (·.2))

/-- Elements of `bits` bits packed, every byte marked that holds a part of a marked element. -/
def packMarked (bits : Nat) (es : List (Nat × Bool)) : List (Byte × Bool) :=
  let n := es.length * bits / 8
  (natBytes n (packElems bits (es.map (·.1)))).zipIdx.map fun b =>
    (b.1, ((es.drop (8 * b.2 / bits)).take ((8 * b.2 + 7) / bits - 8 * b.2 / bits + 1)).any (·.2))

/-- n elements of a row converted (10 R382), whole blocks where a side is MX: their bytes and, for an MX destination, their scales. -/
def cpConvert (x : Vector Word 13) (n : Nat) (row scales : List (Byte × Bool)) : List (Byte × Bool) × List (Byte × Bool) :=
  let sb := codeBits (cpSec x)
  let db := codeBits (cpDec x)
  let mode := cpRnd x
  let es := (List.range n).map (elemOf sb row)
  match mxFmt (cpSec x), mxFmt (cpDec x), Ty.ofCode (cpSec x), Ty.ofCode (cpDec x) with
  | some f, _, _, some d =>
    (packMarked db (es.zipIdx.map fun e =>
      let sc := scales.getD (e.2 / 32) (0, false)
      ((d.ofValue mode (cpSat x) 0 (mxValue f sc.1.toNat e.1.1)).1, e.1.2 || sc.2)), [])
  | none, some f, some t, _ =>
    let blocks := (List.range (n / 32)).map fun j =>
      let b := (es.drop (32 * j)).take 32
      let r := toMx f mode (fun _ => 0) (b.map fun e => t.value e.1)
      let bad := b.any (·.2)
      (r.2.1.map fun y => (y, bad), (BitVec.ofNat 8 r.1, bad))
    (packMarked db (blocks.flatMap (·.1)), blocks.map (·.2))
  | _, _, some t, some d => (packMarked db (es.map fun e => ((convert t d mode (cpSat x) 0 e.1).1, e.2)), [])
  | _, _, _, _ => ([], [])

/-- The key bytes of a slot, most significant byte first. -/
def KeySlot.bytes (k : KeySlot) : List Byte := bigBytes 32 k.key.toNat

/-- A unit's bytes decrypted (10 R384): `off` its place in the text. -/
def State.decrypt (s : State) (c : Copy) (off : Nat) (bs : List (Byte × Bool)) : List (Byte × Bool) :=
  match Tbl.find s.keys (cpKey c.x) with
  | none => bs
  | some k => bs.zipWith (fun b z => (b.1 ^^^ z, b.2)) (keystream (keySchedule k.bytes) (c.desc.take 12) off bs.length)

/-- The elements that a piece of the destination bears on: from the first to before the last, whole blocks where a side is MX. -/
def cpElemRange (x : Vector Word 13) (lo n : Nat) : Nat × Nat :=
  let db := codeBits (cpDec x)
  let e0 := lo * 8 / db
  let e1 := ((lo + n) * 8 + db - 1) / db
  if isMx (cpSec x) || isMx (cpDec x) then (e0 / 32 * 32, roundUp e1 32) else (e0, e1)

/-- The elements of a row from e0 to before e1, converted, when their source bytes have come. -/
def Copy.converted (c : Copy) (row e0 e1 : Nat) : Option (List (Byte × Bool) × List (Byte × Bool)) :=
  let sb := codeBits (cpSec c.x)
  match c.bytesAt row (e0 * sb / 8) (e1 * sb / 8 - e0 * sb / 8),
      (if isMx (cpSec c.x) then c.bytesAt (cpRows c.x + row) (e0 / 32) (e1 / 32 - e0 / 32) else some []) with
  | some bs, some sc => some (cpConvert c.x (e1 - e0) bs sc)
  | _, _ => none

/-- What the copy writes at [lo, lo + n) of a destination row: the source's bytes, decrypted where it has a key, or converted elements or scales; none
while the source has not come. -/
def State.copyOut (s : State) (c : Copy) (row lo n : Nat) : Option (List (Byte × Bool)) :=
  if !cpEn c.x then
    (c.bytesAt row lo n).map fun bs => if cpKey c.x = 0 then bs else s.decrypt c (row * cpLen c.x + lo) bs
  else if row < cpRows c.x then
    let e := cpElemRange c.x lo n
    (c.converted row e.1 e.2).map fun y => (y.1.drop (lo - e.1 * codeBits (cpDec c.x) / 8)).take n
  else (c.converted (row - cpRows c.x) (32 * lo) (32 * (lo + n))).map (·.2)

/-! Writing. -/

/-- A line's tentative version of an owner replaced. -/
def State.setTent (s : State) (line : Nat) (o : Owner) (f : Ver → Ver) : State :=
  let l := s.lineAt line
  s.setLine line { l with tent := l.tent.map fun e => if e.1 == o then (e.1, f e.2) else e }

/-- Copy q is about to write a set version that another copy has written since, so its content is to be kept (10 R383). -/
def SetLine.keeps (x : SetLine) (q : Nat) : Bool := (x.writes.any fun w => w.1 != q) && !x.later q

/-- The launch of a tagged copy still runs; when it has ended, its unpublished versions are gone for good (02 R114). -/
def State.setOpen (s : State) (c : Copy) : Bool := c.launch.lid == 0 || s.launches.any fun l => l.ref == c.launch

/-- A tagged copy writes its set's version of a line (02 R113, 10 R383); false when no slot can be made. -/
def State.setWrite (s : State) (v dpa : Nat) (c : Copy) (bytes : List Byte) (bad : Bool) : State × Bool :=
  let line := dpa / 128
  let o : Owner := .set c.launch (cpWsid c.x)
  let w := (c.seq, dpa % 128, bytes, bad)
  let same (x : SetLine) : Bool := x.line == line && x.own == o
  match (s.lineAt line).tentOf o with
  | some _ =>
    let r := if s.setLog.any fun x => same x && x.keeps c.seq then s.makeSlot v line s.slotFuel else (s, true)
    if !r.2 then (r.1, false)
    else
      let t := r.1.tentWrite v dpa bytes false o none c.dye
      let s1 : State := { t.1 with setLog := t.1.setLog.map fun (x : SetLine) => if same x then { x with writes := x.writes ++ [w] } else x }
      (if bad then s1.setTent line o fun y => { y with poison := true } else s1, t.2)
  | none =>
    let t := s.tentWrite v dpa bytes false o none c.dye
    if !t.2 then (t.1, false)
    else
      let base : Ver := { (s.lineAt line).cur with plain := false, holdV := 0, dye := c.dye }
      let x : SetLine := { line := line, own := o, base := base, writes := [w] }
      let s1 : State := { t.1 with setLog := (t.1.setLog.filter fun y => !same y) ++ [x] }
      (if bad then s1.setTent line o fun y => { y with poison := true } else s1, true)

/-- How a destination transfer ends: written, an error line, or a fault; with the identities of far writes. -/
structure WriteEnd where
  st : State
  err : Bool
  fault : Option Cause
  far : List Nat

/-- A transaction's version of the copy's bytes (10 R383): poison is carried to it; a line that cannot be made is an error line. -/
def State.copyTx (s : State) (c : Copy) (v dpa : Nat) (bytes : List Byte) (bad : Bool) : WriteEnd :=
  let s1 := s.mapTx c.txid fun x => x.wrote v
  let had := ((s1.lineAt (dpa / 128)).tentOf (.tx c.txid)).isSome
  let s2 := s1.txWrite (c.read 0 (.hbm v dpa) bytes.length) v dpa bytes false c.txid
  let has := ((s2.lineAt (dpa / 128)).tentOf (.tx c.txid)).isSome
  { st := if bad then s2.setTent (dpa / 128) (.tx c.txid) fun y => { y with poison := true } else s2
    err := bad || (!had && !has), fault := none, far := [] }

/-- A destination transfer, within one line, made at its home (02 R537, 10 R380, R383, R385); one to another package passes the egress queue and is
never forwarded. Its transport is the copy's (R391). -/
def State.copyWrite (s : State) (cl : Nat) (c : Copy) (a : Nat) (bs : List (Byte × Bool)) : WriteEnd :=
  let r := s.reach cl c a bs.length rightW
  let bad := bs.any (·.2)
  let bytes := bs.map (·.1)
  match r.1 with
  | .error x => { st := r.2, err := false, fault := some x, far := [] }
  | .ok x =>
    let s1 := r.2.transport (.cluster cl) x.loc.node c.dye bs.length
    let s2 := s1.turned x.loc c.part
    let q : GReq := { c.read 0 x.loc bs.length with
      op := .write bytes false none (if x.here then c.floor else 0), mode := .current 0, ingress := !x.here, bad := bs.map (·.2) }
    if cpWsid c.x != 0 && !(x.here && x.loc.isHbm) then { st := r.2, err := false, fault := some .bounds, far := [] }
    else match x.loc, x.here with
      | .far _ _ _ _, _ =>
        if c.txid != 0 then { st := r.2.mapTx c.txid fun y => { y with span := true }, err := bad, fault := none, far := [] }
        else
          let f := s1.fresh
          let e : WqE := { seq := f.2.egressSeq, oid := f.1, who := c.who, dye := c.dye, part := c.part, ea := a, loc := x.loc, bytes := bytes
                           own := none, cap := false, isCap := false, floor := 0, bad := q.bad }
          { st := { f.2 with egress := f.2.egress ++ [e], egressSeq := f.2.egressSeq + 1 }, err := bad, fault := none, far := [f.1] }
      | .hbm v dpa, true =>
        if cpWsid c.x != 0 then
          if !s.setOpen c then { st := s2, err := bad, fault := none, far := [] }
          else
            let w := s2.setWrite v dpa c bytes bad
            { st := w.1, err := bad || !w.2, fault := none, far := [] }
        else if c.txid != 0 then s2.copyTx c v dpa bytes bad
        else { st := (s2.perform q .clean).1, err := bad, fault := none, far := [] }
      | _, here =>
        if c.txid != 0 && !here then { st := r.2.mapTx c.txid fun y => { y with span := true }, err := bad, fault := none, far := [] }
        else
          let w := s2.perform q .clean
          { st := w.1, err := bad, fault := match w.2 with | some (.err _ z) => some z | _ => none, far := [] }

/-- Something makes a destination transfer wait: a prepared line or table (02 R110), the home's queue (15 R478, R479), the room of the egress queue
(02 R89). -/
def State.writeWaits (s : State) (cl : Nat) (c : Copy) (a n : Nat) : Bool :=
  s.copyWalkWaits cl c a ||
  match (s.reach cl c a n rightW).1 with
  | .ok x => (match x.loc with
    | .hbm _ dpa => (s.lineAt (dpa / 128)).prep.isSome
    | .far _ _ _ _ => !s.egressRoom c.part
    | _ => false) || !s.mayAccept x.loc c.part
  | .error _ => false

/-- The parts of a destination transfer made in turn, until one faults (10 R380); none while one waits. `bs` are the bytes from the first part on. -/
def State.copyWrites (s : State) (cl : Nat) (c : Copy) (bs : List (Byte × Bool)) : List Part_ → Option WriteEnd
  | [] => some { st := s, err := false, fault := none, far := [] }
  | t :: ts =>
    if s.writeWaits cl c t.addr t.len then none
    else
      let w := s.copyWrite cl c t.addr (bs.take t.len)
      if w.fault.isSome then some w
      else (w.st.copyWrites cl c (bs.drop t.len) ts).map fun x => { x with err := w.err || x.err, far := w.far ++ x.far }

/-- The number of a destination line among the copy's lines (10 R386): the line of byte a of row r; scale lines come after those of the rows. -/
def Copy.lineNo (c : Copy) (r a : Nat) : Nat :=
  let d : Word := BitVec.ofNat 64 c.dst
  if r < cpRows c.x then cpLines c.x d r + (a / 128 - (rowAt d (stg c.x 5) r).toNat / 128)
  else cpLines c.x d (cpRows c.x) + a / 128

/-! Transfers. -/

/-- The pieces of a destination transfer are written. -/
def Copy.wrote (c : Copy) (u : Nat) (t : Transfer) (w : WriteEnd) : Copy :=
  { c with
    done := c.done ++ (List.range t.count).map (u + ·)
    errs := if w.err then insertNat (c.lineNo t.row t.addr) c.errs else c.errs
    farW := c.farW ++ w.far
    fault := w.fault }

/-- Copy `y` reads piece u of its source, or the line from there, when its turn comes. -/
def State.transferIn (s : State) (c : Nat) (y : Copy) (u : Nat) (line : Bool) (e : Ecc) : State :=
  match y.readOf u line with
  | none => s
  | some t =>
    if !s.readReady c y u t then s
    else match s.takeRound c y.who.g t.len with
      | none => s
      | some s1 => match s1.copyReads c y t.row e (s1.partsOf y t) with
        | none => s
        | some (s2, z, asked) => s2.mapCopy c y.id y.who fun _ =>
          if z.fault.isSome then z
          else if asked.isEmpty then z.read_ u t.count
          else { z with asked := z.asked ++ [{ u := u, count := t.count, row := t.row, parts := asked }] }

/-- Copy `y` writes piece u of its destination, or the line from there, when its source has come. -/
def State.transferOut (s : State) (c : Nat) (y : Copy) (u : Nat) (line : Bool) : State :=
  match y.writeOf u line with
  | none => s
  | some t =>
    if y.finished.isSome || y.fault.isSome || y.done.contains u || s.copyHeld y || s.transferHeld y true t then s
    else match s.copyOut y t.row t.off t.len with
      | none => s
      | some bs => match s.copyWrites c y bs (s.partsOf y t) with
        | none => s
        | some w => w.st.mapCopy c y.id y.who fun _ => y.wrote u t w

/-- COPY_TRANSFER (10 R380-R385): for the copy with place `id` in cluster c's journal, a piece of the source is read, or one of the destination
written. An overlapping copy's pieces have the source as the order of its own reads and writes makes it (R381; log entry 67). -/
def execCopyTransfer (c id : Nat) (u : CopyMove) (e : Ecc) (s : State) : Res :=
  match (s.clusterAt c).journal.find? fun y => y.seq == id with
  | none => .next s
  | some y => .next (if u.write then s.transferOut c y u.piece u.line else s.transferIn c y u.piece u.line e)

/-- A far write of a copy has failed (10 R385). -/
def Copy.failFar (c : Copy) (oid : Nat) (cause : BitVec 4) : Copy :=
  if c.farW.contains oid && c.finished.isNone then { c with fault := some (c.fault.getD (Cause.ofCode cause)) } else c

/-! Completion. -/

/-- The window of a key slot accepts counter n (16 R500). -/
def KeySlot.accepts (k : KeySlot) (n : Nat) : Bool :=
  decide (k.floor.toNat ≤ n) && decide (k.high.toNat < n + 64) &&
    (decide (k.high.toNat < n) || !k.mask.getLsbD (k.high.toNat - n))

/-- Counter n recorded (16 R500). -/
def KeySlot.record (k : KeySlot) (n : Nat) : KeySlot :=
  if k.high.toNat < n then
    { k with high := BitVec.ofNat 64 n, mask := (k.mask <<< (n - k.high.toNat)) ||| 1 }
  else { k with mask := k.mask ||| (1#64 <<< (k.high.toNat - n)) }

/-- The tag comparison of a decrypting copy (10 R384, 16 R500): the slots as it leaves them, and whether it accepts. -/
def State.tagCheck (s : State) (c : Copy) : State × Bool :=
  match Tbl.find s.keys (cpKey c.x) with
  | none => (s, false)
  | some k =>
    let rows := (List.range (cpRows c.x)).mapM fun r => c.bytesAt r 0 (cpLen c.x)
    let text := match rows with | some l => if l.flatten.any (·.2) then [] else l.flatten.map (·.1) | none => []
    let iv := c.desc.take 12
    let n := bigNat (iv.drop 4)
    if k.part == c.part && iv.take 4 == bigBytes 4 k.fixed.toNat && k.accepts n && text.length == cpLen c.x * cpRows c.x &&
        gcmTag k.bytes iv text == (c.desc.drop 16).take 16 then
      ({ s with keys := Tbl.put s.keys (cpKey c.x) (k.record n) }, true)
    else (s, false)

/-- A tagged copy's writes undone (10 R383): a version that no other copy wrote is discarded; otherwise it stands as the other writes make it
(log entry 26). -/
def State.undoCopy (s : State) (c : Copy) : State :=
  (s.setLog.filter fun x => x.writes.any fun w => w.1 == c.seq).foldl (fun (st : State) x =>
    let y : SetLine := { x with writes := x.writes.filter fun w => w.1 != c.seq }
    if ((st.lineAt x.line).tentOf x.own).isNone then st
    else
      let l := st.lineAt x.line
      let st1 := if y.writes.isEmpty then st.setLine x.line { l with tent := l.tent.filter fun e => e.1 != x.own }
        else st.setTent x.line x.own fun _ => y.version
      { st1 with setLog := (st1.setLog.filter fun z => !(z.line == x.line && z.own == x.own)) ++
          (if y.writes.isEmpty then [] else [y]) }) s

/-- A status word (10 R387). -/
def cpStatus (nerr cause st : Nat) : Word := BitVec.ofNat 64 (min nerr (2 ^ 32 - 1) * 2 ^ 32 + cause * 65536 + st)

/-- The error bitmap of a copy (10 R386). -/
def Copy.bitmap (c : Copy) : List Byte :=
  let d : Word := BitVec.ofNat 64 c.dst
  natBytes (cpEbmLen c.x d) (((List.range (cpLines c.x d (cpRows c.x))).filter fun i => c.errs.contains i).foldl (fun a i => a + 2 ^ i) 0)

/-- Ring copies that have completed are advanced in ring order (10 R393): STAT, then WP, with absolute values. A ring is named by its place in the core's
LM, so processes that share a segment share it. Its stores are the copy's (R391), and are held by earlier entries (R374). -/
def State.advanceRing (s : State) (cl g base : Nat) : Nat → State
  | 0 => s
  | fuel + 1 =>
    let j := (s.clusterAt cl).journal
    let mine (c : Copy) : Bool := c.who.g == g && cpRing c.x && c.sbase + cpRingAt c.x == base
    match j.find? fun c => mine c && c.finished.isSome && !j.any fun y => mine y && decide (y.ringN < c.ringN) with
    | none => s
    | some c =>
      let ns := max 1 (bytesNat (s.lmRead g (base + 12) 2))
      if s.lmHeld g c.seq Span.none (Span.ofLen (base + 64 + 8 * (c.ringN % ns)) 8) || s.lmHeld g c.seq Span.none (Span.ofLen (base + 24) 8) then s
      else
      let s1 := s.lmWrite g (base + 64 + 8 * (c.ringN % ns)) (wordBytes 8 (c.finished.getD 0))
      let s2 := ((s1.lmWrite g (base + 24) (natBytes 8 (c.ringN + 1))).charge g c.dye .lm 2).transport (.cluster cl) (.core g) c.dye 16
      let x := s2.clusterAt cl
      (s2.setCluster cl { x with journal := x.journal.filter fun y => y.seq != c.seq }).advanceRing cl g base fuel

/-- The process keeps the status of its 16 most recent copies (10 R388). -/
def Proc.keepStatus (p : Proc) (id : Nat) (w : Word) : Proc :=
  { p with copies := (p.copies ++ [(id, w)]).filter fun x => decide (p.cpn.toNat < x.1 + 16) }

/-- COPY_COMPLETION (03 R151, 10 R383-R393): every write has been performed; tag comparison, undo, bitmap, status, RCVD and ring follow. A ring copy
that has its status advances its ring when its turn comes. -/
def execCopyCompletion (c id : Nat) (s : State) : Res :=
  match (s.clusterAt c).journal.find? fun y => y.seq == id with
  | none => .next s
  | some y =>
    let ebm := if cpEbm y.x then Span.ofLen (y.sbase + cpEbmAt y.x) y.bitmap.length else Span.none
    if y.finished.isSome then .next (s.advanceRing c y.who.g (y.sbase + cpRingAt y.x) (s.clusterAt c).journal.length)
    else if !y.moved || s.copyHeld y || (s.egress.any fun e => y.farW.contains e.oid) ||
        s.lmHeld y.who.g y.seq Span.none ebm then .next s
    else
      let tag := if y.fault.isNone && cpKey y.x != 0 then s.tagCheck y else (s, true)
      let st : Nat := if y.fault.isSome then 2 else if !tag.2 then 3 else if y.errs.isEmpty then 0 else 1
      let cause := match y.fault with | some x => x.code.toNat | none => 0
      let w := cpStatus y.errs.length cause st
      let s1 := if cpWsid y.x != 0 && decide (2 ≤ st) then tag.1.undoCopy y else tag.1
      let s2 := if cpEbm y.x then
          ((s1.lmWrite y.who.g (y.sbase + cpEbmAt y.x) y.bitmap).charge y.who.g y.dye .lm ((y.bitmap.length + 63) / 64)).transport (.cluster c)
            (.core y.who.g) y.dye y.bitmap.length
        else s1
      let s3 := match s2.find y.who with
        | some p => s2.update y.who (p.keepStatus y.id w)
        | none => s2
      let s4 := s3.countRcvd y.who.g y.launch
      let x := s4.clusterAt c
      if cpRing y.x then
        let s5 := s4.mapCopy c y.id y.who fun z => { z with finished := some w }
        .next (s5.advanceRing c y.who.g (y.sbase + cpRingAt y.x) x.journal.length)
      else .next (s4.setCluster c { x with journal := x.journal.filter fun z => z.seq != y.seq })

/-- A copy restarted from the journal (10 R390). -/
def Copy.restart (c : Copy) : Copy :=
  if c.finished.isSome then c else { c with reads := [], got := [], asked := [], done := [], errs := [], fault := none }

/-! Waiting. -/

/-- CPWAIT (10 R388). -/
def execCpwait (a : Reg) (s : State) : Res :=
  s.withProc fun g k p =>
    if p.awaits [a] || p.acquiring then s.stall
    else
      let id := p.reg a
      if id = 0 ∨ p.cpn.toNat < id.toNat then .next (s.retire g k (p.setReg a 4))
      else if id.toNat + 16 ≤ p.cpn.toNat then .next (s.retire g k (p.setReg a 5))
      else match p.copies.find? fun x => x.1 == id.toNat with
        | some x => .next (s.retire g k (p.setReg a x.2))
        | none => s.stall

/-- RGWAIT (10 R394). -/
def execRgwait (a b : Reg) (s : State) : Res :=
  s.withProc fun g k p =>
    if p.awaits [a, oddOf a, b] || p.acquiring then s.stall
    else
      let ra := p.reg b
      match s.ringAt g p ra with
      | .held => s.stall
      | .bad c read => .next ((s.payReads g p (cpgoReads [] read)).trap g k p c ra)
      | .ok r =>
        if r.rp = r.ip then .next ((s.payReads g p 1).retire g k (p.setPair a 0 6 false))
        else if r.wp ≤ r.rp then s.stall
        else if s.localHeld g (Span.ofLen (p.phys ra + 64) (8 * r.ns)) Span.none then s.stall
        else
          let i := r.rp % r.ns
          .next ((s.payReads g p 2).retire g k (p.setPair a (BitVec.ofNat 64 (r.base + i * r.ssz)) (s.ringStat g p ra i) false))

/-- RGREL (10 R395). -/
def execRgrel (a b : Reg) (s : State) : Res :=
  s.withProc fun g k p =>
    if p.awaits [a, b] || p.acquiring then s.stall
    else
      let ra := p.reg b
      match s.ringAt g p ra with
      | .held => s.stall
      | .bad c read => .next ((s.payReads g p (cpgoReads [] read)).trap g k p c ra)
      | .ok r =>
        if r.wp ≤ r.rp then .next ((s.payReads g p 1).retire g k (p.setReg a (-1)))
        else if s.localHeld g Span.none (Span.ofLen (p.phys ra + 32) 8) then s.stall
        else
          let s1 := s.lmWrite g (p.phys ra + 32) (natBytes 8 (r.rp + 1))
          .next ((s1.payReads g p 2).retire g k (p.setReg a (BitVec.ofNat 64 (r.rp + 1))))

/-- SCRUB (10 R396): one request for each 128-byte line, all of one outstanding operation. -/
def execScrub (a b c : Reg) (s : State) : Res :=
  s.withProc fun g k p =>
    if p.awaits [a, oddOf a, b, c] || p.acquiring then s.stall
    else
      let base := p.reg b
      let len := (p.reg c).toNat
      if len = 0 ∨ 8192 < len then .next (s.trap g k p .bounds base)
      else if base.toNat % 128 ≠ 0 ∨ len % 128 ≠ 0 then .next (s.trap g k p .align base)
      else match s.rangeCheck p.part rightW base len with
        | some e => .next (s.trap g k p e base)
        | none =>
          if decide (maxOuts ≤ p.outs.length) || (List.range (len / 128)).any (fun i => s.walkWaits p.part (clusterOf g) (base.toNat + 128 * i)) then s.stall
          else
            let f := s.fresh
            let cl := clusterOf g
            let out : Out := { oid := f.1, seq := p.seq, pc := p.pc, ea := base, len := len, dest := .scrub a (len / 128) 0 0 0
                               acquire := false }
            let s1 := f.2.retire g k { p with outs := p.outs ++ [out], seq := p.seq + 1 }
            .next ((List.range (len / 128)).foldl (fun st i =>
              let t := st.translate p.part cl p.dye (base.toNat + 128 * i)
              match t.1 with
              | .error e => t.2.post (.cluster cl) (.core g) (.err (st.request g k p f.1 (.lm g 0) 128 (.scrub i)) e)
              | .ok l =>
                let r := st.request g k p f.1 l 128 (.scrub i)
                match (if l.isFar then st.farCheck p.part (base.toNat + 128 * i) 128 1 else none) with
                | some e => t.2.post .egress (.core g) (.err r e)
                | none => (t.2.carry g l.node p.dye 0).post (.core g) l.node (.req r)) s1)

end Sys2Proof.Machine
end

