-- ==== Sys2Proof/Machine/Procs.lean ====
section
/-! DEFINITION. Creating and ending processes, priority, time, barriers, energy and system values (08 R307-R319, 01 R58-R63), and the steps of
the scheduler (01 R20-R25, R44, R47-R49). -/

namespace Sys2Proof.Machine

/-! Creating and ending processes. -/

/-- A free slot of a core, the lowest-numbered (log entry 24). -/
def Core.freeSlot (c : Core) : Option Nat := (List.range Config.numSlots).find? fun k => !c.holdsProc k

/-- The workspace and the staging set of a slot are written for a new process (01 R54, R55, 14 R443). -/
def Core.touchSlot (c : Core) (k : Nat) : Core := (c.touch (frameAt k) 256).touch (0x5A000 + 104 * k) 104

/-- The segment a SPAWN gives its child, as base and length (08 R307, R308), or the cause of its trap. -/
def Proc.childSegment (p : Proc) (sd : Word) : Except Cause (Nat × Nat) :=
  if sd = 0 then .ok (0, p.segLen)
  else
    let base := bitsOf sd.toNat 31 0
    let len := bitsOf sd.toNat 63 32
    if base % 64 ≠ 0 ∨ len % 64 ≠ 0 ∨ len = 0 then .error .align
    else if p.segLen < base + len then .error .segment
    else .ok (base, len)

/-- The child that SPAWN creates (08 R308): in slot j with exit endpoint x. -/
def Proc.child (p : Proc) (arg ent : Word) (base len : Nat) (pri : BitVec 2) (x j : Nat) : Proc :=
  let pc := (ent - BitVec.ofNat 64 base).setWidth 52
  { Proc.zero with
    regs := Proc.zero.regs.set 0 arg
    pc := pc
    lastPc := pc
    pri := pri
    pceil := p.pceil
    dye := p.dye
    vseen := p.vseen
    repl := p.repl
    xidx := BitVec.ofNat 8 x
    xv := true
    sb := BitVec.ofNat 19 (p.sb.toNat + base)
    sl := BitVec.ofNat 19 (p.sb.toNat + base + len)
    stg := BitVec.ofNat 6 j
    stw := p.stw
    mode := p.stw
    lid := p.lid
    netH := p.netH }

/-- An exit endpoint for the child in slot j (08 R309). -/
def Endp.exitFor (x : Endp) (owner j part : Nat) : Endp :=
  { Endp.zero with
    st := .buffered, ek := 0, esz := 7, mode := true, owner := owner, acc := 1#16 <<< part, gen := x.gen, exit := true
    child := some j }

/-- SPAWN (08 R307, R308). -/
def execSpawn (a b c : Reg) (pri : BitVec 2) (s : State) : Res :=
  s.withProc fun g k p =>
    if p.awaits [a, b, c] || p.acquiring then s.stall
    else
      let ent := p.reg b
      if pri < p.pceil then .next (s.trap g k p .rights 0)
      else if ent.extractLsb' 52 12 != 0 then .next (s.trap g k p .segment ent)
      else match p.childSegment (p.reg c) with
        | .error e => .next (s.trap g k p e (BitVec.ofNat 64 (bitsOf (p.reg c).toNat 31 0)))
        | .ok (base, len) =>
          let cr := s.coreAt g
          match cr.freeSlot, cr.freeEp with
          | some j, some x =>
            let s1 := s.setEp g x ((s.epAt g x).exitFor k j p.part)
            let s2 := s1.setCore g ((((s1.coreAt g).touchSlot j).setProc j (p.child (p.reg a) ent base len pri x j)).enqueueTail j)
            .next (s2.retire g k (p.setReg a (BitVec.ofNat 64 x)))
          | _, _ => .next (s.retire g k (p.setReg a (-1)))

/-- Endpoints that slot k of core g owns. -/
def Core.owned (c : Core) (k : Nat) : List Nat :=
  (c.eps.filter fun e => e.2.st != .closed && e.2.st != .forwarding && e.2.owner == k).map (·.1)

/-- A process's transaction abandoned, holds dropped, tile unit released and endpoints closed, as STOP and KILL do (08 R310, 13 R421). -/
def State.windUp (s : State) (g k : Nat) (p : Proc) : State × Proc :=
  let a := (s.cancelWait p).abandon p
  let d := a.1.dropHold a.2
  let s1 := d.1.releaseTile g k
  (((s1.coreAt g).owned k).foldl (fun st e => st.closeEp g e) s1, d.2)

/-- The exit word, or a killed child's failed void delivery, of a process created by SPAWN (08 R309, R310): posted to its exit endpoint;
once that is closed it is discarded, counted as a closed reply, and the slot is reclaimed. -/
def State.exitItem (s : State) (g k : Nat) (p : Proc) (failed : Bool) : State :=
  if !p.xv then s
  else
    let e := p.xidx.toNat
    let x := s.epAt g e
    let s1 := s.countSent g p.launch 1
    if x.exit && x.child == some k then
      let f := s1.fresh
      let h : Hdr := { hid := f.1, from_ := .exit (s.pref g k), part := p.part, dye := p.dye, gen := x.gen, ek := 0, len := 8
                       bytes := wordBytes 8 (p.reg 0), tag := false, failed := failed, launch := p.launch }
      f.2.post (.core g) (.core g) (.header e h)
    else (s1.countRcvd g p.launch).reclaimStopped g k

/-- An operation of the process's vector, tile or copy engines is incomplete (08 R310, 01 R65). -/
def State.engineBusy (s : State) (who : PRef) : Bool :=
  s.tilePending who ||
    (s.clusterAt (clusterOf who.g)).journal.any fun c => c.who == who && c.finished.isNone

/-- STOP (08 R310). -/
def execStop (s : State) : Res :=
  s.withProc fun g k p =>
    if s.heldBack g p || !p.outs.isEmpty || (p.stores.any fun x => x.kind == .direct || x.kind == .reduction) ||
        s.engineBusy (s.pref g k) || ((s.coreAt g).owned k).any fun e => (s.epAt g e).busy then s.stall
    else
      let w := s.windUp g k p
      let s1 := w.1.retire g k w.2
      let c := s1.coreAt g
      let q := { c.procAt k with state := .stopped }
      .next (((s1.setCore g (c.unrun.setProc k q)).exitItem g k q false).dispatch g)

/-! Priority and time. -/

/-- YIELD (08 R311). -/
def execYield (s : State) : Res :=
  s.withProc fun g k p =>
    let s1 := s.retire g k p
    .next (s1.yieldAs g k (s1.procAt g k))

/-- A process with a priority lower in number is ready. -/
def Core.readyBelow (c : Core) (p : BitVec 2) : Bool := (List.range p.toNat).any fun i => (c.firstReady (c.rq (BitVec.ofNat 2 i))).isSome

/-- SETPRI (08 R312). -/
def execSetpri (a : Reg) (s : State) : Res :=
  s.withProc fun g k p =>
    if p.awaits [a] then s.stall
    else
      let v := p.reg a
      if 3 < v.toNat then .next (s.trap g k p .bounds 0)
      else if v.setWidth 2 < p.pceil then .next (s.trap g k p .rights 0)
      else
        let s1 := s.retire g k { p with pri := v.setWidth 2 }
        if (s.coreAt g).readyBelow (v.setWidth 2) then .next (s1.yieldAs g k (s1.procAt g k)) else .next s1

/-- TIME (08 R313). -/
def execTime (a : Reg) (s : State) : Res := s.scalar [a] fun p => p.setReg a s.time

/-- TWAIT (08 R314). -/
def execTwait (a : Reg) (s : State) : Res :=
  s.withProc fun g k p =>
    if p.awaits [a] then s.stall
    else
      let dl := p.reg a
      let s1 := s.retire g k p
      if dl ≤ s.time then .next s1
      else .next (s1.block g k { s1.procAt g k with deadline := dl } .timer (.timer p.pc))

/-! Barriers (01 R58-R62). -/

/-- A barrier of a launch by scope and unit. -/
def Launch.barrier (l : Launch) (f : Barrier → Bool) : Option Barrier := l.bars.find? f

/-- The barrier at a scope that a process is a member of. -/
def State.barrierOf (s : State) (who : PRef) (l : LRef) (sc : Nat) : Option Barrier :=
  match s.launches.find? fun x => x.ref == l with
  | some x => x.barrier fun b => b.sc == sc && b.members.contains who
  | none => none

/-- The barriers of a launch changed. -/
def State.mapBars (s : State) (l : LRef) (f : Barrier → Barrier) : State :=
  { s with launches := s.launches.map fun (x : Launch) => if x.ref == l then { x with bars := x.bars.map f } else x }

/-- The process arrives at scope sc (01 R59, R61): the arrival is on its way to the barrier network. -/
def State.arriveBar (s : State) (g k : Nat) (p : Proc) (sc : Nat) : State × Proc :=
  let who := s.pref g k
  let phase := match s.barrierOf who p.launch sc with | some b => b.phase | none => 0
  (s.mapBars p.launch fun b => if b.sc == sc && b.members.contains who then { b with pending := b.pending ++ [who] } else b,
    { p with ap := true, aps := BitVec.ofNat 3 sc, arrPhase := phase })

/-- The phase of the process's outstanding arrival has been released (08 R316). -/
def State.barReleased (s : State) (g k : Nat) (p : Proc) : Bool :=
  match s.barrierOf (s.pref g k) p.launch p.aps.toNat with
  | some b => decide (p.arrPhase < b.phase)
  | none => false

/-- The wait half of BARW and BARX (08 R316). -/
def State.waitBar (s : State) (g k : Nat) (p : Proc) (a : Reg) (sc : Nat) (dl : Word) : State :=
  if !p.ap || p.aps.toNat ≠ sc then s.retire g k (p.setReg a 4)
  else if s.barReleased g k p then s.retire g k ({ p with ap := false }.setReg a 0)
  else if dl ≤ s.time then s.retire g k (p.setReg a 1)
  else
    let s1 := s.retire g k p
    s1.block g k { s1.procAt g k with deadline := dl } .barrier (.barrier p.pc a sc)

/-- BARA (08 R316). -/
def execBara (sc : BitVec 3) (s : State) : Res :=
  s.withProc fun g k p =>
    if p.acquiring then s.stall
    else if !p.bars.getLsbD sc.toNat then .next (s.trap g k p .rights 0)
    else if p.ap then .next (s.retire g k p)
    else if s.heldBack g p then s.stall
    else
      let r := s.arriveBar g k p sc.toNat
      .next (r.1.retire g k r.2)

/-- BARW (08 R316). -/
def execBarw (a : Reg) (t : Bool) (b : Reg) (sc : BitVec 3) (s : State) : Res :=
  s.withProc fun g k p =>
    if p.awaits (if t then [a, b] else [a]) || p.acquiring then s.stall
    else if !p.bars.getLsbD sc.toNat then .next (s.trap g k p .rights 0)
    else .next (s.waitBar g k p a sc.toNat (if t then p.reg b else Config.never))

/-- BARX (08 R316). -/
def execBarx (a : Reg) (t : Bool) (b : Reg) (sc : BitVec 3) (s : State) : Res :=
  s.withProc fun g k p =>
    if p.awaits (if t then [a, b] else [a]) || p.acquiring then s.stall
    else if !p.bars.getLsbD sc.toNat then .next (s.trap g k p .rights 0)
    else
      let dl := if t then p.reg b else Config.never
      if p.ap then .next (s.waitBar g k p a sc.toNat dl)
      else if s.heldBack g p then s.stall
      else
        let r := s.arriveBar g k p sc.toNat
        .next (r.1.waitBar g k r.2 a sc.toNat dl)

/-! Energy and system values. -/

/-- RDEN (08 R318): the Madder controller's total, every charge so far included (15 R482), by a message each way (15 R538). A sum over accounts is rounded down once (DESIGN CHOICE, log
entry 74). -/
def execRden (a b : Reg) (f : Bool) (s : State) : Res :=
  s.withProc fun g k p =>
    if p.awaits [a, b] then s.stall
    else
      let d := p.reg b
      if d.extractLsb' 16 48 != 0 then .next (s.trap g k p .bounds 0)
      else if bitsOf d.toNat 15 12 ≠ p.part then .next (s.trap g k p .rights 0)
      else
        let e := if f then s.madder.partTotal p.part else s.madder.total (bitsOf d.toNat 15 0)
        .next (((s.retire g k (p.setReg a (BitVec.ofNat 64 (e / 256)))).carry g .tss p.dye 0).transport .tss (.core g) p.dye 8)

/-- The system value of a code (01 R63, 08 R319). -/
def State.sysValue (s : State) (g : Nat) (p : Proc) (f : BitVec 8) : Word :=
  match f.toNat with
  | 0 => BitVec.ofNat 64 g
  | 1 => BitVec.ofNat 64 (meshX g)
  | 2 => BitVec.ofNat 64 (meshY g)
  | 3 => BitVec.ofNat 64 (quadOf g)
  | 4 => BitVec.ofNat 64 (clusterOf g)
  | 5 => BitVec.ofNat 64 (dieOf g)
  | 6 => s.bring.pkgid.setWidth 64
  | 7 => BitVec.ofNat 64 p.part
  | 8 => p.dye.setWidth 64
  | 9 => p.pri.setWidth 64
  | _ => p.repl.setWidth 64

/-- RDSV (08 R319). -/
def execRdsv (a : Reg) (f : BitVec 8) (s : State) : Res :=
  s.withProc fun g k p =>
    if p.awaits [a] then s.stall else .next (s.retire g k (p.setReg a (s.sysValue g p f)))

/-! The scheduler's own steps. -/

/-- The prefetched line comes into the other slot of core g's fetch buffer once its three cycles have passed (05 R194). -/
def State.prefetched (s : State) (g : Nat) : State :=
  let c := s.coreAt g
  match c.run, c.fb.prefetch with
  | some k, some (la, due) =>
    if due ≤ s.cycle then
      let p := c.procAt k
      s.setCore g { c with fb := { c.fb with other := some (la, c.lmRead (p.sb.toNat + la) 64), prefetch := none } }
    else s
  | _, _ => s

/-- LINE_PREFETCH (05 R194). -/
def execLinePrefetch (g : Nat) (s : State) : Res := .next (s.prefetched g)

/-- The process as it leaves the core (01 R48): an instruction that is stalled at issue executes afresh when the process is dispatched again, whatever it
waited for; a TXC or PUB past its point of no return goes on (07 R278, R280), and so does a vector instruction, though VBCAST reads its element again
(09 R346). -/
def Proc.afresh (p : Proc) : Proc :=
  match p.wait with
  | .txc _ => p
  | .pub _ _ => p
  | .vec pc id r w _ => { p with wait := .vec pc id r w none }
  | _ => { p with wait := .none }

/-- The running process has used its slice and goes to the tail of its queue (01 R21); none when nothing of the kind is due. -/
def State.sliceOver (s : State) (g : Nat) : Option State :=
  let c := s.coreAt g
  match c.run with
  | some k => if Config.slice ≤ c.sliceCnt then some ((s.cancelWait (c.procAt k)).yieldAs g k (c.procAt k).afresh) else none
  | none => none

/-- A ready process of priority 0 pre-empts the running one, which goes to the head of its queue and keeps its remaining slice (01 R21,
R48); none when nothing of the kind is due. -/
def State.preempted (s : State) (g : Nat) : Option State :=
  let c := s.coreAt g
  match c.run with
  | some k =>
    let p := c.procAt k
    if p.pri = 0 || !c.readyBelow 1 then none
    else some (((s.cancelWait p).setCore g ((c.unrun.setProc k { p.afresh with slice := c.sliceCnt }).enqueueHead k)).dispatch g)
  | none => none

/-- What acts on the running process of core g at this boundary before any pre-emption (01 R23): a reply's trap, a deferred fault that it may
take, or a hold of its partition. -/
def State.actedOn (s : State) (g : Nat) : Bool :=
  match (s.coreAt g).run with
  | none => false
  | some k =>
    let p := s.procAt g k
    (match p.blk with | .replyTrap _ _ => true | _ => false) || (!p.committed && (p.oldestFault.isSome || s.mustPark p))

/-- PRIORITY_0_PREEMPTION (01 R48), after what comes before it at the same boundary (R23). -/
def execPriority0Preemption (g : Nat) (s : State) : Res := .next (if s.actedOn g then s else (s.preempted g).getD s)

/-- SLICE_END (01 R21): after 4,096 cycles the running process goes to the tail of its queue, unless another event acts on it at this boundary (R23). -/
def execSliceEnd (g : Nat) (s : State) : Res :=
  .next (if s.actedOn g || (s.preempted g).isSome then s else (s.sliceOver g).getD s)

/-- ELEMENT_GROUP (09 R333): the running process of core g, at a vector head that it has entered, performs one element group, unless an event acts on it
at this boundary (01 R23). -/
def execElementGroup (g : Nat) (s : State) : Res :=
  let c := s.coreAt g
  match c.run with
  | none => .next s
  | some k =>
    let p := c.procAt k
    if s.actedOn g || (s.preempted g).isSome || (s.sliceOver g).isSome then .next s
    else match c.fb.entered, decodeLine (c.curLine p) (headOf p.pc) with
    | true, .ok i =>
      match vecOf i with
      | some (v, o) => s.vector g k p v o (some 1)
      | none => .next s
    | _, _ => .next s

/-- A blocked process whose deadline has passed (01 R44, 08 R303, R316): a receive with a granted transfer waits for its data (01 R37). -/
def State.expire (s : State) (g k : Nat) : State :=
  let p := s.procAt g k
  if p.pkh || p.pkt || !decide (p.deadline ≤ s.time) || p.deadline == Config.never then s
  else match p.state, p.blk with
    | .chan, .recv _ e _ _ c _ _ =>
      let x := s.epAt g e
      if x.grant.isSome then s
      else
        let s1 := if x.st = .waitr then s.setEp g e { x with st := .empty } else s
        s1.wakeWith g k { p with blk := .none } c 1
    | .chan, .alt _ gs => s.wakeAlt g k gs
    | .timer, .timer _ => s.wake g k { p with blk := .none }
    | .barrier, .barrier _ a _ => s.wakeWith g k { p with blk := .none } a 1
    | _, _ => s

/-- DEADLINE_COMPARISON (01 R44). -/
def execDeadlineComparison (g : Nat) (s : State) : Res :=
  .next (((s.coreAt g).procs.map (·.1)).foldl (fun st k => st.expire g k) s)

/-- BARRIER_ARRIVAL (01 R59, 08 R317): an arrival reaches its network. -/
def execBarrierArrival (g slot : Nat) (s : State) : Res :=
  let who := s.pref g slot
  let l := (s.procAt g slot).launch
  .next (s.mapBars l fun b =>
    if b.pending.contains who then { b with pending := b.pending.filter (· != who), arrived := b.arrived ++ [who] } else b)

/-- A release reaches a member's core, whose spill ring catches it while the partition is held (01 R71, 08 R293); a full ring returns it (14 R453). -/
def State.releaseTo (s : State) (sc phase : Nat) (r : PRef) : State :=
  if s.spills r.g then
    let m : Msg := { src := .core r.g, dst := .core r.g, body := .release r sc phase }
    s.catchSpill s r.g m
  else s.wakeMember sc phase r

/-- BARRIER_RELEASE (01 R59, 08 R316): every member has arrived, the release begins the next phase. -/
def execBarrierRelease (part lid sc unit : Nat) (s : State) : Res :=
  let l : LRef := { fn := part, lid := lid }
  match s.launches.find? fun x => x.ref == l with
  | none => .next s
  | some x =>
    match x.barrier fun b => b.sc == sc && b.unit == unit with
    | none => .next s
    | some b =>
      if b.members.isEmpty || !b.members.all fun m => b.arrived.contains m then .next s
      else
        let s1 := s.mapBars l fun y => if y.sc == sc && y.unit == unit then { y with phase := y.phase + 1, arrived := [] } else y
        .next (b.members.foldl (fun st m => st.releaseTo sc b.phase m) s1)

end Sys2Proof.Machine
end

