-- ==== Sys2Proof/Machine/Hold.lean ====
section
/-! DEFINITION. Ending a process from outside (13 R421, 01 R62), and holds: parking (01 R69, 14 R450), settling, core images (14 R451, R452),
resuming (14 R454). -/

namespace Sys2Proof.Machine

/-! Killing and resuming one process (13 R421). -/

/-- A process removed from the barriers of its launch (01 R62): its arrival in the current phase needs no counting, for no remaining member
waits for it. -/
def State.dropMember (s : State) (l : LRef) (who : PRef) : State :=
  s.mapBars l fun b => { b with
    members := b.members.filter (· != who), arrived := b.arrived.filter (· != who), pending := b.pending.filter (· != who) }

/-- The process as KILL leaves it (13 R421). -/
def Proc.killed (p : Proc) : Proc :=
  { p with state := .stopped, pkt := false, pkh := false, wait := .none, blk := .none, deadline := Config.never, outs := [], faults := [] }

/-- KILL's effect on a parked process (13 R421): its copies and writes go on. -/
def State.killAt (s : State) (g k : Nat) : State :=
  let p := s.procAt g k
  let who := s.pref g k
  let s1 := s.setCore g (((s.coreAt g).dequeue k).setProc k p.killed)
  let w := s1.windUp g k p.killed
  let s2 := (w.1.setProc g k w.2).dropMember p.launch who
  s2.exitItem g k w.2 true

/-- RESUME's effect on a trap-parked process (13 R421): ready at the tail, though a hold may still keep it from being dispatched. -/
def State.resumeAt (s : State) (g k : Nat) : State :=
  let c := s.coreAt g
  s.setCore g ((c.setProc k { c.procAt k with pkt := false }).enqueueTail k)

/-- A PREF from a word (13 R410). -/
def prefOf (w : Word) : PRef := { g := bitsOf w.toNat 9 0, slot := bitsOf w.toNat 15 10, gen := w.extractLsb' 16 16 }

/-! Parking (01 R69, 14 R450). -/

/-- A process parked by a hold at its boundary (01 R21, R69): the state it leaves is remembered (R20); an
instruction that waits executes afresh. -/
def State.parkOne (s : State) (g k : Nat) : State :=
  let p := s.procAt g k
  if p.state = .stopped || p.pkh || p.committed then s
  else
    let s1 := s.cancelWait p
    let c := s1.coreAt g
    let q : Proc := { c.procAt k with pkh := true, wait := .none }
    s1.setCore g ((if c.run = some k then c.unrun else c).setProc k q)

/-- Core g's processes parked: all, or those that are no stewards. -/
def State.parkCore (s : State) (g : Nat) (all : Bool) : State :=
  ((s.coreAt g).procs.map (·.1)).foldl (fun st k => if all || !(st.procAt g k).stw then st.parkOne g k else st) s

/-- The processes of a partition parked, as its hold asks. -/
def State.parkPart (s : State) (part : Nat) : State :=
  let x := s.partAt part
  (s.partCores part).foldl (fun st g => st.parkCore g x.full) s

/-- HOLD[7:4] (14 R449). -/
def Part.causes (x : Part) : Nat :=
  (if x.chst then 1 else 0) + (if x.cqta then 2 else 0) + (if x.cqsc then 4 else 0) + (if x.cres then 8 else 0)

/-- A cause joins a partition's holds (14 R449, R450 steps 1, 2 and 4): sweeps are discarded (R446), processes park, untransferred copy
transfers are discarded (10 R390). -/
def State.startHold (s : State) (part : Nat) (f : Part → Part) : State :=
  let x := s.partAt part
  let y := f x
  let z : Part := { y with
    stopping := true
    full := x.full || y.fullHold
    heldFor := (if x.stopping then x.heldFor else 0) ||| BitVec.ofNat 4 y.causes
    heldSince := if x.stopping then x.heldSince else s.time.toNat }
  let s1 : State := { s.setPart part z with launches := s.launches.map fun (l : Launch) =>
    if l.ref.fn == part then { l with sweep := none, agree := 0, wasHeld := true } else l }
  let s2 := s1.parkPart part
  let again (c : Copy) : Bool := c.part == part && (z.full || match s2.find c.who with | some p => !p.stw | none => true)
  { s2 with clusters := s2.clusters.map fun e =>
      (e.1, { e.2 with journal := e.2.journal.map fun (c : Copy) => if again c then c.restart else c }) }

/-! Settling (14 R450 steps 3 and 4). -/

/-- Process k of core g has stopped, its loads and its tile commands have returned, its queued writes have drained. -/
def State.procSettled (s : State) (g k : Nat) : Bool :=
  let p := s.procAt g k
  let who := s.pref g k
  (p.state == .stopped || p.pkh) && p.outs.isEmpty && !s.tilePending who &&
    ((s.coreAt g).owned k).all (fun e => (s.epAt g e).grant.isNone) && !s.ownQueued who

/-- What a write queue still holds for a partition's hold: entries of its processes, those whose slots have been reclaimed with them. -/
def State.stillQueued (s : State) (part : Nat) (all : Bool) (q : List WqE) : Bool :=
  q.any fun e => e.part == part && (all || match s.find e.who with | some p => !p.stw | none => true)

/-- The hold of a partition has settled (14 R450 steps 3 and 4): for every process, or for those that are no stewards; the queues have drained. -/
def State.holdSettled (s : State) (part : Nat) (all : Bool) : Bool :=
  ((s.partCores part).all fun g => (s.coreAt g).procs.all fun e => (!all && e.2.stw) || s.procSettled g e.1) &&
    !(s.clusters.any fun e => s.stillQueued part all e.2.wq) && !s.stillQueued part all s.egress

/-! Images (14 R443, R444, R451, R452). -/

/-- STATE of a channel table entry (14 R444). -/
def EpState.code : EpState → Nat
  | .closed => 0 | .empty => 1 | .waitr => 2 | .guard => 3 | .pend => 4 | .xfer => 5 | .buffered => 6 | .forwarding => 7

/-- Slots filled and slots reserved (01 R38). -/
def Endp.filledReserved (x : Endp) : Nat × Nat := ((x.slots.filter (·.filled)).length, (x.slots.filter fun y => !y.filled).length)

/-- Endpoint e's channel table entry (14 R444); a header's place in the header store is open (`hq`). -/
def Endp.image (x : Endp) (hq : List Byte) : List Byte :=
  let f := x.filledReserved
  let bad := match x.slots with | y :: _ => x.exit && y.failed | [] => false
  natBytes 1 x.st.code ++ natBytes 1 (x.ek.toNat + (if x.mode then 4 else 0) + (if x.exit then 8 else 0) + (if bad then 16 else 0)) ++
    natBytes 2 x.esz.toNat ++ natBytes 1 x.depth.toNat ++ natBytes 1 x.owner ++ natBytes 2 x.acc.toNat ++ natBytes 4 x.gen.toNat ++
    natBytes 4 x.ring.toNat ++ natBytes 1 f.1 ++ natBytes 1 f.2 ++ natBytes 1 x.hs ++ natBytes 1 0 ++
    (if x.hq.isEmpty then natBytes 4 0xFFFFFFFF else hq) ++
    natBytes 8 (if x.st = .forwarding then x.fwd.1 + 1024 * x.fwd.2 else if x.exit then x.xword.toNat else 0)

/-- One ready queue of the control block (14 R444): HEAD, TAIL, COUNT, and a zero byte. -/
def queueImage (q : List Nat) : List Byte :=
  natBytes 1 (q.headD 0) ++ natBytes 1 (q.getLastD 0) ++ natBytes 1 q.length ++ natBytes 1 0

/-- Members and arrivals of a scope on core g (14 R444): the phase's low bit, arrivals this phase, members. -/
def State.scopeImage (s : State) (g sc : Nat) : Nat × Nat × Nat :=
  let bs := (s.launches.flatMap (·.bars)).filter fun b => b.sc == sc && b.members.any fun m => m.g == g
  let ph := match bs with | b :: _ => b.phase % 2 | [] => 0
  (ph, (bs.flatMap fun b => (b.arrived ++ b.pending).filter fun m => m.g == g).length, (bs.flatMap fun b => b.members.filter fun m => m.g == g).length)

/-- The scheduler control block of core g (14 R444). -/
def State.controlImage (s : State) (g : Nat) : List Byte :=
  let c := s.coreAt g
  let free := ((List.range Config.numSlots).filter fun k => !c.holdsProc k).foldl (fun a k => a + 2 ^ k) 0
  let sc := (List.range 5).map (s.scopeImage g)
  queueImage c.rq0 ++ queueImage c.rq1 ++ queueImage c.rq2 ++ queueImage c.rq3 ++ natBytes 1 (c.run.getD 0xFF) ++ natBytes 3 0 ++
    natBytes 4 c.sliceCnt ++ natBytes 8 free ++ natBytes 8 (c.lid.toNat + 65536 * c.netH.toNat) ++
    (sc.map fun x => BitVec.ofNat 8 (x.1 * 128 + x.2.1)) ++ natBytes 3 0 ++ (sc.map fun x => BitVec.ofNat 8 x.2.2) ++ natBytes 3 0

/-- The PSB, the first half of a frame (01 R13, 13 R409). -/
def Proc.psbImage (p : Proc) : List Byte := (List.range 16).flatMap fun k => wordBytes 8 (p.psb k)

/-- The dirty bitmap (14 R443). -/
def Core.dirtyImage (c : Core) : List Byte := natBytes 768 (c.lmDirty.foldl (fun a l => a + 2 ^ l) 0)

/-- A structure of the system area: its place, its bytes, whether the hold itself has written it, and the dye its write-back is charged to. -/
structure SysPiece where
  off : Nat
  bytes : List Byte
  written : Bool
  dye : BitVec 16
  deriving DecidableEq, Repr

/-- The structures of core g's system area but for the workspaces and the dirty bitmap (14 R443, R444). The hold has written the PSBs, where it parks the
processes, and the control block (log entry 63). -/
def State.systemImage (s : State) (part g n : Nat) : List SysPiece :=
  let c := s.coreAt g
  let zero : BitVec 16 := BitVec.ofNat 16 (4096 * part)
  let of (k : Nat) : BitVec 16 := match c.procs.find? fun e => e.2.stg.toNat == k with | some e => e.2.dye | none => zero
  let staging (k : Nat) : List Byte :=
    match c.procs.find? fun e => e.2.stg.toNat == k with
    | some e => e.2.staging.toList.flatMap fun w => wordBytes 8 w
    | none => List.replicate 104 0
  ((List.range Config.numEndpoints).map fun e =>
      { off := 0x58000 + 32 * e, bytes := (c.epAt e).image ((List.range 4).map fun i => Config.imageByte g n (0x58014 + 32 * e + i)), written := false
        dye := zero }) ++
    ((List.range Config.numSlots).map fun k => { off := 0x5A000 + 104 * k, bytes := staging k, written := false, dye := of k }) ++
    [{ off := 0x5BD00, bytes := s.controlImage g, written := true, dye := zero },
      { off := 0x5BE00
        bytes := (List.range Config.numSlots).flatMap fun k => if c.holdsProc k then wordBytes 8 (c.procAt k).deadline else wordBytes 8 Config.never
        written := false, dye := zero }] ++
    (c.procs.map fun e => { off := frameAt e.1, bytes := e.2.psbImage, written := true, dye := e.2.dye })

/-- Bytes of a structure in LM, 64-byte line by line, with the lines written: each that the hold has written, and else those that hold other bytes; a line
that an instruction or an engine has written is dirty since then (log entry 63). -/
def Core.syncBytes (c : Core) (written : Bool) : Nat → Nat → List Byte → Core × Nat
  | 0, _, _ => (c, 0)
  | fuel + 1, off, bytes =>
    if bytes.isEmpty then (c, 0)
    else
      let n := min bytes.length (64 - off % 64)
      let same := !written && c.lmRead off n == bytes.take n
      let r := (if same then c else c.lmWrite off (bytes.take n)).syncBytes written fuel (off + n) (bytes.drop n)
      (r.1, r.2 + if same then 0 else 1)

/-- A structure of core g written back to LM, at its dye's charge (14 R451, R456). -/
def State.syncPiece (s : State) (g : Nat) (x : SysPiece) : State :=
  let r := (s.coreAt g).syncBytes x.written (x.bytes.length + 1) x.off x.bytes
  if r.2 = 0 then s else (s.setCore g r.1).charge g x.dye .lm r.2

/-- A process's live registers and tags in its workspace, at its dye's charge: those of the register cache are written back, another's stand there since
its eviction but for what has come for it since (01 R17, R24, 14 R451, R456). -/
def State.syncRegs (s : State) (g k : Nat) : State :=
  let c := s.coreAt g
  let d := c.writeBack k
  if c.cached.contains k then (s.setCore g d).charge g (c.procAt k).dye .lm 2
  else if d.lm ≠ c.lm ∨ d.lmTags ≠ c.lmTags then s.setCore g d else s

/-- Core g before it writes its image: live registers in their workspaces, and every structure of the system area in LM, the dirty bitmap last
(14 R443, R451). -/
def State.syncCore (s : State) (part g n : Nat) : State :=
  let s1 := ((s.coreAt g).procs.map (·.1)).foldl (fun st k => st.syncRegs g k) s
  let s2 := (s.systemImage part g n).foldl (fun st x => st.syncPiece g x) s1
  s2.syncPiece g { off := 0x5BA00, bytes := (s2.coreAt g).dirtyImage, written := true, dye := BitVec.ofNat 16 (4096 * part) }

/-- The slot whose frame or staging set a line of the system area holds; the first, where two staging sets meet (14 R443). -/
def Core.slotOfLine (c : Core) (l : Nat) : Option Nat :=
  let a := 64 * l
  if 0x5C000 ≤ a then some ((a - 0x5C000) / 256)
  else if 0x5A000 ≤ a ∧ a < 0x5BA00 then
    (c.procs.find? fun e => overlaps a 64 (0x5A000 + 104 * e.2.stg.toNat) 104).map (·.1)
  else none

/-- The dye that moving a line of core g's LM is charged to (14 R456): the process's whose segment, frame or staging set it holds, else the
partition's account 0. -/
def Core.lineDye (c : Core) (part l : Nat) : BitVec 16 :=
  let zero : BitVec 16 := BitVec.ofNat 16 (4096 * part)
  if 0x58000 ≤ 64 * l then
    match c.slotOfLine l with
    | some k => if c.holdsProc k then (c.procAt k).dye else zero
    | none => zero
  else
    match c.procs.find? fun e => decide (e.2.sb.toNat ≤ 64 * l) && decide (64 * l < e.2.sl.toNat) with
    | some e => e.2.dye
    | none => zero

/-- The dirty tile registers of a core as pieces of its image (14 R451, R452): T and scale arrays while a process owns the unit, accumulators. -/
def Tile.pieces (t : Tile) (own : BitVec 16) : List (Nat × List Byte × BitVec 16) :=
  (if t.owner.isNone then [] else
    ((List.range 8).filter fun i => t.dirty.getLsbD i).map (fun i => (0x60000 + 3072 * i, Mem.read (t.reg i) 0 3072, own)) ++
    ((List.range 8).filter fun i => t.dirty.getLsbD (8 + i)).map (fun i => (0x66000 + 192 * i, Mem.read (t.scale i) 0 192, own))) ++
  ((List.range 8).filter fun i => t.dirty.getLsbD (16 + i)).map (fun i => (0x66800 + 768 * i, Mem.read (t.acc i) 0 768, own))

/-- The pieces of core g's image, at the hold of count n: offset, bytes, dye (14 R452). -/
def State.coreImage (s : State) (part g n : Nat) : List (Nat × List Byte × BitVec 16) :=
  let c := s.coreAt g
  let t := c.tile
  let zero : BitVec 16 := BitVec.ofNat 16 (4096 * part)
  let own := match t.owner with | some k => (c.procAt k).dye | none => zero
  let owner := match t.owner with | some k => k + 1 | none => 0
  c.lmDirty.map (fun l => (64 * l, c.lmRead (64 * l) 64, c.lineDye part l)) ++ t.pieces own ++
    [(0x66600, ((List.range 8).flatMap fun i => wordBytes 8 (t.shape i)) ++ natBytes 8 owner, own),
      (0x68000, wordBytes 8 c.sent ++ wordBytes 8 c.rcvd ++ (List.range 4080).map fun i => Config.imageByte g n (0x68010 + i), zero),
      (0x69000, (List.range 4096).map fun i => Config.imageByte g n (0x69000 + i), zero),
      (0x6A000, (List.range 16384).map fun i => Config.imageByte g n (0x6A000 + i), zero)]

/-- Core g as a unit that writes its image, charged to a dye. -/
def imageUnit (part g : Nat) (dye : BitVec 16) : Unit_ := { node := .core g, kind := 4, part := part, cluster := clusterOf g, dye := dye }

/-- A piece of an image written by core g, line by line, its reads of LM and its transport charged (14 R456); a line without a translation is dropped, one
whose walk meets a prepared line waits (02 R110). -/
def State.imageWrite (s : State) (part g : Nat) (dye : BitVec 16) : Nat → Nat → List Byte → State
  | 0, _, _ => s
  | fuel + 1, dva, bytes =>
    if bytes.isEmpty then s
    else
      let n := min bytes.length (128 - dva % 128)
      let s1 := ((s.charge g dye .lm ((n + 63) / 64)).devLineOrKeep (imageUnit part g dye) dva (bytes.take n)).1
      s1.imageWrite part g dye fuel (dva + n) (bytes.drop n)

/-- Core g writes its image, the i-th of the partition, and the dirty bits of what it wrote are clear (14 R451, R452). -/
def State.writeImage (s : State) (part g i : Nat) : State :=
  let ctx := (s.fnAt part).ctxbase.toNat % 2 ^ 52 + 0x10000 + 0x80000 * i
  let n := (s.partAt part).holdCount
  let s0 := s.syncCore part g n
  let s1 := (s0.coreImage part g n).foldl (fun st x => st.imageWrite part g x.2.2 (x.2.1.length / 128 + 2) (ctx + x.1) x.2.1) s0
  let c := s1.coreAt g
  s1.setCore g { c with lmDirty := [], tile := { c.tile with dirty := if c.tile.owner.isNone then c.tile.dirty &&& 0xFFFF else 0 } }

/-- The HOLD register (14 R449); REQ is the host cause. -/
def Part.holdReg (x : Part) : Word :=
  BitVec.ofNat 64 (16 * x.causes + (if x.held then 2 else 0) + (if x.chst then 1 else 0))

/-- A RETIRE of one of the partition's quads is in progress (15 R476). -/
def State.retiring (s : State) (part : Nat) : Bool := match s.pcRetire with | some (_, p) => p == part | none => false

/-- Every core of a partition writes its image, and the header is written (14 R450 step 5, R452). -/
def State.writeImages (s : State) (part : Nat) : State :=
  let x := s.partAt part
  let n := x.holdCount + 1
  let s1 := s.setPart part { x with holdCount := n, imaged := true }
  let cores := s1.partCores part
  let head := natBytes 8 n ++ natBytes 8 x.heldFor.toNat ++ natBytes 8 cores.length
  let zero : BitVec 16 := BitVec.ofNat 16 (4096 * part)
  let s2 := (s1.devWrite (imageUnit part x.steward zero) 2 ((s1.fnAt part).ctxbase.toNat % 2 ^ 52) head).1
  cores.zipIdx.foldl (fun st e => st.writeImage part e.1 e.2) s2

/-- Writes of a partition's images are not yet performed: their walks meet prepared lines, their lines are prepared, or another package has still to answer. -/
def State.imagesOut (s : State) (part : Nat) : Bool :=
  (s.devHeld.any fun x => x.u.kind == 4 && x.u.part == part) || s.devOut (imageUnit part 0 0)

/-- HELD (14 R450 step 5): every core has stopped and settled, a retirement is through (15 R477); the images and the header are written, and when they
stand the bit is set and the host is notified. A hold whose causes have gone still completes (R455). -/
def execHeld (part : Nat) (s : State) : Res :=
  let x := s.partAt part
  if x.node = 0 || !x.full || x.held || x.resetting || s.retiring part || !s.holdSettled part true then .next s
  else
    let s1 := if x.imaged then s else s.writeImages part
    if s1.imagesOut part then .next s1
    else .next ((s1.setPart part { s1.partAt part with held := true, imaged := false }).msix part 1)

/-! Resuming (14 R454). -/

/-- Process k leaves the hold for its remembered state: ready at the tail if it was running (01 R21), unless a trap has parked it. -/
def Core.unparkOne (c : Core) (k : Nat) : Core :=
  let p := c.procAt k
  let d := c.setProc k { p with pkh := false }
  if p.pkh && !p.pkt && p.state == .running then d.enqueueTail k else d

/-- Core g's held processes leave the hold: all, or the stewards alone. -/
def State.unpark (s : State) (g : Nat) (all : Bool) : State :=
  let c := s.coreAt g
  s.setCore g (((c.procs.filter fun e => all || e.2.stw).map (·.1)).foldl Core.unparkOne c)

/-- The energy of bringing back what core g powered down (14 R454 step 1, R456): the workspaces of its register cache, each to its process,
the tile unit to its owner, else to account 0 as the header store, by 64-byte accesses to LM. -/
def State.chargeRestore (s : State) (part g : Nat) : State :=
  let c := s.coreAt g
  let s1 := c.cached.foldl (fun st k => st.charge g (c.procAt k).dye .lm 2) s
  let zero : BitVec 16 := BitVec.ofNat 16 (4096 * part)
  let s2 := s1.charge g (match c.tile.owner with | some k => (c.procAt k).dye | none => zero) .lm 504
  s2.charge g zero .lm 256

/-- Core g replays its spill ring in arrival order (14 R454 step 2). -/
def State.replay (s : State) (g : Nat) : State :=
  let mine (m : Msg) : Bool := m.dst == .core g
  let ms := s.spilled.filter mine
  ms.foldl (fun st m => st.handle g m.body) { s with spilled := s.spilled.filter fun m => !mine m }

/-- What the resume of a partition brings back on one core: the ring's messages, then the deadline comparison (14 R454 steps 2 and 4). -/
def State.resumeCore (s : State) (g : Nat) (all : Bool) : State :=
  let s1 := ((s.chargeRestore ((s.partOfCore g).getD 0) g).unpark g all).replay g
  ((s1.coreAt g).procs.map (·.1)).foldl (fun st k => st.expire g k) s1

/-- The cores of a partition whose quads are retired: their entries still forward (14 R442). -/
def State.retiredCores (s : State) (part : Nat) : List Nat :=
  (List.range Config.numCores).filter fun g => s.partHasCluster part (clusterOf g) && !s.quadLive (quadOf g)

/-- The partition may resume now: no cause holds its processes, and a full hold has come to HELD (14 R455). -/
def Part.mayResume (x : Part) : Bool := x.stopping && !x.fullHold && (if x.full then x.held else !x.cqsc)

/-- PARTITION_RESUME (14 R454): with QUIESCE still in force only the stewards run again (13 R428, R449). The host is told when HELD clears (16
R495). -/
def execPartitionResume (part : Nat) (s : State) : Res :=
  let x := s.partAt part
  if !x.mayResume then .next s
  else
    let all := !x.cqsc
    let s1 := s.setPart part { x with stopping := x.cqsc, full := false, held := false }
    let cores := if all then s1.partCores part else (s1.partCores part).filter (· == x.steward)
    let s0 := cores.foldl (fun st g => st.resumeCore g all) s1
    let s2 := if all then (s0.retiredCores part).foldl State.replay s0 else s0
    let dt := s.time.toNat - x.heldSince
    let s3 : State := if all then
        { s2 with launches := s2.launches.map fun (l : Launch) =>
            if l.ref.fn == part then { l with agree := 0, sweep := none, theld := l.theld + dt } else l }
      else s2
    .next (if x.held then s3.msix part 1 else s3)

end Sys2Proof.Machine
end

