-- ==== Sys2Proof/Machine/Net.lean ====
section
/-! DEFINITION. Nets: the tables of a code object (05 R202-R204, 14 R433), placement (14 R440, R441), the launch checker (14 R436), and registration
(14 R430-R436). -/

namespace Sys2Proof.Machine

/-! Templates. -/

/-- Processes a template creates (01 R53). -/
def Tmpl.count (t : Tmpl) : Nat := t.n0 * t.n1 * t.n2

/-- The channel ends of a template, in declaration order (14 R433). -/
def Net.endsOf (n : Net) (t : Tmpl) : List EndD := (n.ends.drop t.eidx).take t.ecnt

/-- Channel c of a net. -/
def Net.chan (n : Net) (c : Nat) : ChanD := n.chans.getD c { ek := 0, mode := false, depth := 0, hint := 0, esz := 0 }

/-- Processes of the template that declares a channel's receive end (12 R403). -/
def Net.receivers (n : Net) (c : Nat) : Nat :=
  match n.tmpls.find? fun t => (n.endsOf t).any fun e => e.recv && e.chan == c with
  | some t => t.count
  | none => 0

/-- Granules an end occupies: a send end that holds a group handle has its members behind it (12 R403). -/
def Net.granules (n : Net) (e : EndD) : Nat :=
  let m := n.receivers e.chan
  if !e.recv && e.t && decide (2 ≤ m ∧ m ≤ 64) then 1 + m else 1

/-- E of a template: its granules (05 R204, 12 R403). -/
def Net.granuleCount (n : Net) (t : Tmpl) : Nat := ((n.endsOf t).map n.granules).sum

/-- Bytes of a buffered receive end's ring (01 R29, 05 R204); none for another end. -/
def Net.ringBytes (n : Net) (e : EndD) : Nat :=
  let c := n.chan e.chan
  if e.recv && c.mode then (c.depth.toNat + 1) * roundUp (c.esz.toNat + 1) 64 else 0

/-- Ring offsets of a template's ends, in declaration order, and the end of the last ring (05 R204). -/
def Net.rings (n : Net) (t : Tmpl) : List Nat × Nat :=
  (n.endsOf t).foldl (fun r e => (r.1 ++ [r.2], r.2 + n.ringBytes e)) ([], roundUp t.image.length 64)

/-- A channel is opened when no end of it belongs to a template of no processes (01 R53). -/
def Net.opened (n : Net) (c : Nat) : Bool := n.tmpls.all fun t => t.count != 0 || !(n.endsOf t).any fun e => e.chan == c

/-! Placement (14 R440, R441). -/

/-- What a launch has put on a core so far: processes, segments, endpoints. -/
structure Use where
  cnt : Nat
  segs : List (Nat × Nat)
  eps : Nat
  deriving DecidableEq, Repr

/-- Cores that placement may use: those of live quads of the partition but the steward core (14 R440). -/
def State.eligible (s : State) (p : Nat) : List Nat := (s.partCores p).filter fun g => g != (s.partAt p).steward

/-- The lowest 64-aligned free range of `n` bytes in the segment area (14 R441). -/
def segGap (segs : List (Nat × Nat)) (n : Nat) : Option Nat :=
  ((List.range (Config.segArea / 64)).map (· * 64)).find? fun a =>
    decide (a + n ≤ Config.segArea) && segs.all fun x => !overlaps a n x.1 x.2

/-- Hops that placement counts: on the die mesh, and 20 between dies (14 R441). -/
def placeHops (a b : Nat) : Nat :=
  absDiff (meshX a) (meshX b) + absDiff (meshY a) (meshY b) + (if dieOf a = dieOf b then 0 else 20)

/-- The cost of a core for a process (14 R441): `peers` are the placed peer ends as cores with their weights. -/
def placeCost (u : Use) (peers : List (Nat × Nat)) (g : Nat) : Nat :=
  4096 * u.cnt + (peers.map fun p => p.2 * placeHops g p.1).sum

/-- The cores of placed processes whose ends face the ends of template t, with the traffic weight (14 R441). -/
def Net.peers (n : Net) (t : Tmpl) (placed : List (Tmpl × Nat)) : List (Nat × Nat) :=
  (n.endsOf t).flatMap fun e => placed.flatMap fun p =>
    ((n.endsOf p.1).filter fun x => x.chan == e.chan && x.recv != e.recv).map fun _ => (p.2, 1 + (n.chan e.chan).hint)

/-- The core of least cost that can take one process of a template; ties go to the lowest (14 R441). -/
def Net.bestCore (n : Net) (t : Tmpl) (cand : List Nat) (use : Tbl Use) (placed : List (Tmpl × Nat)) : Option (Nat × Nat) :=
  let peers := n.peers t placed
  let need := ((n.endsOf t).filter (·.recv)).length
  let fits := cand.filterMap fun g =>
    let u := Tbl.get { cnt := 0, segs := [], eps := 0 } use g
    if u.cnt < Config.numSlots ∧ u.eps + need ≤ Config.numEndpoints then
      (segGap u.segs t.seg).map fun sb => (placeCost u peers g, g, sb)
    else none
  (fits.foldl (fun (b : Option (Nat × Nat × Nat)) x => match b with
    | none => some x
    | some y => if x.1 < y.1 then some x else some y) none).map fun x => x.2

/-- One template's processes put on candidate cores, in replica order; `one` puts one process on each core (11 R399). -/
def Net.fill (n : Net) (t : Tmpl) (one : Bool) (cand : List Nat) :
    Nat → Tbl Use → List (Tmpl × Nat) → Option (Tbl Use × List (Tmpl × Nat) × List (Nat × Nat))
  | 0, use, placed => some (use, placed, [])
  | k + 1, use, placed =>
    match n.bestCore t (if one then cand.filter fun g => (Tbl.find use g).isNone else cand) use placed with
    | none => none
    | some (g, sb) =>
      let u := Tbl.get { cnt := 0, segs := [], eps := 0 } use g
      let u' : Use := { cnt := u.cnt + 1, segs := (sb, t.seg) :: u.segs, eps := u.eps + ((n.endsOf t).filter (·.recv)).length }
      (n.fill t one cand k (Tbl.put use g u') (placed ++ [(t, g)])).map fun r => (r.1, r.2.1, (g, sb) :: r.2.2)

/-- The shape units of a code, each with its cores among the eligible ones (14 R440). -/
def shapeUnits (shape : Nat) (elig : List Nat) : List (List Nat) :=
  match shape with
  | 1 => (List.range 256).map fun q => elig.filter fun g => quadOf g == q
  | 2 => (List.range Config.numClusters).map fun c => elig.filter fun g => clusterOf g == c
  | 3 => (List.range Config.numDies).map fun d => elig.filter fun g => dieOf g == d
  | 4 => (List.range Config.numDies).map fun d => elig.filter fun g => dieOf g == d
  | _ => [elig]

/-- The templates placed in table order (14 R440, R441, 11 R399), shapes honoured or ignored: core and segment base of every process. -/
def Net.placeFrom (n : Net) (shapes : Bool) (elig : List Nat) :
    List Tmpl → Tbl Use → List (Tmpl × Nat) → List Nat → Option (List (List (Nat × Nat)))
  | [], _, _, _ => some []
  | t :: rest, use, placed, dies =>
    if t.count = 0 then (n.placeFrom shapes elig rest use placed dies).map fun r => [] :: r
    else
      let free := elig.filter fun g => !dies.contains (dieOf g)
      let shape := if shapes then t.shape else 0
      let units := (shapeUnits shape free).filter fun u =>
        shape != 4 || (u.length == 256 && u.all fun g => (Tbl.find use g).isNone)
      match units.findSome? fun u => n.fill t (decide (shape = 4 ∧ t.count = 256)) u t.count use placed with
      | none => none
      | some (use', placed', where_) =>
        let dies' := if shape = 4 then (where_.map fun x => dieOf x.1).take 1 ++ dies else dies
        (n.placeFrom shapes elig rest use' placed' dies').map fun r => where_ :: r

/-- Placement of a net on eligible cores (14 R441). -/
def Net.place (n : Net) (shapes : Bool) (elig : List Nat) : Option (List (List (Nat × Nat))) :=
  n.placeFrom shapes elig n.tmpls [] [] []

/-- The element of a list of units that stands there most often; ties go to the lowest. -/
def mostOf (l : List Nat) : Option Nat :=
  l.foldl (fun b x => match b with
    | none => some x
    | some y =>
      let a := l.count x
      let c := l.count y
      if c < a ∨ (a = c ∧ x < y) then some x else some y) none

/-- The lowest free offset of `n` bytes at an alignment, below `top`, in ranges given as base and length. -/
def homeGap (used ranges : List (Nat × Nat)) (align n : Nat) : Option Nat :=
  let starts := (ranges.map (·.1) ++ used.map fun x => x.1 + x.2).map fun a => roundUp a align
  (starts.filter fun a => (ranges.any fun r => decide (r.1 ≤ a) && decide (a + n ≤ r.1 + r.2)) && used.all fun x => !overlaps a n x.1 x.2).min?

/-- The quarters of a die's DM that a partition owns, merged where they touch: ascending runs (14 R441, 15 R466). -/
def State.dmRanges (s : State) (p d : Nat) : List (Nat × Nat) :=
  let own := (List.range 4).filter fun q => s.windowRights p (.dm d (q * Config.dmQuarter)) != 0
  (own.filter fun q => q = 0 || !own.contains (q - 1)).map fun q =>
    (q * Config.dmQuarter, ((List.range (4 - q)).takeWhile fun i => own.contains (q + i)).length * Config.dmQuarter)

/-- CM and DM homes placed in table order (14 R441): level, unit, offset, size of each; an HBM home has its registered address. -/
def State.placeHomes (s : State) (p : Nat) (plan : List (List (Nat × Nat))) : List HomeD → List (Nat × Nat × Nat × Nat) →
    Option (List (Nat × Nat × Nat × Nat))
  | [], acc => some acc
  | h :: rest, acc =>
    let all := plan.flatten.map (·.1)
    let near := ((plan.getD h.near []).map (·.1))
    let unitOf (g : Nat) : Nat := if h.level = 1 then clusterOf g else dieOf g
    let unit := match mostOf (near.map unitOf) with
      | some u => some u
      | none => (all.head?).map unitOf
    if h.level = 3 then s.placeHomes p plan rest (acc ++ [(3, 0, h.addr, h.size)])
    else match unit with
      | none => none
      | some u =>
        let used := (acc.filter fun x => x.1 == h.level && x.2.1 == u).map fun x => x.2.2
        let ranges := if h.level = 1 then [(0, Config.cmUser)] else s.dmRanges p u
        match homeGap used ranges (2 ^ h.align) h.size with
        | none => none
        | some o => s.placeHomes p plan rest (acc ++ [(h.level, u, o, h.size)])

/-- The address of a placed home (02 R78). -/
def homeAddr (x : Nat × Nat × Nat × Nat) : Nat :=
  match x.1 with
  | 1 => 2 ^ 51 + 2 ^ 49 + x.2.1 / 16 * 2 ^ 47 + x.2.1 % 16 * 2 ^ 43 + x.2.2.1
  | 2 => 2 ^ 51 + 2 ^ 50 + x.2.1 * 2 ^ 47 + x.2.2.1
  | _ => x.2.2.1

/-! The tables of a code object (14 R433). -/

/-- The bytes [lo, hi) are zero. -/
def zeroBytes (bs : List Byte) (lo hi : Nat) : Bool := ((bs.drop lo).take (hi - lo)).all (· == 0)

/-- A template entry, or none where a must-be-zero field is not zero or its image leaves the object. -/
def tmplOf (obj e : List Byte) : Option Tmpl :=
  let ioff := field e 8 8
  let isize := field e 0x10 4
  if decide (2 ^ 52 ≤ field e 0 8) || decide (obj.length < ioff + isize) || decide (3 < field e 0x1E 1) || decide (4 < field e 0x1F 1) ||
      decide (31 < field e 0x20 1) || !zeroBytes e 0x21 0x22 || decide (0xFFF < field e 0x22 2) || !zeroBytes e 0x30 64 then none
  else some {
    entry := BitVec.ofNat 52 (field e 0 8), image := (obj.drop ioff).take isize, seg := field e 0x14 4
    n0 := field e 0x18 2, n1 := field e 0x1A 2, n2 := field e 0x1C 2, pri := BitVec.ofNat 2 (field e 0x1E 1), shape := field e 0x1F 1
    bars := BitVec.ofNat 5 (field e 0x20 1), acct := BitVec.ofNat 12 (field e 0x22 2), eidx := field e 0x24 4, ecnt := field e 0x28 4 }

/-- A channel entry. -/
def chanOf (e : List Byte) : Option ChanD :=
  if decide (3 < field e 0 1) || decide (1 < field e 1 1) || decide (15 < field e 3 1) || !zeroBytes e 6 8 || !zeroBytes e 12 16 ||
      (field e 1 1 == 0 && field e 2 1 != 0) then none
  else some { ek := BitVec.ofNat 2 (field e 0 1), mode := field e 1 1 == 1, depth := BitVec.ofNat 5 (field e 2 1)
              hint := field e 3 1, esz := BitVec.ofNat 12 (field e 4 2) }

/-- Depth and element size of a channel entry are in the range of their fields (14 R436 code 3). -/
def chanRange (e : List Byte) : Bool := decide (field e 2 1 ≤ 31) && decide (field e 4 2 ≤ 4095)

/-- An end-table entry. -/
def endOf (e : List Byte) : Option EndD :=
  if decide (1 < field e 4 1) || decide (3 < field e 5 1) || !zeroBytes e 6 8 then none
  else some { chan := field e 0 4, recv := field e 4 1 == 1, g := field e 5 1 % 2 == 1, t := decide (2 ≤ field e 5 1) }

/-- A home-table entry. -/
def homeOf (e : List Byte) : Option HomeD :=
  let l := field e 8 1
  let a := field e 9 1
  if l < 1 ∨ 3 < l ∨ a < 6 ∨ 16 < a ∨ !zeroBytes e 10 12 ∨ !zeroBytes e 0x14 32 then none
  else some { size := field e 0 8, level := l, align := a, near := field e 12 4, addr := 0 }

/-- Entries of `w` bytes from an offset up to one that `stop` accepts, with the offset behind it; none where the table leaves the object, or a byte of the
last entry that is no field of it (those of `rest`, as first and last) is not zero. -/
def tableUntil (obj : List Byte) (w : Nat) (stop : List Byte → Bool) (rest : List (Nat × Nat)) : Nat → Nat → Option (List (List Byte) × Nat)
  | 0, _ => none
  | fuel + 1, off =>
    if obj.length < off + w then none
    else
      let e := (obj.drop off).take w
      if stop e then (if rest.all fun x => zeroBytes e x.1 x.2 then some ([], off + w) else none)
      else (tableUntil obj w stop rest fuel (off + w)).map fun r => (e :: r.1, r.2)

/-- `n` entries of `w` bytes from an offset. -/
def tableOf (obj : List Byte) (w n off : Nat) : Option (List (List Byte)) :=
  if obj.length < off + w * n then none else some ((List.range n).map fun i => (obj.drop (off + w * i)).take w)

/-- A raw relocation: template, offset, kind, home, addend. -/
structure RawReloc where
  tpl : Nat
  off : Nat
  kind : Nat
  home : Nat
  addend : Word
  deriving DecidableEq, Repr

/-- A relocation-table entry. -/
def relocOf (e : List Byte) : Option RawReloc :=
  if zeroBytes e 12 16 then
    some { tpl := field e 0 4, off := field e 4 4, kind := field e 8 2, home := field e 10 2, addend := BitVec.ofNat 64 (field e 16 8) }
  else none

/-- Line l of an image as half-words. -/
def imageLine (img : List Byte) (l : Nat) : List Half := halfWords ((img.drop (64 * l)).take 64)

/-- An imm64 tail of a code line stands at an offset of an image (05 R186). -/
def isImmTail (img : List Byte) (off : Nat) : Bool :=
  let hw := imageLine img (off / 64)
  lineWf hw && (List.range (lineHeads hw)).any fun i =>
    tailHalves ((lineHead hw (i + 1)).extractLsb' 14 2) == 4 && 2 * (32 - tailSum hw (i + 1)) == off % 64

/-- An offset lies in the lines that follow the granules and are all well formed: the code. -/
def inCode (img : List Byte) (first off : Nat) : Bool :=
  decide (64 * first ≤ off) && (List.range (off / 64 + 1 - first)).all fun i => lineWf (imageLine img (first + i))

/-- What the object's tables give: the net, its relocations, its data image. -/
structure Parsed where
  net : Net
  relocs : List RawReloc
  data : List Byte
  ranges : Bool
  hash : Nat
  deriving DecidableEq, Repr

/-- A relocation's target is an imm64 tail or a data word of its image, and its indices name entries (14 R436 code 1). -/
def Parsed.relocOk (x : Parsed) (r : RawReloc) : Bool :=
  let n := x.net
  r.off % 2 == 0 && decide (1 ≤ r.kind ∧ r.kind ≤ 2) && (r.kind == 1 || decide (r.home < n.homes.length)) &&
    (if r.tpl = 0xFFFFFFFF then r.kind == 1 && decide (r.off + 8 ≤ x.data.length)
     else match n.tmpls[r.tpl]? with
       | none => false
       | some t => decide (r.off + 8 ≤ t.image.length) &&
         (isImmTail t.image r.off || (r.kind == 1 && !inCode t.image ((16 * n.granuleCount t + 63) / 64) r.off)))

/-- The NAME offset at some place of an entry reaches beyond an object whose symbol table starts at `sym` (05 R203, 14 R433): it is counted from the
table's start (DESIGN CHOICE, log entry 71). -/
def nameOk (obj : List Byte) (sym : Nat) (e : List Byte) (at_ : Nat) : Bool := decide (sym + field e at_ 4 ≤ obj.length)

/-- The tables of an object, none where R203 or code 1 of R436 fails (14 R433, R436). The symbol table, which the spec gives no format, is looked at no
further than its offsets (log entry 71). -/
def parseObject (obj : List Byte) : Option Parsed :=
  let toff := field obj 0x18 8
  let np := field obj 0x10 4
  let nc := field obj 0x14 4
  let doff := field obj 0x20 8
  let dsize := field obj 0x28 8
  if obj.length < 64 || field obj 0 4 != 0x424F5851 || field obj 4 2 != 1 || field obj 6 2 != 0 || field obj 12 4 != 64 ||
      decide (obj.length < doff + dsize) || decide (obj.length < field obj 0x30 8) then none
  else do
    let ts ← tableOf obj 64 np toff
    let cs ← tableOf obj 16 nc (toff + 64 * np)
    let tmpls ← ts.mapM (tmplOf obj)
    let chans ← cs.mapM chanOf
    let (es, ho) ← tableUntil obj 8 (fun e => field e 0 4 == 0xFFFFFFFF) [(6, 8)] (obj.length + 1) (toff + 64 * np + 16 * nc)
    let ends ← es.mapM endOf
    let (hs, ro) ← tableUntil obj 32 (fun e => field e 0 8 == 0) [(10, 12), (20, 32)] (obj.length + 1) ho
    let homes ← hs.mapM homeOf
    let (rs, _) ← tableUntil obj 24 (fun e => field e 8 2 == 0) [(12, 16)] (obj.length + 1) ro
    let relocs ← rs.mapM relocOf
    let x : Parsed := {
      net := { tmpls := tmpls, chans := chans, ends := ends, homes := homes, relocs := [] }, relocs := relocs
      data := (obj.drop doff).take dsize, ranges := cs.all chanRange, hash := field obj 8 4 }
    let sym := field obj 0x30 8
    let named := (tmpls.all fun t => decide (t.eidx + t.ecnt ≤ ends.length)) && (ends.all fun e => decide (e.chan < nc)) &&
      (homes.all fun h => h.near == 0xFFFFFFFF || decide (h.near < np)) &&
      ts.all (nameOk obj sym · 0x2C) && cs.all (nameOk obj sym · 8) && hs.all (nameOk obj sym · 16)
    if named && relocs.all x.relocOk then some x else none

/-! The launch checker (14 R436). -/

/-- Every end of a net that some template declares. -/
def Net.declared (n : Net) : List EndD := n.tmpls.flatMap n.endsOf

/-- ESZ fits the kind (01 R26). -/
def ChanD.sizeOk (c : ChanD) : Bool :=
  match c.ek.toNat with
  | 0 => c.esz == 7
  | 3 => c.esz == 15
  | 2 => decide (c.esz.toNat ≤ 3071)
  | _ => true

/-- The channels obey code 3. -/
def Net.channelsOk (n : Net) : Bool :=
  (List.range n.chans.length).all fun c =>
    let m := n.receivers c
    ((n.declared.filter fun e => e.recv && e.chan == c).length == 1) && (n.chan c).sizeOk && decide (m ≤ 64) &&
      (decide (m < 2) || (n.declared.filter fun e => !e.recv && e.chan == c).all (·.t))

/-- The ends obey code 4, those that no template declares too. -/
def Net.endsOk (n : Net) : Bool :=
  n.ends.all fun e => !(e.recv && (e.g || e.t)) && !(e.t && decide (2 ≤ (n.chan e.chan).ek.toNat))

/-- Segments obey code 5. An image smaller than its granules is accepted: the rings start from ISIZE all the same, and the launch writes every granule
(DESIGN CHOICE, log entry 91). -/
def Net.segmentsOk (n : Net) : Bool :=
  n.tmpls.all fun t => decide (t.image.length ≤ t.seg) && decide ((n.rings t).2 ≤ t.seg) && decide (1 ≤ t.seg ∧ t.seg ≤ Config.segArea) &&
    t.seg % 64 == 0

/-- HBM homes placed behind the data image, in table order (14 R435). -/
def placeHbm : Nat → List HomeD → List HomeD
  | _, [] => []
  | a, h :: rest =>
    if h.level = 3 then
      let b := roundUp a (2 ^ h.align)
      { h with addr := b } :: placeHbm (b + h.size) rest
    else h :: placeHbm a rest

/-- Code and status of R436 for a parsed object, its HBM homes placed (14 R436). -/
def State.checkNet (s : State) (fn : Nat) (x : Parsed) (data : Nat) : Nat :=
  let n := x.net
  let hbm := n.homes.filter fun h => h.level == 3
  let rw := rightR + rightW
  if x.hash ≠ Config.hash then 2
  else if !x.ranges || !n.channelsOk then 3
  else if !n.endsOk || !s.rangeHas fn rw data x.data.length || !hbm.all (fun h => s.rangeHas fn rw h.addr h.size) then 4
  else
    let elig := s.eligible fn
    if !n.segmentsOk then 5
    else match n.place false elig with
      | none => 5
      | some plan =>
        if (s.placeHomes fn plan n.homes []).isNone then 5
        else match n.place true elig with
          | none => 6
          | some plan' => if (s.placeHomes fn plan' n.homes []).isNone then 5 else 0

/-! Registration (14 R430-R435). -/

/-- The size that a code object's header gives (14 R432), when `size` bytes from a DVA are DVAs. -/
def objectSize (dva : Nat) (header : List Byte) : Option Nat :=
  let n := field header 0x38 8
  if n < 64 ∨ 2 ^ 52 < dva + n then none else some n

/-- What a unit must still wait for before it can read the code object at a DVA: its header, and then the whole. -/
def State.askObject (s : State) (u : Unit_) (dva : Nat) (may : Nat → Bool) : Option State :=
  if !may 64 then none
  else match s.devAsk u dva 64, s.devRead u dva 64 with
    | some s1, _ => some s1
    | none, .ok h => match objectSize dva h with
      | some n => if may n then s.devAsk u dva n else none
      | none => none
    | none, .error _ => none

/-- A code object that a unit reads at a DVA (14 R432, 15 R474), where it may; and the state after the read. -/
def State.readObject (s : State) (u : Unit_) (dva : Nat) (may : Nat → Bool) : Option (List Byte) × State :=
  if !may 64 then (none, s)
  else match s.devRead u dva 64 with
    | .error _ => (none, s.devPaid u dva 64)
    | .ok h =>
      let s1 := s.devPaid u dva 64
      match objectSize dva h with
      | none => (none, s1)
      | some n =>
        if !may n then (none, s1)
        else match s.devRead u dva n with
          | .error _ => (none, s1.devPaid u dva n)
          | .ok b => (some b, s1.devPaid u dva n)

/-- Eight bytes of an image replaced. -/
def patchBytes (img : List Byte) (off : Nat) (v : Word) : List Byte := img.take off ++ wordBytes 8 v ++ img.drop (off + 8)

/-- The relocations of kind 1 applied to an image (14 R434). -/
def applyData (rs : List RawReloc) (tpl : Nat) (base : Word) (img : List Byte) : List Byte :=
  (rs.filter fun r => r.tpl == tpl && r.kind == 1).foldl (fun b r => patchBytes b r.off (base + r.addend)) img

/-- A parsed net as it is stored: data relocations applied, HBM homes placed, those of kind 2 kept. -/
def Parsed.stored (x : Parsed) (base : Word) : Net :=
  { x.net with
    tmpls := x.net.tmpls.zipIdx.map fun t => { t.1 with image := applyData x.relocs t.2 base t.1.image }
    homes := placeHbm (base.toNat + x.data.length) x.net.homes
    relocs := (x.relocs.filter fun r => r.kind == 2).map fun r => { tpl := r.tpl, off := r.off, home := r.home, addend := r.addend } }

/-- The package's firmware runs, and the function answers (16 R495, 18 R526, R532). -/
def State.fnLive (s : State) (fn : Nat) : Bool :=
  s.bring.state == .running && (fn == 0 || ((s.fnAt fn).enabled && decide (fn ≤ 15)))

/-- NRGO (14 R432, R436): the object at NRSRC is checked, its net stored, its data image written; it goes on once the object has come (16 R493). -/
def execNrgo (fn : Nat) (s : State) : Res :=
  let f := s.fnAt fn
  if !s.fnLive fn || f.nrBusy then .next s
  else
    let u := firmware fn (clusterOf (s.partAt fn).steward) (BitVec.ofNat 16 (4096 * fn))
    let dva := f.nrsrc.toNat % 2 ^ 52
    let may (n : Nat) : Bool := s.rangeHas fn rightR dva n
    match s.askObject u dva may with
    | some s1 => .next s1
    | none =>
      let o := s.readObject u dva may
      let fail (st : Nat) : State := o.2.setFn fn { f with nrStatus := BitVec.ofNat 8 st, nrHandle := 0 }
      match o.1.bind parseObject with
      | none => .next (fail 1)
      | some x =>
        let net := x.stored f.nrdata
        match s.checkNet fn { x with net := net } f.nrdata.toNat with
        | 0 =>
          if 256 ≤ f.nets.length ∨ 0xFFFFFF < f.nextHandle then .next (fail 7)
          else
            let data := applyData x.relocs 0xFFFFFFFF f.nrdata x.data
            let s1 := (o.2.devWrite u (data.length / 128 + 2) f.nrdata.toNat data).1
            let f1 := s1.fnAt fn
            .next (s1.setFn fn { f1 with
              nets := Tbl.put f1.nets f1.nextHandle net, nextHandle := f1.nextHandle + 1
              nrHandle := BitVec.ofNat 24 f1.nextHandle, nrStatus := 0 })
        | st => .next (fail st)

/-- NETDEL (14 R432). -/
def execNetdel (fn : Nat) (w : Word) (s : State) : Res :=
  if !s.fnLive fn then .next s
  else
    let f := s.fnAt fn
    .next (s.setFn fn { f with nets := Tbl.del f.nets (bitsOf w.toNat 23 0) })

end Sys2Proof.Machine
end

