-- ==== Sys2Proof/Machine/System.lean ====
section
/-! DEFINITION. The system instructions (13 R407-R428): traps and the return from one, control registers, RESUME and KILL, capabilities, PLB
invalidation, the instruction fence, the doorbell and QUIESCE. -/

namespace Sys2Proof.Machine

/-! TRAP, BRK and ERET. -/

/-- BREAK, raised once the instruction has completed (13 R414, R422): it reports the next PC and its own as the faulting PC. -/
def State.break_ (s : State) (g k : Nat) (p : Proc) (info : Word) (code : BitVec 12) : State :=
  let s1 := s.retire g k p
  let q := s1.procAt g k
  s1.deliver g k q { cause := .break_, rpc := q.pc, fpc := p.pc, info := info, code := code, deferred := false, entry := false }

/-- TRAP (13 R422). -/
def execTrap (a : Reg) (i : BitVec 12) (s : State) : Res :=
  s.withProc fun g k p => if p.awaits [a] then s.stall else .next (s.break_ g k p (p.reg a) i)

/-- BRK (13 R422). -/
def execBrk (s : State) : Res := s.withProc fun g k p => .next (s.break_ g k p 0 0)

/-- ERET (13 R416): in process mode PRIV (05 R192, R199), outside a handler ILLEGAL. -/
def execEret (s : State) : Res :=
  s.withProc fun g k p =>
    if !p.mode then .next (s.trap g k p .priv 0)
    else if !p.h then .next (s.trap g k p .illegal 0)
    else .next (s.eret g k p)

/-- A head with an unallocated opcode traps ILLEGAL (05 R192, R201). -/
def execUnallocatedOpcode (_w : BitVec 16) (s : State) : Res := s.withProc fun g k p => .next (s.trap g k p .illegal 0)

/-! Control registers. -/

/-- A control register's number is defined (13 R411). -/
def kDefined (n : BitVec 11) : Bool := decide (n.toNat ≤ 0xF) || decide (0x100 ≤ n.toNat ∧ n.toNat ≤ 0x102)

/-- The register has a W or a WS field (13 R409, R410). -/
def kWritable (n : BitVec 11) : Bool := [0, 1, 2, 5, 6, 7].contains n.toNat

/-- A control register of process p (13 R411). -/
def State.kRead (s : State) (p : Proc) (n : BitVec 11) : Word :=
  let x := s.partAt p.part
  match n.toNat with
  | 0x100 => BitVec.ofNat 64 (p.part + 16 * x.steward)
  | 0x101 => BitVec.ofNat 64 x.fcidx
  | 0x102 => p.deadline
  | k => p.psb k

/-- The W fields, and with `st` the WS fields, of a control register written (13 R409, R410, R412). -/
def Proc.kWrite (p : Proc) (n : BitVec 11) (w : Word) (st : Bool) : Proc :=
  match n.toNat with
  | 0 => if st then { p with pc := w.setWidth 52, vrc := 0 } else p
  | 1 =>
    let q : Proc := { p with ten := w.extractLsb' 16 16 &&& 0xFFFE, flags := w.extractLsb' 9 5 }
    if st then { q with pceil := w.extractLsb' 2 2, pri := w.extractLsb' 0 2 } else q
  | 2 => { p with dmk := w.setWidth 16 &&& 0x3FFF }
  | 5 => { p with trh := w.setWidth 52 }
  | 6 => { p with tpc := w.setWidth 52, tvrc := 0 }
  | 7 => { p with tinfo := w }
  | _ => p

/-- A new PC ends an ALT that the process had still to select in (08 R306). -/
def Proc.dropAlt (p : Proc) (n : BitVec 11) : Proc :=
  match p.blk with
  | .alt _ _ => if n = 0 && p.state == .ready then { p with blk := .none, deadline := Config.never } else p
  | _ => p

/-- The target of KRD, KWR, RESUME or KILL, or why there is none (13 R410, R412). -/
def State.prefTarget (s : State) (p : Proc) (w : Word) : Except Cause PRef :=
  let r := prefOf w
  if !s.coreInPart p.part r.g then .error .rights
  else if (s.find r).isNone then .error .closed
  else .ok r

/-- The checks of KRD and KWR that read no operand (13 R412): ILLEGAL, then PRIV. -/
def Proc.kRefused (p : Proc) (write t : Bool) (n : BitVec 11) : Option Cause :=
  if !kDefined n || (write && (!kWritable n || (n = 0 && !t))) then some .illegal
  else if (t || decide (0x100 ≤ n.toNat)) && !p.stw then some .priv
  else none

/-- The target of KRD and KWR, none for the process itself, or why there is none (13 R412). -/
def State.kTarget (s : State) (p : Proc) (b : Reg) (t : Bool) : Except Cause (Option PRef) :=
  if !t then .ok none
  else match s.prefTarget p (p.reg b) with
    | .error c => .error c
    | .ok r =>
      let q := s.procAt r.g r.slot
      if q.pkt || q.pkh then .ok (some r) else .error .type

/-- KRD (13 R412): its own PC reads as the next head's; its own flags wait for its tile commands (04 R177). -/
def execKrd (a b : Reg) (t : Bool) (n : BitVec 11) (s : State) : Res :=
  s.withProc fun g k p =>
    match p.kRefused false t n with
    | some c => .next (s.trap g k p c 0)
    | none =>
      if p.awaits (if t then [a, b] else [a]) || (n = 1 && !t && (s.tilePending (s.pref g k) || p.outs.any (·.flags))) then s.stall
      else match s.kTarget p b t with
      | .error c => .next (s.trap g k p c 0)
      | .ok none =>
        let v := if n = 0 then (s.next g p).setWidth 64 else s.kRead p n
        .next (s.retire g k (p.setReg a v))
      | .ok (some r) => .next ((s.retire g k (p.setReg a (s.kRead (s.procAt r.g r.slot) n))).carry g (.core r.g) p.dye 0)

/-- KWR (13 R412). -/
def execKwr (a b : Reg) (t : Bool) (n : BitVec 11) (s : State) : Res :=
  s.withProc fun g k p =>
    match p.kRefused true t n with
    | some c => .next (s.trap g k p c 0)
    | none =>
      if p.awaits (if t then [a, b] else [a]) then s.stall
      else match s.kTarget p b t with
      | .error c => .next (s.trap g k p c 0)
      | .ok none => .next (s.retire g k (p.kWrite n (p.reg a) p.stw))
      | .ok (some r) =>
        let s1 := (s.retire g k p).carry g (.core r.g) p.dye 0
        let q := s1.procAt r.g r.slot
        .next (s1.setProc r.g r.slot ((q.kWrite n (p.reg a) true).dropAlt n))

/-! RESUME and KILL. -/

/-- RESUME and KILL (13 R407, R421): PRIV, RIGHTS, then a status of 0, 1 for a stale reference, 2 in another state. -/
def State.steer (s : State) (a b : Reg) (may : Proc → Bool) (f : State → Nat → Nat → State) : Res :=
  s.withProc fun g k p =>
    if !p.stw then .next (s.trap g k p .priv 0)
    else if p.awaits [a, b] then s.stall
    else
      let r := prefOf (p.reg b)
      if !s.coreInPart p.part r.g then .next (s.trap g k p .rights 0)
      else
        let done (st : Word) : State := (s.retire g k (p.setReg a st)).carry g (.core r.g) p.dye 0
        match s.find r with
        | none => .next (done 1)
        | some q => if may q then .next (f (done 0) r.g r.slot) else .next (done 2)

/-- RESUME (13 R421). -/
def execResume (a b : Reg) (s : State) : Res := s.steer a b (·.pkt) State.resumeAt

/-- KILL (13 R421). -/
def execKill (a b : Reg) (s : State) : Res := s.steer a b (fun q => q.pkt || q.pkh) State.killAt

/-! Capabilities. -/

/-- A group handle (02 R121): partition, members, T, G, first byte of the descriptor. -/
def mkGroup (part n : Nat) (t g : Bool) (desc : Nat) : BitVec 128 :=
  (2#4 ++ BitVec.ofNat 4 part ++ BitVec.ofNat 6 (n - 1) ++ BitVec.ofBool t ++ BitVec.ofBool g ++ BitVec.ofNat 48 (desc / 16) ++ 0#64 :
    BitVec 128)

/-- A far pointer (16 R492): partition, package, rights R, W, A, G as bits 0 to 3, epoch, length, first byte. -/
def mkFar (part : Nat) (pkg : BitVec 12) (f : BitVec 4) (epoch : BitVec 8) (len base : Nat) : BitVec 128 :=
  (3#4 ++ BitVec.ofNat 4 part ++ pkg ++ BitVec.ofBool (f.getLsbD 0) ++ BitVec.ofBool (f.getLsbD 1) ++ BitVec.ofBool (f.getLsbD 2) ++
    BitVec.ofBool (f.getLsbD 3) ++ epoch ++ BitVec.ofNat 44 (len - 1) ++ BitVec.ofNat 52 base : BitVec 128)

/-- A capability written to a pair. -/
def Proc.setCap (p : Proc) (a : Reg) (h : BitVec 128) : Proc := p.setPair a (h.setWidth 64) (h.extractLsb' 64 64) true

/-- MINT of a group handle (13 R423): f[0] is T, f[1] is G. -/
def execMintGroup (a b c : Reg) (f : BitVec 2) (s : State) : Res :=
  s.withProc fun g k p =>
    if p.awaits [a, oddOf a, b, c] then s.stall
    else
      let base := p.reg b
      let n := (p.reg c).toNat
      if base.extractLsb' 52 12 != 0 then .next (s.trap g k p .bounds base)
      else if n < 1 ∨ 64 < n then .next (s.trap g k p .bounds base)
      else if base.toNat % 16 ≠ 0 then .next (s.trap g k p .align base)
      else if !s.rangeHas p.part (rightR + rightM) base.toNat (16 * n) then .next (s.trap g k p .rights base)
      else .next (s.retire g k (p.setCap a (mkGroup p.part n (f.getLsbD 0) (f.getLsbD 1) base.toNat)))

/-- The rights that a far pointer's range needs (13 R423). -/
def farNeed (f : BitVec 4) : Nat :=
  rightM + (if f.getLsbD 0 then rightR else 0) + (if f.getLsbD 1 then rightW else 0) + (if f.getLsbD 2 then rightA else 0)

/-- MINT of a far pointer (13 R423, 16 R492). -/
def execMintFarPointer (a b c : Reg) (f : BitVec 4) (s : State) : Res :=
  s.withProc fun g k p =>
    if p.awaits [a, oddOf a, b, c] then s.stall
    else
      let base := p.reg b
      let len := (p.reg c).toNat
      let lo := base.toNat
      if base.extractLsb' 52 12 != 0 then .next (s.trap g k p .bounds base)
      else if len < 1 ∨ 2 ^ 44 < len ∨ (lo < 2 ^ 51 ∧ 2 ^ 51 < lo + len) ∨ 2 ^ 52 < lo + len then .next (s.trap g k p .bounds base)
      else if !s.rangeHas p.part (farNeed f) lo len then .next (s.trap g k p .rights base)
      else .next (s.retire g k (p.setCap a (mkFar p.part s.bring.pkgid f (s.partAt p.part).farEpoch len lo)))

/-- The rights of a capability kind as pairs of a keep-mask bit and the capability's bit (13 R424). -/
def rightBits (ck : Nat) : List (Nat × Nat) :=
  match ck with
  | 1 => [(0, 68), (1, 67), (2, 66)]
  | 2 => [(1, 112), (2, 113)]
  | 3 => [(0, 107), (1, 104), (3, 106), (4, 105)]
  | _ => []

/-- A capability with each right cleared whose keep bit is 0 (13 R424). -/
def keepRights (h : BitVec 128) (k : Word) : BitVec 128 :=
  (rightBits (hCk h)).foldl (fun x r => if k.getLsbD r.1 then x else x &&& ~~~(1#128 <<< r.2)) h

/-- RIGHTS (13 R424). -/
def execRights (a b c : Reg) (s : State) : Res :=
  s.withProc fun g k p =>
    if p.awaits [a, oddOf a, b, oddOf b, c] then s.stall
    else
      let h := p.pair b
      if !p.pairTag b then .next (s.trap g k p .captag 0)
      else if hCk h < 1 ∨ 3 < hCk h then .next (s.trap g k p .type 0)
      else .next (s.retire g k (p.setCap a (keepRights h (p.reg c))))

/-! PLB invalidation and the instruction fence. -/

/-- The PLB of a core without the entries that overlap [a, a + n). -/
def Core.dropPlb (c : Core) (domains : Tbl Word) (a n : Nat) : Core :=
  { c with plb := c.plb.filter fun i =>
      match domainEntry (Tbl.get 0 domains i) with
      | some (b, m, _) => !overlaps b m a n
      | none => false }

/-- Every core of a partition drops the PLB entries that overlap a range (13 R425). -/
def State.plbDrop (s : State) (part a n : Nat) : State :=
  (s.partCores part).foldl (fun st g => st.setCore g ((st.coreAt g).dropPlb (s.partAt part).domains a n)) s

/-- PLBINV (13 R425). -/
def execPlbinv (b c : Reg) (s : State) : Res :=
  s.withProc fun g k p =>
    if !p.stw then .next (s.trap g k p .priv 0)
    else if p.awaits [b, c] then s.stall
    else
      let base := p.reg b
      let len := (p.reg c).toNat
      if base.extractLsb' 52 12 != 0 then .next (s.trap g k p .bounds base)
      else if len = 0 then .next (s.retire g k p)
      else if 2 ^ 52 < base.toNat + len then .next (s.trap g k p .bounds base)
      else .next ((s.retire g k p).plbDrop p.part base.toNat len)

/-- IFENCE (13 R426): the fetch buffer is emptied, and the next PC is entered by 05 R191. -/
def execIfence (s : State) : Res :=
  s.withProc fun g k p =>
    let s1 := s.retire g k p
    .next (s1.setCore g { s1.coreAt g with fb := .empty })

/-! Doorbell and QUIESCE. -/

/-- WAITI (13 R427): the doorbell is taken in one action, or waited for. -/
def execWaiti (a : Reg) (s : State) : Res :=
  s.withProc fun g k p =>
    if !p.stw then .next (s.trap g k p .priv 0)
    else if p.awaits [a] then s.stall
    else
      let x := s.partAt p.part
      if x.doorbell != 0 then .next ((s.setPart p.part { x with doorbell := 0 }).retire g k (p.setReg a x.doorbell))
      else
        let s1 := s.retire g k p
        .next (s1.block g k (s1.procAt g k) .chan (.doorbell p.pc a))

/-- QUIESCE (13 R428): `m` removes the hold; else it begins, and completes when the processes that are no stewards have settled. -/
def execQuiesce (a : Reg) (m : Bool) (s : State) : Res :=
  s.withProc fun g k p =>
    if !p.stw then .next (s.trap g k p .priv 0)
    else if p.awaits [a] then s.stall
    else
      let x := s.partAt p.part
      if m then
        .next ((s.setPart p.part { x with cqsc := false }).retire g k (p.setReg a (if x.cqsc then 0 else 1)))
      else
        let begin_ (_ : Unit) : Res :=
          let s1 := s.setProc g k { p with wait := .quiesce p.pc x.cqsc }
          .next (s1.startHold p.part fun y => { y with cqsc := true })
        match p.wait with
        | .quiesce pc was =>
          if pc ≠ p.pc then begin_ ()
          else if x.cqsc && !s.holdSettled p.part false then s.stall
          else .next (s.retire g k (p.setReg a (if was then 1 else 0)))
        | _ => begin_ ()

end Sys2Proof.Machine
end

