-- ==== Sys2Proof/Machine/Launch.lean ====
section
/-! DEFINITION. Launches (14 R437-R439): the queue, the sequencer, frost sweeps (01 R65-R67, 14 R446), the end of a launch, completion records and
deadlock reports (14 R447, R448), and ABORT. -/

namespace Sys2Proof.Machine

/-! Records. -/

/-- A completion record's bytes (14 R447). -/
def recordBytes (lid status flags net : Nat) (tstart tend : Word) (sent energy nproc nblk theld : Nat) : List Byte :=
  natBytes 2 lid ++ natBytes 1 status ++ natBytes 1 flags ++ natBytes 4 net ++ wordBytes 8 tstart ++ wordBytes 8 tend ++ natBytes 8 sent ++
    natBytes 8 energy ++ natBytes 4 nproc ++ natBytes 4 nblk ++ natBytes 8 theld ++ natBytes 8 0

/-- A record joins those of its function (14 R447). -/
def State.addRecord (s : State) (fn : Nat) (r : Rec) : State :=
  let f := s.fnAt fn
  s.setFn fn { f with records := f.records ++ [r] }

/-- The record of a launch that created nothing (14 R437, R438, R439): its net handle, and the time at which it was turned away. -/
def State.refuseLaunch (s : State) (fn lid status : Nat) (w : Word) : State :=
  s.addRecord fn { bytes := recordBytes lid status 0 (bitsOf w.toNat 63 40) s.time s.time 0 0 0 0 0, report := none, behind := [] }

/-! Starting (14 R437, R438). -/

/-- LAUNCH (14 R437, R475): the next launch id; REFUSED without a partition or with a full queue. A queued launch keeps its net (R432). -/
def execLaunch (fn : Nat) (w : Word) (s : State) : Res :=
  if !s.fnLive fn then .next s
  else
    let f := s.fnAt fn
    let lid := f.nextLid
    let s1 := s.setFn fn { f with nextLid := lid % 0xFFFF + 1 }
    if (s.partAt fn).node = 0 ∨ 16 ≤ f.queue.length then .next (s1.refuseLaunch fn lid 4 w)
    else
      let f1 := s1.fnAt fn
      .next (s1.setFn fn { f1 with queue := f1.queue ++ [(lid, w, Tbl.find f.nets (bitsOf w.toNat 63 40))] })

/-- A core can be assigned (14 R438 step 3): it belongs to no launch, and nothing that the sequencer zeroes is in use. -/
def State.coreFree (s : State) (g : Nat) : Bool :=
  let c := s.coreAt g
  c.lid == 0 && c.tile.queue.isEmpty && c.eps.all (fun e => !e.2.closing) &&
    !(s.clusterAt (clusterOf g)).journal.any fun y => y.who.g == g && y.finished.isNone

/-- Bytes of LM zeroed, tags and errors with them (14 R438 step 5, R451). -/
def Core.lmClear (c : Core) (off n : Nat) : Core :=
  { c with
    lm := Mem.zero c.lm off n
    lmTags := clearTags c.lmTags off n
    lmDirty := markDirty c.lmDirty off n
    lmBad := endBad c.lmBad off n }

/-- A core assigned to a launch (14 R438 step 4, 01 R55): counters and tile state zero. -/
def Core.assign (c : Core) (l : LRef) (net : BitVec 24) : Core :=
  { c with lid := BitVec.ofNat 16 l.lid, netH := net, fn := l.fn, sent := 0, rcvd := 0, tile := { Tile.zero with dirty := 0xFFFFFF } }

/-- A process that a launch makes: template, replica, place, slot, and the endpoints of its receive ends by place in the template. -/
structure Made where
  ti : Nat
  r : Nat
  g : Nat
  sb : Nat
  slot : Nat
  eps : List (Nat × Nat)
  deriving DecidableEq, Repr

/-- A segment image with the relocations of kind 2 applied (14 R434). -/
def Net.imageFor (n : Net) (ti : Nat) (t : Tmpl) (homes : List (Nat × Nat × Nat × Nat)) : List Byte :=
  (n.relocs.filter fun r => r.tpl == ti).foldl (fun b r =>
    patchBytes b r.off (BitVec.ofNat 64 (homeAddr (homes.getD r.home (0, 0, 0, 0))) + r.addend)) t.image

/-- The replica index of a replica in the layout of w1 (01 R54), i0 fastest. -/
def Tmpl.replica (t : Tmpl) (r : Nat) : BitVec 48 :=
  BitVec.ofNat 16 (r / (t.n0 * t.n1)) ++ BitVec.ofNat 16 (r / t.n0 % t.n1) ++ BitVec.ofNat 16 (r % t.n0)

/-- A process as launch creates it (01 R54, 03 R145, 13 R409, R410). -/
def State.launched (s : State) (l : LRef) (net : BitVec 24) (w : Word) (t : Tmpl) (m : Made) : Proc :=
  let regs := (Proc.zero.regs.set 0 (BitVec.ofNat 64 (bitsOf w.toNat 39 0 * 16))).set 1 ((t.replica m.r).setWidth 64)
  { Proc.zero with
    regs := regs
    pc := t.entry
    lastPc := t.entry
    pri := t.pri
    pceil := t.pri
    dye := BitVec.ofNat 4 l.fn ++ t.acct
    vseen := BitVec.ofNat 64 s.tss.v
    repl := t.replica m.r
    sb := BitVec.ofNat 19 m.sb
    sl := BitVec.ofNat 19 (m.sb + t.seg)
    stg := BitVec.ofNat 6 m.slot
    bars := t.bars
    lid := BitVec.ofNat 16 l.lid
    netH := net }

/-- The endpoint of a launch's receive end (01 R28, 14 R438 step 6). -/
def ChanD.endpoint (c : ChanD) (owner ring part : Nat) (gen : BitVec 32) : Endp :=
  { Endp.zero with
    st := if c.mode then .buffered else .empty
    ek := c.ek, esz := c.esz, mode := c.mode, depth := c.depth, owner := owner, acc := 1#16 <<< part, gen := gen
    ring := if c.mode then BitVec.ofNat 32 ring else 0 }

/-- The receive ends of a new process opened in order, each at the lowest closed endpoint of its core (14 R438 step 6). -/
def State.openEnds (s : State) (n : Net) (part g slot : Nat) : List (EndD × Nat × Nat) → State × List (Nat × Nat)
  | [] => (s, [])
  | (e, j, ring) :: rest =>
    if !e.recv || !n.opened e.chan then s.openEnds n part g slot rest
    else match (s.coreAt g).freeEp with
      | none => s.openEnds n part g slot rest
      | some i =>
        let r := (s.setEp g i ((n.chan e.chan).endpoint slot ring part (s.epAt g i).gen)).openEnds n part g slot rest
        (r.1, (j, i) :: r.2)

/-- The handle of an open endpoint (01 R26). -/
def State.handleOf (s : State) (part g e : Nat) (sr gr tr : Bool) : BitVec 128 :=
  let x := s.epAt g e
  mkHandle part s.bring.pkgid false g e x.ek x.esz x.mode x.depth sr gr tr x.gen

/-- The granules of one end, from granule i of the process's segment (01 R53, R54, 12 R403). -/
def State.endGranules (s : State) (n : Net) (part : Nat) (made : List Made) (m : Made) (e : EndD) (j i : Nat) : List (Option (BitVec 128)) :=
  if e.recv then
    match m.eps.find? fun x => x.1 == j with
    | some x => [some (s.handleOf part m.g x.2 true true false)]
    | none => [none]
  else
    let peers := if !n.opened e.chan then [] else made.flatMap fun o =>
      ((n.endsOf (n.tmpls.getD o.ti { entry := 0, image := [], seg := 0, n0 := 0, n1 := 0, n2 := 0, pri := 0, shape := 0, bars := 0, acct := 0
                                      eidx := 0, ecnt := 0 })).zipIdx.filter fun x => x.1.recv && x.1.chan == e.chan).filterMap fun x =>
        (o.eps.find? fun y => y.1 == x.2).map fun y => (o.g, y.2)
    match peers with
    | [] => List.replicate (n.granules e) none
    | [p] => [some (s.handleOf part p.1 p.2 true e.g e.t)]
    | ps =>
      some (mkGroup part ps.length true e.g (windowLm m.g (m.sb + 16 * (i + 1)))) ::
        ps.map fun p => some (s.handleOf part p.1 p.2 true false true)

/-- The granules of a process written at the start of its segment, tagged where they hold a handle (01 R54, 14 R438 step 6), whatever ISIZE is (log
entry 91). -/
def State.writeEnds (s : State) (n : Net) (part : Nat) (made : List Made) (m : Made) : List (EndD × Nat) → Nat → State
  | [], _ => s
  | (e, j) :: rest, i =>
    let gs := s.endGranules n part made m e j i
    let c := gs.zipIdx.foldl (fun (c : Core) x =>
      c.lmWriteCap (m.sb + 16 * (i + x.2)) (natBytes 16 (match x.1 with | some h => h.toNat | none => 0)) x.1.isSome) (s.coreAt m.g)
    (s.setCore m.g c).writeEnds n part made m rest (i + gs.length)

/-- Process by process in template and replica order: image, slot, endpoints (14 R438 steps 5 to 7). -/
def State.makeProcs (s : State) (l : LRef) (net : BitVec 24) (w : Word) (n : Net) (homes : List (Nat × Nat × Nat × Nat)) :
    List (Nat × Tmpl × Nat × Nat × Nat) → State × List Made
  | [] => (s, [])
  | (ti, t, r, g, sb) :: rest =>
    let c := s.coreAt g
    let slot := c.freeSlot.getD 0
    let img := n.imageFor ti t homes
    let s1 := s.setCore g ((c.lmClear sb t.seg).lmWrite sb img)
    let m : Made := { ti := ti, r := r, g := g, sb := sb, slot := slot, eps := [] }
    let s2 := s1.setCore g (((s1.coreAt g).touchSlot slot).setProc slot (s1.launched l net w t m))
    let rings := (n.rings t).1
    let o := s2.openEnds n l.fn g slot ((n.endsOf t).zipIdx.map fun x => (x.1, x.2, rings.getD x.2 0))
    let rs := o.1.makeProcs l net w n homes rest
    (rs.1, { m with eps := o.2 } :: rs.2)

/-- The unit of a core at a barrier scope (01 R58, R59). -/
def scopeUnit (sc g : Nat) : Nat :=
  match sc with
  | 0 => quadOf g
  | 1 => clusterOf g
  | 2 => dieOf g
  | _ => 0

/-- The barriers of a launch's processes (01 R59). -/
def State.barriersOf (s : State) (ps : List PRef) : List Barrier :=
  (List.range 5).flatMap fun sc =>
    let mem := ps.filter fun r => (s.procAt r.g r.slot).bars.getLsbD sc
    let units := (mem.map fun r => scopeUnit sc r.g).foldl (fun l u => insertNat u l) []
    units.map fun u => { sc := sc, unit := u, phase := 0, members := mem.filter fun r => scopeUnit sc r.g == u, arrived := [], pending := [] }

/-- The sequencer's work for a launch whose cores are free (14 R438 steps 4 to 7). -/
def State.runLaunch (s : State) (fn lid : Nat) (w : Word) (n : Net) (plan : List (List (Nat × Nat)))
    (homes : List (Nat × Nat × Nat × Nat)) : State :=
  let l : LRef := { fn := fn, lid := lid }
  let net := BitVec.ofNat 24 (bitsOf w.toNat 63 40)
  let cores := (plan.flatten.map (·.1)).foldl (fun a g => insertNat g a) []
  let s1 := cores.foldl (fun st g => st.setCore g ((st.coreAt g).assign l net)) s
  let rows := (n.tmpls.zip plan).zipIdx.flatMap fun x => x.1.2.zipIdx.map fun y => (x.2, x.1.1, y.2, y.1.1, y.1.2)
  let a := s1.makeProcs l net w n homes rows
  let s2 := a.2.foldl (fun st m =>
    let t := n.tmpls[m.ti]?
    st.writeEnds n fn a.2 m ((match t with | some t => n.endsOf t | none => []).zipIdx) 0) a.1
  let ps := a.2.map fun m => s2.pref m.g m.slot
  let s3 := a.2.foldl (fun st m => st.setCore m.g ((st.coreAt m.g).enqueueTail m.slot)) s2
  let dyes := (ps.map fun r => (s3.procAt r.g r.slot).dye).eraseDups
  { s3 with launches := s3.launches ++ [{
      ref := l, net := net.toNat, desc := n, procs := ps, cores := cores, homes := homes, bars := s3.barriersOf ps, sweep := none, agree := 0, last := (0, 0)
      tstart := s3.time.toNat, energy0 := (dyes.map fun d => s3.madder.total d.toNat).sum, dyes := dyes, nproc := ps.length, wasHeld := false
      theld := 0, aborting := false }] }

/-- LAUNCH_START (14 R438): the launch at the head of the function's queue, once the placement engine is in service (18 R529). -/
def execLaunchStart (fn : Nat) (s : State) : Res :=
  let f := s.fnAt fn
  if !s.fnLive fn || !s.bring.placement then .next s
  else match f.queue with
    | [] => .next s
    | (lid, w, net) :: rest =>
      let s1 := s.setFn fn { f with queue := rest }
      match net with
      | none => .next (s1.refuseLaunch fn lid 3 w)
      | some n =>
        match n.place true (s.eligible fn) with
        | none => .next (s1.refuseLaunch fn lid 5 w)
        | some plan =>
          match s.placeHomes fn plan n.homes [] with
          | none => .next (s1.refuseLaunch fn lid 5 w)
          | some homes =>
            if (s.partAt fn).stopping || !plan.flatten.all fun x => s.coreFree x.1 then .next s
            else .next (s1.runLaunch fn lid w n plan homes)

/-! Frost sweeps (01 R65-R67, 14 R446). -/

/-- A process of the launch: its own or a child by SPAWN. -/
def Proc.ofLaunch (p : Proc) (l : LRef) : Bool := !p.stw && p.launch == l

/-- Where the header that a sender waits on rests: core and endpoint. -/
def State.headerAt (s : State) (hid : Nat) : Option (Nat × Nat) :=
  s.cores.findSome? fun c => c.2.eps.findSome? fun e =>
    if e.2.hq.any (fun h => h.hid == hid) || e.2.slots.any (fun y => y.hid == hid) ||
        (match e.2.grant with | some h => h.hid == hid | none => false) then some (c.1, e.1) else none

/-- An endpoint that a queue pair names as completion or delivery endpoint (16 R506). -/
def State.qpEndpoint (s : State) (g e : Nat) : Bool :=
  s.qps.any fun port => port.2.any fun q => q.2.comp == (g, e) || q.2.deliv == (g, e)

/-- The header of identity `hid`, or the answer to it, is under way from or to something outside the launch: a scale-out port, another package,
or a core of no process of the launch (01 R65; log entry 22). -/
def State.outsideBound (s : State) (l : Launch) (hid : Nat) : Bool :=
  let far (a : Node) : Bool := match a with | .core g => !l.cores.contains g | .egress => true | _ => false
  (s.net ++ s.spilled).any fun m => match m.body with
    | .work _ _ h | .farHeader _ _ _ h => h.hid == hid
    | .header _ h | .data _ h _ _ _ => h.hid == hid && far m.dst
    | .returned g _ h _ => h.hid == hid && !l.cores.contains g
    | .grant _ _ h _ _ | .done h _ | .accept h _ | .refuse h _ => h.hid == hid && far m.src
    | .bounced _ (.done h _) _ | .bounced _ (.accept h _) _ | .bounced _ (.refuse h _) _ => h.hid == hid && far m.dst
    | _ => false

/-- The process is blocked on an external endpoint, or waits on its fault channel (01 R65, 11 R402, 16 R506). -/
def State.waitsOutside (s : State) (l : Launch) (g : Nat) (p : Proc) : Bool :=
  p.pkt || (match p.blk with
    | .send _ hid _ _ _ _ => (s.farHdrs.any fun x => x.2.hid == hid) || s.outsideBound l hid || (match s.headerAt hid with
      | some (h, _) => !l.cores.contains h
      | none => false)
    | .recv _ e _ _ _ _ _ => s.qpEndpoint g e
    | .alt _ es => es.any fun e => s.qpEndpoint g e
    | _ => false)

/-- Core g is idle for the launch (01 R65). -/
def State.idleFor (s : State) (l : Launch) (g : Nat) : Bool :=
  ((s.coreAt g).procs.all fun e => !e.2.ofLaunch l.ref ||
    (e.2.state != .ready && e.2.state != .running && e.2.state != .timer && !s.waitsOutside l g e.2 && !s.engineBusy (s.pref g e.1))) &&
    !((s.clusterAt (clusterOf g)).journal.any fun c => c.who.g == g && c.launch == l.ref && c.finished.isNone) &&
    !(s.net.any fun m => match m.body with
      | .returned _ _ h _ => h.launch == l.ref && m.dst == .core g
      | .bounced _ (.header _ h) _ => h.launch == l.ref && m.dst == .core g
      | _ => false)

/-- A launch of the state changed. -/
def State.mapLaunch (s : State) (l : LRef) (f : Launch → Launch) : State :=
  { s with launches := s.launches.map fun (x : Launch) => if x.ref == l then f x else x }

/-- FROST_SWEEP (01 R66, 14 R446): a sweep of the launch reaches core g, which latches; none while the partition is held. -/
def execFrostSweep (part lid g : Nat) (s : State) : Res :=
  let r : LRef := { fn := part, lid := lid }
  match s.launches.find? fun x => x.ref == r with
  | none => .next s
  | some l =>
    if l.aborting || (s.partAt part).stopping then .next s
    else
      let w := l.sweep.getD { latched := [], idle := 0, sent := 0, rcvd := 0 }
      let c := s.coreAt g
      let w' : Sweep := if l.cores.contains g && !w.latched.contains g then
          { latched := g :: w.latched, idle := w.idle + (if s.idleFor l g then 1 else 0)
            sent := w.sent + c.sent.toNat, rcvd := w.rcvd + c.rcvd.toNat }
        else w
      .next (s.mapLaunch r fun x => { x with sweep := some w' })

/-! The end of a launch. -/

/-- The processes of a launch as core and slot. -/
def State.procsOf (s : State) (l : Launch) : List (Nat × Nat) :=
  l.cores.flatMap fun g => ((s.coreAt g).procs.filter fun e => e.2.ofLaunch l.ref).map fun e => (g, e.1)

/-- The report's entry of a blocked process (14 R448): PREF, PC, STATE, then scope or endpoint and core. -/
def State.reportEntry (s : State) (g k : Nat) : List Byte :=
  let p := s.procAt g k
  let x : Pc × Nat × Nat × Nat := match p.blk with
    | .send pc hid _ _ _ _ => match s.headerAt hid with | some (h, e) => (pc, 0, e, h) | none => (pc, 0, 0, 0)
    | .recv pc e _ _ _ _ _ => (pc, 0, e, g)
    | .alt pc es => (pc, 0, es.headD 0, g)
    | .barrier pc _ sc => (pc, sc, 0, 0)
    | _ => (p.pc, 0, 0, 0)
  wordBytes 8 (s.pref g k).word ++ natBytes 8 x.1.toNat ++ natBytes 1 p.state.code.toNat ++ natBytes 1 x.2.1 ++ natBytes 2 x.2.2.1 ++
    natBytes 2 x.2.2.2 ++ natBytes 10 0

/-- The live processes of a launch in ascending order of PREF. -/
def State.liveProcs (s : State) (l : Launch) : List (Nat × Nat) :=
  ((s.procsOf l).filter fun x => (s.procAt x.1 x.2).state != .stopped).mergeSort fun a b =>
    decide ((s.pref a.1 a.2).word.toNat ≤ (s.pref b.1 b.2).word.toNat)

/-- The request of a message in flight that writes, as identity. -/
def Msg.writeOf (m : Msg) : Option (Nat × PRef) :=
  match m.body with
  | .req r => match r.op with
    | .write _ _ _ _ => some (r.oid, r.who)
    | .atomic _ _ _ _ _ _ _ => some (r.oid, r.who)
    | _ => none
  | _ => none

/-- The identities of everything that is still on its way in the package (01 R68): queued writes, stores, atomics and reductions going to their
homes, those sent to other packages, third-party reads with their deliveries, headers for other packages, scale-out requests; with the
process or launch that sent each. -/
def State.inFlight (s : State) : List (Nat × PRef ⊕ Nat × LRef) :=
  ((s.clusters.flatMap fun c => c.2.wq) ++ s.egress).map (fun e => .inl (e.oid, e.who)) ++
    (s.net.filterMap Msg.writeOf).map .inl ++ (s.farOut.map fun r => .inl (r.oid, r.who)) ++
    (s.hbm.flatMap fun e => e.2.held.map fun r => .inl (r.1.oid, r.1.who)) ++
    ((s.tprs.filter fun t => !t.ended).map fun t => .inr (t.k, t.launch)) ++ (s.farHdrs.map fun x => .inr (x.2.hid, x.2.launch)) ++
    (s.net.filterMap fun m => match m.body with
      | .farHeader _ _ _ h | .work _ _ h => some (.inr (h.hid, h.launch))
      | _ => none) ++
    (s.qps.flatMap fun port => port.2.flatMap fun q => q.2.reqs.map fun (r : WorkReq) => .inr (r.wid, r.launch))

/-- The identity of something on its way. -/
def flightId : Nat × PRef ⊕ Nat × LRef → Nat
  | .inl x => x.1
  | .inr x => x.1

/-- What a launch's processes still have on its way, by identity (01 R68). -/
def State.queuedOf (s : State) (l : Launch) : List Nat :=
  s.inFlight.filterMap fun x => match x with
    | .inl (o, w) => if l.cores.contains w.g then some o else none
    | .inr (o, r) => if r == l.ref then some o else none

/-- The write sets of a launch discarded (02 R114), its snapshots ended (07 R270). -/
def State.dropVersions (s : State) (l : LRef) : State :=
  let mine : Owner → Bool | .set r _ => r == l | _ => false
  { s with
    hbm := s.hbm.map fun e => (e.1, { e.2 with tent := e.2.tent.filter fun x => !mine x.1 })
    setLog := s.setLog.filter fun x => !mine x.own
    tss := { s.tss with snaps := s.tss.snaps.filter fun x => x.launch != l || x.tx } }

/-- A process of an ended launch leaves its slot: waits, holds and endpoints end (14 R438, 01 R22). -/
def State.retireProc (s : State) (g k : Nat) : State :=
  if !(s.coreAt g).holdsProc k then s
  else
    let w := s.windUp g k (s.procAt g k)
    if (w.1.coreAt g).holdsProc k then
      let c := (w.1.coreAt g).dequeue k
      w.1.setCore g ((if c.run = some k then c.unrun else c).reclaim k)
    else w.1

/-- Entries that forward to the cores of an ended launch are closed (14 R442). -/
def State.endForwarding (s : State) (cores : List Nat) : State :=
  let f (x : Endp) : Endp := if x.st == .forwarding && cores.contains x.fwd.1 then { Endp.zero with gen := x.gen } else x
  { s with cores := s.cores.map fun e => (e.1, { e.2 with eps := e.2.eps.map fun x => (x.1, f x.2) }) }

/-- A launch ends with a status (01 R67, 14 R438, R447): report and record are made, processes and endpoints go, cores are released. -/
def State.endLaunch (s : State) (l : Launch) (status : Nat) : State :=
  let live := s.liveProcs l
  let blocked := if status = 1 then live.map fun x => s.reportEntry x.1 x.2 else []
  let report := if blocked.isEmpty then none else
    some ((s.fnAt l.ref.fn).rpbase.toNat + 4096 * (l.ref.lid % 16), (blocked.take 128).flatten)
  let x := s.partAt l.ref.fn
  let theld := l.theld + (if x.stopping then s.time.toNat - x.heldSince else 0)
  let energy := ((l.dyes.map fun d => s.madder.total d.toNat).sum - l.energy0) / 256
  let flags := (if 128 < blocked.length then 1 else 0) + (if l.wasHeld then 2 else 0)
  let r : Rec := {
    bytes := recordBytes l.ref.lid status flags l.net (BitVec.ofNat 64 l.tstart) s.time l.last.1 energy l.nproc (min 128 blocked.length) theld
    report := report, behind := s.queuedOf l }
  let all := s.procsOf l
  let s1 := all.foldl (fun st p => st.setProc p.1 p.2 (st.procAt p.1 p.2).killed) s
  let s2 := all.foldl (fun st p => st.retireProc p.1 p.2) s1
  let s3 := (s2.dropVersions l.ref).addRecord l.ref.fn r
  let s4 := (l.cores.foldl (fun st g => st.setCore g { st.coreAt g with lid := 0, netH := 0, fn := 0 }) s3).endForwarding l.cores
  { s4 with launches := s4.launches.filter fun y => y.ref != l.ref }

/-- SWEEP_RESULT (01 R67, 14 R446): two agreeing sweeps end the launch, DONE without a live process, else DEADLOCK. -/
def execSweepResult (part lid : Nat) (s : State) : Res :=
  let r : LRef := { fn := part, lid := lid }
  match s.launches.find? fun x => x.ref == r with
  | none => .next s
  | some l =>
    match l.sweep with
    | none => .next s
    | some w =>
      if !l.cores.all fun g => w.latched.contains g then .next s
      else
        let good := w.idle == l.cores.length && w.sent == w.rcvd
        let l' : Launch := { l with sweep := none, agree := if good then 1 else 0, last := (w.sent, w.rcvd) }
        if good && l.agree == 1 && l.last == (w.sent, w.rcvd) then
          .next (s.endLaunch l' (if (s.liveProcs l).isEmpty then 0 else 1))
        else .next (s.mapLaunch r fun _ => l')

/-! ABORT (14 R439). -/

/-- Every process of an aborting launch is parked or stopped: it is killed, and the launch ends ABORTED, or RESET where a package of it is dead (16
R491). -/
def State.finishAbort (s : State) (l : Launch) : State :=
  let live := s.liveProcs l
  if l.aborting && live.all fun x => (s.procAt x.1 x.2).pkh || (s.procAt x.1 x.2).pkt then
    (live.foldl (fun st x => if (st.procAt x.1 x.2).state = .stopped then st else st.killAt x.1 x.2) s).endLaunch l l.endStatus
  else s

/-- A running launch is aborted: its processes are parked, then killed. It ends with a status, the first one given. -/
def State.abortLaunch (s : State) (r : LRef) (status : Nat := 2) : State :=
  match s.launches.find? fun x => x.ref == r with
  | none => s
  | some l =>
    let l1 : Launch := { l with aborting := true, sweep := none, endStatus := if l.aborting then l.endStatus else status }
    ((s.liveProcs l).foldl (fun st x => st.parkOne x.1 x.2) (s.mapLaunch r fun _ => l1)).finishAbort l1

/-- ABORT (14 R439). -/
def execAbort (fn : Nat) (w : Word) (s : State) : Res :=
  if !s.fnLive fn then .next s
  else
    let lid := bitsOf w.toNat 15 0
    let f := s.fnAt fn
    match f.queue.find? fun x => x.1 == lid with
    | some q => .next ((s.setFn fn { f with queue := f.queue.filter fun x => x.1 != lid }).refuseLaunch fn lid 2 q.2.1)
    | none => .next (s.abortLaunch { fn := fn, lid := lid })

/-- COMPLETION_RECORD (14 R447, R448, 01 R68): the oldest waiting record is written, its report first, once its launch's writes have drained
and the ring has room. A launch whose ABORT waited for a process past its point of no return ends here. -/
def execCompletionRecord (fn : Nat) (s : State) : Res :=
  match s.launches.find? fun l => l.ref.fn == fn && l.aborting && ((s.liveProcs l).all fun x => (s.procAt x.1 x.2).pkh || (s.procAt x.1 x.2).pkt) with
  | some l => .next (s.finishAbort l)
  | none =>
    let f := s.fnAt fn
    match f.records with
    | [] => .next s
    | r :: rest =>
      let size := 2 ^ (f.crctl.toNat % 16)
      let flight := s.inFlight.map flightId
      let queued (o : Nat) : Bool := flight.contains o
      if size ≤ (f.crprod - f.crcons).toNat || r.behind.any queued then .next s
      else
        let c := clusterOf (s.partAt fn).steward
        let u := firmware fn c (BitVec.ofNat 16 (4096 * fn))
        let s1 := match r.report with
          | some (a, b) => (s.devWrite u (b.length / 128 + 2) (a % 2 ^ 52) b).1
          | none => s
        let s2 := (s1.devWrite u 2 ((f.crbase.toNat + 64 * (f.crprod.toNat % size)) % 2 ^ 52) r.bytes).1
        let f2 := s2.fnAt fn
        let s3 := s2.setFn fn { f2 with records := rest, crprod := f2.crprod + 1 }
        .next (if f.crctl.getLsbD 4 then s3.msix fn 0 else s3)

/-- CRCONS (14 R447). -/
def execCrcons (fn : Nat) (w : Word) (s : State) : Res :=
  if !s.fnLive fn then .next s else .next (s.setFn fn { s.fnAt fn with crcons := w })

/-- HOLD (14 R449): the host request; writes change only bit 0. -/
def execHold (fn : Nat) (w : Word) (s : State) : Res :=
  let x := s.partAt fn
  if !s.fnLive fn || x.node = 0 then .next s
  else if w.getLsbD 0 then (if x.chst then .next s else .next (s.startHold fn fun y => { y with chst := true }))
  else .next (s.setPart fn { x with chst := false })

end Sys2Proof.Machine
end

