-- ==== Sys2Proof/Machine/Madder.lean ====
section
/-! DEFINITION. The Madder controller (15 R481-R483): quota comparisons (14 R456), meter flushes, correction factors, EQUOTA. -/

namespace Sys2Proof.Machine

/-- ETOTAL(p) in pJ (15 R482). -/
def State.etotal (s : State) (part : Nat) : Word := BitVec.ofNat 64 (s.madder.partTotal part / 256)

/-- One partition's comparison (14 R456): the first that finds the total at or above the quota sets CQTA. -/
def State.compareQuota (s : State) (part : Nat) : State :=
  let x := s.partAt part
  if x.node ≠ 0 && !x.cqta && decide (x.equota ≤ s.etotal part) then s.startHold part fun y => { y with cqta := true } else s

/-- QUOTA_COMPARISON (14 R456): every partition's total is compared with its quota, once the controller is in service (18 R529). -/
def execQuotaComparison (s : State) : Res :=
  if !s.bring.madder then .next s else .next ((s.parts.map (·.1)).foldl State.compareQuota s)

/-- METER_FLUSH (15 R482). -/
def execMeterFlush (u : Nat) (s : State) : Res := if !s.bring.madder then .next s else .next { s with madder := s.madder.flush u }

/-- The correction factor in units of 1/65536 (15 R483): (M + D) / E, clamped to 0.5 and 2; 1 when E is zero. -/
def nextFactor (m d : Int) (e : Nat) : Nat :=
  if e = 0 then 65536 else ((m + d) * 65536 / (e : Int)).toNat |> max 32768 |> min 131072

/-- Capacity of the enabled range entries that a partition owns. -/
def State.ownedBytes (s : State) (p : Nat) : Nat := ((s.ranges.filter fun e => e.2.getLsbD 127 && rangeOwner e.2 == p).map fun e => rangeLen e.2).sum

/-- Data capacity of the package's memory servers. -/
def State.dataBytes (s : State) : Nat := ((List.range Config.numServers).map fun v => serverCapacity (s.serverAt v).poolCfg).sum

/-- Account 0 of a partition (15 R484). -/
def account0 (p : Nat) : Nat := 4096 * p

/-- The standing energy of a millisecond on a rail by dye (15 R484, R485): leakage and retention of each core to its partition, refresh and standby by
owned capacity, idle links to dye 0. No hold changes them. -/
def State.standingShares (s : State) (rail k : Nat) : List (Nat × Nat) :=
  match rail with
  | 1 =>
    let total := Config.standing k 1 1024
    let own := (List.range 16).map fun p => (account0 p, total * s.ownedBytes p / s.dataBytes)
    own ++ [(0, total - (own.map (·.2)).sum)]
  | 2 => [(0, Config.standing k 2 1024)]
  | _ => ((List.range Config.numCores).filter fun g => !s.retired.contains (quadOf g)).map fun g =>
      (((s.partOfCore g).map account0).getD 0, Config.standing k rail g)

/-- The servers' pool scrub over a millisecond, charged to account 0 of each range's owner (15 R484). -/
def State.poolScrub (s : State) (k : Nat) : State :=
  (s.ranges.filter fun e => e.2.getLsbD 127).foldl (fun st e =>
    st.charge (meterServer ((rangeServers e.2).headD 0)) (BitVec.ofNat 16 (account0 (rangeOwner e.2))) .hbm (Config.poolScrub k e.1)) s

/-- Amounts added to the controller's counters as they are (15 R484). -/
def Madder.stand (m : Madder) (l : List (Nat × Nat)) : Madder :=
  { m with counters := l.foldl (fun t x => Tbl.put t x.1 (Tbl.get 0 t x.1 + x.2)) m.counters }

/-- CORRECTION_FACTOR (15 R483-R485): a millisecond of a rail ends with its measured energy in 1/256 pJ: the standing shares are charged, and the carry
takes the error of the rest. -/
def execCorrectionFactor (rail measured : Nat) (s : State) : Res :=
  if 4 ≤ rail || !s.bring.madder then .next s
  else
    let s1 := if rail = 1 then s.poolScrub s.freeCtr else s
    let stand := s.standingShares rail s.freeCtr
    let m := s1.madder.stand stand
    let net : Int := (measured : Int) - ((stand.map (·.2)).sum : Int)
    let d : Int := m.carry.getD rail 0 + net - (m.charged.getD rail 0 : Int)
    .next { s1 with
      freeCtr := s.freeCtr + 1
      madder := { m with
        carry := m.carry.set rail d
        factors := m.factors.set rail (nextFactor net d (m.metered.getD rail 0))
        charged := m.charged.set rail 0
        metered := m.metered.set rail 0 } }

/-- EQUOTA (15 R482): CQTA clears only when the quota is set above the total. -/
def execEquota (part : Nat) (w : Word) (s : State) : Res :=
  if !s.fnLive 0 || 15 < part then .next s
  else
    let x := s.partAt part
    .next (s.setPart part { x with equota := w, cqta := x.cqta && decide (w ≤ s.etotal part) })

end Sys2Proof.Machine
end

