-- ==== Sys2Proof/Machine/Partition.lean ====
section
/-! DEFINITION. Partition commands (15 R472-R477): CREATE, DESTROY, MERGE, SPLIT, RETIRE, and the migration of processes (14 R442, 01 R57). -/

namespace Sys2Proof.Machine

/-- The PCSTAT codes (15 R473). -/
def pcOk : Nat := 0
/-- BAD_OP. -/
def pcBadOp : Nat := 1
/-- BAD_NODE. -/
def pcBadNode : Nat := 2
/-- NOT_FREE. -/
def pcNotFree : Nat := 3
/-- NOT_IDLE. -/
def pcNotIdle : Nat := 4
/-- BAD_PART. -/
def pcBadPart : Nat := 5
/-- NO_LIVE_CORE. -/
def pcNoLiveCore : Nat := 6
/-- BAD_IMAGE. -/
def pcBadImage : Nat := 7

/-- PCCMD is taken now: the firmware runs and no command is in progress (15 R473, 18 R534). -/
def State.pcReady (s : State) : Bool := s.fnLive 0 && s.pcRetire.isNone

/-- A command ends with a status (15 R473). -/
def State.pcDone (s : State) (st : Nat) : State := { s with pcStatus := BitVec.ofNat 8 st }

/-- The leaves of a node (15 R472). -/
def nodeLeaves (n : Nat) : List Nat := (List.range 16).filter (nodeHasLeaf n)

/-- The live cores of a node, in ascending order (15 R472, R474). -/
def State.nodeCores (s : State) (n : Nat) : List Nat :=
  (List.range Config.numCores).filter fun g => nodeHasLeaf n (clusterOf g / 4) && s.quadLive (quadOf g)

/-- The partition that a node is assigned to. -/
def State.nodeOwner (s : State) (n : Nat) : Option Nat := (s.parts.find? fun e => e.2.node == n).map (·.1)

/-- No launch is queued or running and no hold cause is in force (15 R473). -/
def State.partIdle (s : State) (p : Nat) : Bool :=
  (s.fnAt p).queue.isEmpty && (s.launches.all fun l => l.ref.fn != p) && !(s.partAt p).anyHold

/-! Zeroing (15 R474 step 1). -/

/-- A core with its LM and its engines zero; slots and endpoints keep their generations, which outlive their contents (01 R30, 13 R410). -/
def Core.clean (c : Core) : Core :=
  { Core.zero with
    gens := c.procs.foldl (fun t e => Tbl.put t e.1 (Tbl.get 0 t e.1 + 1)) c.gens
    eps := c.eps.map fun e => (e.1, { Endp.zero with gen := e.2.gen })
    vheld := c.vheld, weight := c.weight, fenced := c.fenced }

/-- A leaf's LM, CM and DM quarter zero, charged to dye 0 (15 R474, R484, R538). -/
def State.zeroLeaf (s : State) (j : Nat) : State :=
  let in_ (g : Nat) : Bool := clusterOf g / 4 == j
  let live := ((List.range Config.numCores).filter fun g => in_ g && s.quadLive (quadOf g)).length
  let d := s.dieAt (j / 4)
  let q := j % 4 * Config.dmQuarter
  let s1 : State := { s with
    cores := s.cores.map fun e => if in_ e.1 then (e.1, e.2.clean) else e
    clusters := s.clusters.map fun e => if e.1 / 4 == j then (e.1, { e.2 with cm := [], cmTags := [], cmBad := [] }) else e }
  let s2 := s1.setDie (j / 4) {
    dm := Mem.zero d.dm q Config.dmQuarter, dmTags := clearTags d.dmTags q Config.dmQuarter, dmBad := endBad d.dmBad q Config.dmQuarter }
  let u := meterCluster (4 * j)
  ((s2.charge u 0 .lm (live * (Config.lmSize / 64))).charge u 0 .cm (4 * (Config.cmSize / 64))).charge u 0 .dm (Config.dmQuarter / 64)

/-! CREATE (15 R474). -/

/-- The firmware at work for no partition (15 R474): the physical function's DVAs, dye 0. -/
def firmwareUnit : Unit_ := firmware 0 0 0

/-- The DVAs from which the firmware may read a steward object's `n` bytes. -/
def imageAt (dva n : Nat) : Bool := decide (dva + n ≤ 2 ^ 52)

/-- A code object read by the firmware at a DVA (15 R474). -/
def State.firmwareObject (s : State) (dva : Nat) : Option (List Byte) := (s.readObject firmwareUnit dva (imageAt dva)).1

/-- The fault channel's place in the first steward's segment (13 R417). -/
def Tmpl.faultRing (t : Tmpl) : Nat := roundUp t.image.length 64

/-- The fault channel as CREATE opens it (13 R417). -/
def Endp.faultChannel (x : Endp) (part owner ring : Nat) : Endp :=
  { Endp.zero with
    st := .buffered, ek := 1, esz := 63, mode := true, depth := 31, owner := owner, acc := 1#16 <<< part, gen := x.gen
    ring := BitVec.ofNat 32 ring }

/-- A steward process as CREATE makes it (13 R408, 15 R474). -/
def State.stewardProc (s : State) (part : Nat) (t : Tmpl) (sb slot : Nat) : Proc :=
  { Proc.zero with
    pc := t.entry
    lastPc := t.entry
    stw := true
    mode := true
    pri := t.pri
    pceil := t.pri
    dye := BitVec.ofNat 16 (4096 * part)
    vseen := BitVec.ofNat 64 s.tss.v
    sb := BitVec.ofNat 19 sb
    sl := BitVec.ofNat 19 (sb + t.seg)
    stg := BitVec.ofNat 6 slot }

/-- The stewards of a net created on core g in template order; the granules of their ends are zero and untagged (15 R474). -/
def State.makeStewards (s : State) (part g : Nat) (n : Net) (homes : List (Nat × Nat × Nat × Nat)) :
    List (Nat × Tmpl × Nat) → State
  | [] => s
  | (ti, t, sb) :: rest =>
    let c := s.coreAt g
    let slot := c.freeSlot.getD 0
    let c1 := ((c.lmClear sb t.seg).lmWrite sb (n.imageFor ti t homes)).lmClear sb (16 * n.granuleCount t)
    ((s.setCore g (((c1.touchSlot slot).setProc slot (s.stewardProc part t sb slot)).enqueueTail slot)).makeStewards part g n homes rest)

/-- The steward image of an object for a partition: its net, segments and homes; none is BAD_IMAGE (15 R474). -/
def State.stewardImage (s : State) (part g : Nat) (obj : Option (List Byte)) :
    Option (Net × List Nat × List (Nat × Nat × Nat × Nat)) :=
  match obj.bind parseObject with
  | none => none
  | some x =>
    let n := x.stored 0
    let plain := n.tmpls.all fun t => t.count == 1 && t.shape == 0
    let ring := match n.tmpls with | t :: _ => decide (t.faultRing + 2048 ≤ t.seg) | [] => false
    if !plain || !ring || s.checkNet part { x with net := n } 0 ≠ 0 then none
    else match n.place false [g] with
      | none => none
      | some plan => (s.placeHomes part plan n.homes []).map fun h => (n, plan.flatten.map (·.2), h)

/-- Steps 2 to 5 of CREATE on a steward core, from an object (15 R474); none is BAD_IMAGE. -/
def State.openPart (s : State) (part node g : Nat) (img : Word) (obj : Option (List Byte)) : Option State :=
  let s1 := s.setPart part { s.partAt part with
    node := node, steward := g, domains := [], equota := 0xFFFFFFFFFFFFFFFF, img := img, chst := false, cqta := false, cqsc := false
    cres := false, stopping := false, full := false, held := false, resetting := false }
  match s1.stewardImage part g obj with
  | none => none
  | some (n, bases, homes) =>
    let c := s1.coreAt g
    let e := c.freeEp.getD 0
    let first := match n.tmpls with | t :: _ => t.faultRing | [] => 0
    let s2 := s1.setEp g e ((s1.epAt g e).faultChannel part (c.freeSlot.getD 0) first)
    let s3 := s2.setPart part { s2.partAt part with fcidx := e }
    some (s3.makeStewards part g n homes (n.tmpls.zipIdx.zip bases |>.map fun x => (x.1.2, x.1.1, x.2)))

/-- CREATE's work, or the status of its failure (15 R474): the object is read before the leaves are zeroed. -/
def State.createPart (s : State) (node part : Nat) : Except Nat State :=
  match s.nodeCores node with
  | [] => .error pcNoLiveCore
  | g :: _ =>
    let obj := s.firmwareObject s.pcimg.toNat
    let s0 := (s.readObject firmwareUnit s.pcimg.toNat (imageAt s.pcimg.toNat)).2
    match ((nodeLeaves node).foldl State.zeroLeaf s0).openPart part node g s.pcimg obj with
    | none => .error pcBadImage
    | some s1 => .ok s1

/-- The second partition of a command cannot take a node: it has one, or its function is not enabled (15 R474). -/
def State.partTaken (s : State) (part : Nat) : Bool := (s.partAt part).node != 0 || !s.fnLive part

/-- CREATE (15 R474). -/
def execCreate (node part : Nat) (s : State) : Res :=
  if !s.pcReady then .next s
  else if node = 0 || 31 < node then .next (s.pcDone pcBadNode)
  else if s.partTaken part then .next (s.pcDone pcBadPart)
  else if (nodeLeaves node).any fun j => s.parts.any fun e => nodeHasLeaf e.2.node j then .next (s.pcDone pcNotFree)
  else match s.askObject firmwareUnit s.pcimg.toNat (imageAt s.pcimg.toNat) with
  | some s1 => .next s1
  | none => match s.createPart node part with
    | .error st => .next (s.pcDone st)
    | .ok s1 => .next (s1.pcDone pcOk)

/-! DESTROY, MERGE and SPLIT (15 R475). -/

/-- The steward processes of a partition: core and slot. -/
def State.stewards (s : State) (part : Nat) : List (Nat × Nat) :=
  (s.partCores part).flatMap fun g => ((s.coreAt g).procs.filter fun e => e.2.stw).map fun e => (g, e.1)

/-- A process killed wherever it stands, and its slot given up (13 R421). -/
def State.removeProc (s : State) (x : Nat × Nat) : State :=
  let c := s.coreAt x.1
  let s1 := (s.setCore x.1 (if c.run = some x.2 then c.unrun else c)).killAt x.1 x.2
  let d := s1.coreAt x.1
  if d.holdsProc x.2 then s1.setCore x.1 (d.reclaim x.2) else s1

/-- Every steward of the partition can be killed now: none is past a point of no return (07 R278, R280). -/
def State.stewardsFree (s : State) (part : Nat) : Bool := (s.stewards part).all fun x => !(s.procAt x.1 x.2).committed

/-- DESTROY's effect (15 R475): stewards killed, the fault channel closed, domain entries disabled, leaves freed. -/
def State.destroyPart (s : State) (part : Nat) : State :=
  let x := s.partAt part
  let s1 := (s.stewards part).foldl State.removeProc s
  let s2 := s1.closeEp x.steward x.fcidx
  s2.setPart part { s2.partAt part with node := 0, domains := [] }

/-- DESTROY (15 R475). -/
def execDestroy (part : Nat) (s : State) : Res :=
  if !s.pcReady then .next s
  else if (s.partAt part).node = 0 then .next (s.pcDone pcBadPart)
  else if !s.partIdle part then .next (s.pcDone pcNotIdle)
  else if !s.stewardsFree part then .next s
  else .next ((s.destroyPart part).pcDone pcOk)

/-- The range entries of a partition given to another (15 R475). -/
def State.giveRanges (s : State) (from_ dst : Nat) : State :=
  { s with ranges := s.ranges.map fun e =>
      if rangeOwner e.2 == from_ && e.2.getLsbD 127 then
        (e.1, e.2.extractLsb' 124 4 ++ BitVec.ofNat 4 dst ++ e.2.extractLsb' 0 120)
      else e }

/-- MERGE (15 R475): the left child's partition takes the node. -/
def execMerge (node : Nat) (s : State) : Res :=
  if !s.pcReady then .next s
  else if node = 0 || 15 < node then .next (s.pcDone pcBadNode)
  else match s.nodeOwner (2 * node), s.nodeOwner (2 * node + 1) with
    | some l, some r =>
      if !s.partIdle l || !s.partIdle r then .next (s.pcDone pcNotIdle)
      else if !s.stewardsFree r then .next s
      else
        let s1 := (nodeLeaves (2 * node + 1)).foldl State.zeroLeaf (s.destroyPart r)
        let s2 := s1.setPart l { s1.partAt l with node := node }
        .next ((s2.giveRanges r l).pcDone pcOk)
    | _, _ => .next (s.pcDone pcBadNode)

/-- SPLIT (15 R475): the holder keeps the left child, and the command's partition is created on the right one. -/
def execSplit (node part : Nat) (s : State) : Res :=
  if !s.pcReady then .next s
  else if node = 0 || 15 < node then .next (s.pcDone pcBadNode)
  else match s.nodeOwner node with
    | none => .next (s.pcDone pcBadNode)
    | some l =>
      if !s.partIdle l then .next (s.pcDone pcNotIdle)
      else if s.partTaken part then .next (s.pcDone pcBadPart)
      else if (s.nodeCores (2 * node)).isEmpty then .next (s.pcDone pcNoLiveCore)
      else match s.askObject firmwareUnit s.pcimg.toNat (imageAt s.pcimg.toNat) with
      | some s1 => .next s1
      | none => match (s.setPart l { s.partAt l with node := 2 * node }).createPart (2 * node + 1) part with
        | .error st => .next (s.pcDone st)
        | .ok s1 => .next (s1.pcDone pcOk)

/-- BAD_OP (15 R473): any other operation. -/
def execBadOp (op : BitVec 4) (s : State) : Res :=
  if !s.pcReady || (op != 0 && op ≤ 5) then .next s else .next (s.pcDone pcBadOp)

/-! A process under a new name (14 R442). -/

/-- A process reference renamed. -/
def PRef.rename (a b r : PRef) : PRef := if r = a then b else r

/-- A header of a renamed process. -/
def Hdr.rename (a b : PRef) (h : Hdr) : Hdr :=
  match h.from_ with
  | .proc r => { h with from_ := .proc (r.rename a b) }
  | .trap r => { h with from_ := .trap (r.rename a b) }
  | .exit r => { h with from_ := .exit (r.rename a b) }
  | _ => h

/-- A request of a renamed process; the queues it went behind have drained. -/
def GReq.rename (a b : PRef) (r : GReq) : GReq := if r.who = a then { r with who := b, behind := [], behindEq := [] } else r

/-- A message's body with a process renamed. -/
def Body.rename (a b : PRef) : Body → Body
  | .header e h => .header e (h.rename a b)
  | .returned g e h d => .returned g e (h.rename a b) d
  | .grant g e h x y => .grant g e (h.rename a b) x y
  | .data e h x y z => .data e (h.rename a b) x y z
  | .done h c => .done (h.rename a b) c
  | .accept h c => .accept (h.rename a b) c
  | .refuse h c => .refuse (h.rename a b) c
  | .farHeader p g e h => .farHeader p g e (h.rename a b)
  | .req r => .req (r.rename a b)
  | .resp r x t u v w y z => .resp (r.rename a b) x t u v w y z
  | .ack r x y => .ack (r.rename a b) x y
  | .err r c => .err (r.rename a b) c
  | .notice t => .notice t
  | .work p q h => .work p q (h.rename a b)
  | .bounced g x d => .bounced g (x.rename a b) d
  | .release r sc phase => .release (r.rename a b) sc phase

/-- A message with a process renamed. -/
def Msg.rename (a b : PRef) (m : Msg) : Msg := { m with body := m.body.rename a b }

/-- An endpoint with a process renamed. -/
def Endp.rename (a b : PRef) (x : Endp) : Endp :=
  { x with hq := x.hq.map (Hdr.rename a b), grant := x.grant.map (Hdr.rename a b) }

/-- Every place that names a process, renamed; its finished copies come along to its new cluster. -/
def State.rename (s : State) (a b : PRef) : State :=
  let f := PRef.rename a b
  let from_ := clusterOf a.g
  let mine := ((s.clusterAt from_).journal.filter fun c => c.who == a).map fun (c : Copy) => { c with who := b }
  let s1 := if from_ = clusterOf b.g then s else
    s.setCluster from_ { s.clusterAt from_ with journal := (s.clusterAt from_).journal.filter fun c => c.who != a }
  let dst := s1.clusterAt (clusterOf b.g)
  let s2 := if from_ = clusterOf b.g then
      s1.setCluster from_ { dst with journal := dst.journal.map fun (c : Copy) => if c.who == a then { c with who := b } else c }
    else s1.setCluster (clusterOf b.g) { dst with journal := dst.journal ++ mine }
  { s2 with
    cores := s2.cores.map fun e => (e.1, { e.2 with eps := e.2.eps.map fun x => (x.1, x.2.rename a b) })
    net := s2.net.map (Msg.rename a b)
    spilled := s2.spilled.map (Msg.rename a b)
    hbm := s2.hbm.map fun e => (e.1, { e.2 with held := e.2.held.map fun r => (r.1.rename a b, r.2) })
    egress := s2.egress.map fun (e : WqE) => { e with who := f e.who }
    farOut := s2.farOut.map (GReq.rename a b)
    farHdrs := s2.farHdrs.map fun x => (x.1, x.2.rename a b)
    tprs := s2.tprs.map fun (t : Tpr) => if t.who == a then { t with who := b, behind := [], behindEq := [] } else t
    tss := { s2.tss with txs := s2.tss.txs.map fun e => (e.1, { e.2 with who := f e.2.who }) }
    launches := s2.launches.map fun (l : Launch) => { l with
      procs := l.procs.map f
      bars := l.bars.map fun (x : Barrier) =>
        { x with members := x.members.map f, arrived := x.arrived.map f, pending := x.pending.map f } } }

/-- A segment with its tags and errors from one core's LM to another's (14 R442). -/
def Core.takeSegment (c : Core) (src : Core) (sb len dst : Nat) : Core :=
  let c1 := c.lmWrite dst (src.lmRead sb len)
  { c1 with
    lmTags := (src.lmTags.filter fun t => decide (sb ≤ 16 * t) && decide (16 * t < sb + len)).foldl
      (fun l t => insertNat (t + dst / 16 - sb / 16) l) c1.lmTags
    lmBad := (src.lmBad.filter fun w => decide (sb ≤ 8 * w) && decide (8 * w < sb + len)).foldl
      (fun l w => insertNat (w + dst / 8 - sb / 8) l) c1.lmBad }

/-- The queue pairs that name endpoints of core g in a list name the same indices of core h (01 R57, 16 R504). -/
def State.redirectQps (s : State) (g h : Nat) (own : List Nat) : State :=
  let f (x : Nat × Nat) : Nat × Nat := if x.1 = g && own.contains x.2 then (h, x.2) else x
  { s with qps := s.qps.map fun port => (port.1, port.2.map fun (q : Nat × Qp) => (q.1, { q.2 with comp := f q.2.comp, deliv := f q.2.deliv })) }

/-- Slot k of core g moved to slot j of core h, its segment to an offset (01 R57, 14 R442): live registers only (R19); its endpoints keep their
indices and generations, queue pairs follow them, and the old entries forward. The notice that its snapshot is revoked comes along (07 R273). -/
def State.moveProc (s : State) (g k h j sb : Nat) : State :=
  let p := s.procAt g k
  let a := s.pref g k
  let src := s.coreAt g
  let own := src.owned k
  let n := p.segLen
  let q : Proc := { p with
    regs := Vector.ofFn fun (i : Fin 16) => if p.live.getLsbD i.val then p.regs[i] else 0
    sb := BitVec.ofNat 19 sb, sl := BitVec.ofNat 19 (sb + n), stg := BitVec.ofNat 6 j }
  let told := (p.sm || p.txid != 0) && s.tss.revoked p.snap.toNat
  let dst0 := ((s.coreAt h).takeSegment src p.sb.toNat n sb).setProc j q
  let dst : Core := if told then { dst0 with notices := insertNat p.snap.toNat dst0.notices } else dst0
  let dst1 := own.foldl (fun (c : Core) e =>
    let x := src.epAt e
    c.setEp e { x with owner := j, child := none }) dst
  let src1 := own.foldl (fun (c : Core) e =>
    c.setEp e { Endp.zero with st := .forwarding, gen := (src.epAt e).gen, fwd := (h, e) }) ((src.dequeue k).reclaim k)
  let s1 := (s.setCore g src1).setCore h dst1
  let s2 := ((s1.charge g p.dye .lm (n / 64)).charge h p.dye .lm (n / 64)).carry g (.core h) p.dye n
  (s2.rename a (s2.pref h j)).redirectQps g h own

/-! RETIRE (15 R476). -/

/-- The templates of a net, one for each process it creates, in table and replica order. -/
def Net.perProc (n : Net) : List Tmpl := n.tmpls.flatMap fun t => List.replicate t.count t

/-- The template of a process of a launch that the sequencer made. -/
def Launch.tmplOf (l : Launch) (r : PRef) : Option Tmpl := (l.procs.zip l.desc.perProc).findSome? fun x => if x.1 = r then some x.2 else none

/-- The conditions of 01 R57, 12 R403 and 14 R442 on the process itself. -/
def State.canMove (s : State) (l : Launch) (t : Tmpl) (g k : Nat) : Bool :=
  let p := s.procAt g k
  let blocked := match p.state with | .chan => true | .timer => true | .barrier => true | _ => false
  let children := ((s.coreAt g).owned k).any fun e => match (s.epAt g e).child with
    | some j => (s.coreAt g).holdsProc j && (s.procAt g j).state != .stopped
    | none => false
  blocked && !p.pkt && decide (p.segLen ≤ 65536) && (s.tileAt g).owner != some k && !s.engineBusy (s.pref g k) && !p.xv && !children &&
    p.txid == 0 && (l.desc.endsOf t).all fun e => e.recv || decide (l.desc.granules e ≤ 1)

/-- The shape unit of a core under a shape code (14 R440). -/
def sameUnit (shape g h : Nat) : Bool :=
  match shape with
  | 1 => quadOf g == quadOf h
  | 2 => clusterOf g == clusterOf h
  | 3 => dieOf g == dieOf h
  | 4 => dieOf g == dieOf h
  | _ => true

/-- The destination of a process that leaves a quad (14 R441, R442): core and segment base. -/
def State.moveTarget (s : State) (l : Launch) (t : Tmpl) (g k quad : Nat) : Option (Nat × Nat) :=
  let placed := (l.procs.zip l.desc.perProc).filter fun x => x.1 != s.pref g k
  let meshDies := (placed.filter fun x => x.2.shape == 4 && t.shape != 4).map fun x => dieOf x.1.g
  let own := (s.coreAt g).owned k
  let cand := (s.eligible l.ref.fn).filter fun h =>
    let c := s.coreAt h
    quadOf h != quad && sameUnit t.shape g h && !meshDies.contains (dieOf h) && (c.lid == 0 || c.launch == l.ref) && c.freeSlot.isSome &&
      own.all fun e => (c.epAt e).st == .closed
  let use : Tbl Use := cand.foldl (fun u h =>
    let c := s.coreAt h
    Tbl.put u h { cnt := (c.procs.filter fun e => e.2.ofLaunch l.ref).length
                  segs := c.procs.map fun e => (e.2.sb.toNat, e.2.segLen), eps := 0 }) []
  l.desc.bestCore { t with seg := (s.procAt g k).segLen } cand use (placed.map fun x => (x.2, x.1.g))

/-- One process of a quad moved when it can be: none when its launch is to be aborted. -/
def State.vacateProc (s : State) (quad g k : Nat) : Option State :=
  let p := s.procAt g k
  match s.launches.find? fun l => l.ref == p.launch with
  | none => some s
  | some l =>
    match l.tmplOf (s.pref g k) with
    | none => none
    | some t =>
      if !s.canMove l t g k then none
      else match s.moveTarget l t g k quad with
        | none => none
        | some (h, sb) =>
          let c := s.coreAt h
          let s1 := if c.lid = 0 then (s.setCore h (c.assign l.ref (BitVec.ofNat 24 l.net))).mapLaunch l.ref fun x =>
            { x with cores := insertNat h x.cores } else s
          some (s1.moveProc g k h (c.freeSlot.getD 0) sb)

/-- The processes of a quad moved one after another (15 R476 step 2), and the launches to abort. -/
def State.vacate (s : State) (quad : Nat) : List (Nat × Nat) → State × List LRef
  | [] => (s, [])
  | x :: rest =>
    match s.vacateProc quad x.1 x.2 with
    | some s1 => s1.vacate quad rest
    | none =>
      let r := s.vacate quad rest
      (r.1, (s.procAt x.1 x.2).launch :: r.2)

/-- Steward processes can move whole to a core: slots, segments and endpoint indices are free there (15 R476 step 4). -/
def State.stewardsFit (s : State) (g h : Nat) : Bool :=
  let c := s.coreAt g
  let d := s.coreAt h
  c.procs.all fun e => !d.holdsProc e.1 && (d.procs.all fun x => !overlaps e.2.sb.toNat e.2.segLen x.2.sb.toNat x.2.segLen) &&
    (c.owned e.1).all fun i => (d.epAt i).st == .closed

/-- The stewards of core g moved whole to core h, with their order in the ready queues and their tile unit. -/
def State.moveStewards (s : State) (part g h : Nat) : State :=
  let c := s.coreAt g
  let queued := c.rq0 ++ c.rq1 ++ c.rq2 ++ c.rq3
  let kids := c.eps.filterMap fun e => e.2.child.map fun k => (e.1, k)
  let s1 := (c.procs.map (·.1)).foldl (fun st k => st.moveProc g k h k (st.procAt g k).sb.toNat) s
  let s2 := queued.foldl (fun st k => st.setCore h ((st.coreAt h).enqueueTail k)) s1
  let s3 := kids.foldl (fun st e => st.setEp h e.1 { st.epAt h e.1 with child := some e.2 }) s2
  let s4 := if c.tile.owner.isSome then (s3.setTile h c.tile).setTile g Tile.zero else s3
  s4.setPart part { s4.partAt part with steward := h }

/-- Step 4 of 15 R476: a launch that stands in the way of the stewards on their new core is aborted (log entry 27). -/
def State.relocateStewards (s : State) (part quad : Nat) : State :=
  let g := (s.partAt part).steward
  if quadOf g ≠ quad then s
  else match (s.partCores part).find? fun h => quadOf h != quad with
    | none => s
    | some h =>
      let s1 := if s.stewardsFit g h then s else s.abortLaunch (s.coreAt h).launch
      if s1.stewardsFit g h then s1.moveStewards part g h else s1

/-- The host is told that HELD has cleared, where it was set (16 R495). -/
def State.heldCleared (s : State) (part : Nat) (was : Bool) : State := if was then s.msix part 1 else s

/-- Step 1 of 15 R476: the partition of a quad is held with cause CRES; HELD clears in a host hold that had come to it. -/
def State.beginRetire (s : State) (quad part : Nat) : State :=
  { (s.startHold part fun y => { y with cres := true, held := false }).heldCleared part (s.partAt part).held with pcRetire := some (quad, part) }

/-- Of the quads whose retirement has waited for another one, the first that can be retired starts (17 R519); one that no partition holds any more is out of
service at once, and a partition's last stays. -/
def State.nextRetire (s : State) : Nat → State
  | 0 => s
  | n + 1 =>
    match s.retireQueue with
    | [] => s
    | (q, p) :: rest =>
      let s1 := { s with retireQueue := rest }
      let live := s1.partCores p
      if s1.retired.contains q then s1.nextRetire n
      else if !live.any fun g => quadOf g == q then { s1 with retired := insertNat q s1.retired }.nextRetire n
      else if live.any fun g => quadOf g != q then s1.beginRetire q p
      else s1.nextRetire n

/-- Steps 2 to 5 of 15 R476, once the hold has settled: messages that the quad's cores caught are passed on, and the next retirement that waits starts. -/
def State.retireQuad (s : State) (quad part : Nat) : State :=
  let cores := (s.partCores part).filter fun g => quadOf g == quad
  let ps := cores.flatMap fun g => ((s.coreAt g).procs.filter fun e => !e.2.stw && e.2.state != .stopped).map fun e => (g, e.1)
  let v := s.vacate quad ps
  let s1 := v.2.eraseDups.foldl (fun st l => st.abortLaunch l) v.1
  let s2 := s1.relocateStewards part quad
  let s3 : State := { s2 with retired := insertNat quad s2.retired }
  let s4 := cores.foldl State.replay s3
  let x := s4.partAt part
  { s4.setPart part { x with cres := false } with pcRetire := none, pcStatus := 0 }.nextRetire s4.retireQueue.length

/-- Every write that the processes of a quad's cores have issued has been performed (03 R137). -/
def State.quadPerformed (s : State) (quad part : Nat) : Bool :=
  ((s.partCores part).filter fun g => quadOf g == quad).all fun g => (s.coreAt g).procs.all fun e => e.2.stores.isEmpty

/-- RETIRE (15 R476): it starts the hold, and when that has settled, vacates the quad and takes it out of service. The quad's own partition is
held; the command's PART names nothing here. In a host hold that has come to HELD, the bit clears and the image is written once more, after the
migration (R477). -/
def execRetire (quad _part : Nat) (s : State) : Res :=
  match s.pcRetire with
  | some (q, p) => if q = quad && s.holdSettled p true && s.quadPerformed q p then .next (s.retireQuad q p) else .next s
  | none =>
    if !s.pcReady || 256 ≤ quad then .next s
    else match s.parts.find? fun e => nodeHasLeaf e.2.node (quad / 16) with
      | none => .next ({ s with retired := insertNat quad s.retired }.pcDone pcOk)
      | some (p, _) =>
        if !(s.partCores p).any fun g => quadOf g != quad then .next (s.pcDone pcNoLiveCore)
        else .next (s.beginRetire quad p)

end Sys2Proof.Machine
end

