-- ==== Sys2Proof/Machine/Mailbox.lean ====
section
/-! DEFINITION. The firmware mailbox (16 R496, R497): page table, domain and range tables, copy weights, far map, queue pairs, sparing, poison. -/

namespace Sys2Proof.Machine

/-! Commands. -/

/-- MBSTAT codes (16 R496). -/
inductive MbStatus where
  | ok | refused | badOp
  deriving DecidableEq, Repr

/-- The code of a mailbox status. -/
def MbStatus.code : MbStatus → BitVec 8
  | .ok => 0 | .refused => 1 | .badOp => 2

/-- A command of the mailbox ends (16 R495, R496): its arguments, sequence and status stand in the registers, and vector 3 is raised. -/
def State.mbDone (s : State) (o : MbOps) (st : MbStatus) : State :=
  (s.setFn o.fn { s.fnAt o.fn with mbarg := #v[o.a0, o.a1, o.a2, o.a3], mbSeq := o.seqn, mbStatus := st.code }).msix o.fn 3

/-- The partition that a command applies to (16 R497): the physical function names any; the others must leave MBARG3 zero. -/
def mbPart (o : MbOps) : Option Nat :=
  if o.fn = 0 then some (bitsOf o.a3.toNat 3 0) else if o.a3 = 0 then some o.fn else none

/-- A mailbox command (16 R497): `f` answers the new state, or none to refuse. -/
def State.mailbox (s : State) (o : MbOps) (pf : Bool) (f : Nat → Option State) : Res :=
  if !s.fnLive o.fn then .next s
  else if pf && o.fn != 0 then .next (s.mbDone o .refused)
  else match (mbPart o).bind f with
    | some s1 => .next (s1.mbDone o .ok)
    | none => .next (s.mbDone o .refused)

/-- A mailbox command that reads memory first waits for it (02 R110, 16 R493). -/
def State.mailboxAfter (s : State) (o : MbOps) (ask : Nat → Option State) (f : Nat → Option State) : Res :=
  match (if s.fnLive o.fn then (mbPart o).bind ask else none) with
  | some s1 => .next s1
  | none => s.mailbox o false f

/-- MAILBOX_BAD_OP (16 R496, R497): operations 1 to 9, SPAREROW and POISONSET exist. -/
def execMailboxBadOp (o : MbOps) (op : BitVec 8) (s : State) : Res :=
  if !s.fnLive o.fn || (op != 0 && op ≤ 11) then .next s else .next (s.mbDone o .badOp)

/-! TDI errors (16 R498). -/

/-- The key slots of a partition freed (16 R499). -/
def State.dropKeys (s : State) (part : Nat) : State := { s with keys := s.keys.filter fun e => e.2.part != part }

/-- The TDI of a function goes to ERROR (16 R498): vector 5, its key slots dropped. Only a locked or running one does. -/
def State.tdiFault (s : State) (fn : Nat) : State :=
  let f := s.fnAt fn
  if f.tdi = .locked ∨ f.tdi = .run then ((s.setFn fn { f with tdi := .error }).msix fn 5).dropKeys fn else s

/-! The page table (15 R457-R463, R471). -/

/-- A table entry of 8 bytes written by the firmware as a plain write, charged to dye 0. -/
def State.writeEntry (s : State) (a : Nat) (e : Word) : State :=
  match s.hbmHome a with
  | some v => (s.hbmWrite v a (wordBytes 8 e) false 0 0).1
  | none => s

/-- A table of 4 KiB zeroed. -/
def State.zeroTable (s : State) (a : Nat) : State :=
  (List.range 32).foldl (fun st i =>
    match st.hbmHome (a + 128 * i) with
    | some v => (st.hbmWrite v (a + 128 * i) (List.replicate 128 0) false 0 0).1
    | none => st) s

/-- The level at which a size code's leaves stand, and the log2 of a slot there (15 R457). -/
def leafLevel (sz : Nat) : Nat × Nat := if sz ≤ 4 then (1, 12) else if sz ≤ 9 then (2, 21) else (3, 30)

/-- An entry written at a level of the walk of a DVA, from a table of level n (15 R457): missing tables are taken from the fresh ones. None
when a larger leaf stands in the way or no fresh table is left. -/
def State.setEntry (s : State) (level dva : Nat) (e : Word) : Nat → Nat → List Nat → Option (State × List Nat)
  | 0, _, _ => none
  | n + 1, table, fresh =>
    let a := table + 8 * tableIndex (n + 1) dva
    if n + 1 = level then some (s.writeEntry a e, fresh)
    else match s.tableEntry a with
      | none => none
      | some p =>
        match bitsOf p.toNat 1 0 with
        | 1 => s.setEntry level dva e n (bitsOf p.toNat 51 12 * 4096) fresh
        | 2 => none
        | _ => match fresh with
          | [] => none
          | t :: rest => ((s.zeroTable t).writeEntry a (BitVec.ofNat 64 (t + 1))).setEntry level dva e n t rest

/-- Every entry of a leaf's group written (15 R459). -/
def State.setGroup (s : State) (level slot dva : Nat) (e : Word) : Nat → List Nat → Option (State × List Nat)
  | 0, fresh => some (s, fresh)
  | n + 1, fresh =>
    match s.setEntry level (dva + n * 2 ^ slot) e 4 s.ptroot fresh with
    | some (s1, f1) => s1.setGroup level slot dva e n f1
    | none => none

/-- Leaf i of a PTMAP and those after it (16 R497). -/
def State.mapLeaves (s : State) (e : Word) (dva : Nat) : Nat → Nat → List Nat → Option State
  | 0, _, _ => some s
  | n + 1, i, fresh =>
    let z := (pageLog (bitsOf e.toNat 7 4)).getD 12
    let l := leafLevel (bitsOf e.toNat 7 4)
    let leaf := e + BitVec.ofNat 64 (i * 2 ^ z)
    match s.setGroup l.1 l.2 (dva + i * 2 ^ z) leaf (2 ^ (z - l.2)) fresh with
    | some (s1, f1) => s1.mapLeaves e dva n (i + 1) f1
    | none => none

/-- The cached leaves that meet a DVA range dropped from every cluster's translation cache (15 R463). -/
def State.dropTranslations (s : State) (dva n : Nat) : State :=
  { s with clusters := s.clusters.map fun e => (e.1, { e.2 with
      tc := e.2.tc.filter fun x => !overlaps x.1 (2 ^ x.2.2) dva n
      tp := e.2.tp.filter fun x => !overlaps (x.2.1 * pointerSpan x.1) (pointerSpan x.1) dva n }) }

/-- A DVA range meets an enabled domain entry of the partition. -/
def State.meetsDomains (s : State) (part dva n : Nat) : Bool :=
  (s.partAt part).domains.any fun e => match domainEntry e.2 with
    | some (b, m, _) => overlaps b m dva n
    | none => false

/-- Every byte of a DPA range lies in range entries of the partition (15 R471), taken entry after entry. -/
def State.ownsDpa (s : State) (part : Nat) : Nat → Nat → Nat → Bool
  | 0, _, n => n == 0
  | fuel + 1, a, n =>
    n == 0 || match s.rangeAt a with
      | some e =>
        rangeOwner e == part && s.ownsDpa part fuel (rangeBase e + rangeLen e) (a + n - (rangeBase e + rangeLen e))
      | none => false

/-- TDIs that a page-table change of another function moves to ERROR (16 R498). -/
def State.pageFault (s : State) (fn dva n : Nat) : State :=
  (List.range 16).foldl (fun st q => if q != 0 && q != fn && s.meetsDomains q dva n then st.tdiFault q else st) s

/-- A fresh table that the firmware may use: aligned HBM that belongs to the physical function (15 R457, R469). -/
def State.freshOk (s : State) (t : Nat) : Bool := t % 4096 == 0 && s.ownsDpa 0 17 t 4096

/-- A prepared transaction holds a line that a change of the page table reads or writes (02 R110): the walks of its slots, and the tables that it may
take. -/
def State.tableHeld (s : State) (dva slot n : Nat) (tables : List Nat) : Bool :=
  ((List.range (n / 2 ^ slot)).any fun i => (s.walkSteps (dva + i * 2 ^ slot) 4 s.ptroot).any fun x => (s.lineAt (x.2.1 / 128)).prep.isSome) ||
    tables.any fun t => (List.range 32).any fun i => (s.lineAt (t / 128 + i)).prep.isSome

/-- Bytes of DVAs that a PTMAP or PTUNMAP of a size code and count changes, in slots of which log2. -/
def mapSpan (sz count : Nat) : Nat × Nat := (count * 2 ^ (pageLog sz).getD 12, (leafLevel sz).2)

/-- PTMAP (16 R497, 15 R471): `tables` are the pages that the firmware takes for missing tables; it waits at prepared lines. -/
def execPtmap (o : MbOps) (tables : List Nat) (s : State) : Res :=
  let m := mapSpan (bitsOf o.a1.toNat 7 4) o.a2.toNat
  s.mailboxAfter o (fun _ => if s.tableHeld o.a0.toNat m.2 m.1 tables then some s else none) fun part =>
    let dva := o.a0.toNat
    let e := o.a1
    let count := o.a2.toNat
    let zero := bitsOf e.toNat 63 52 == 0 && bitsOf e.toNat 11 8 == 0 && bitsOf e.toNat 3 2 == 0
    match pageLog (bitsOf e.toNat 7 4) with
    | none => none
    | some z =>
      let addr := bitsOf e.toNat 51 12 * 4096
      let n := count * 2 ^ z
      let host := e.getLsbD 51
      if bitsOf e.toNat 1 0 ≠ 2 || !zero || dva % 2 ^ z != 0 || addr % 2 ^ z != 0 || decide (2 ^ 51 < dva + n) then none
      else if decide (2 ^ 51 < addr % 2 ^ 51 + n) || (!host && !s.ownsDpa part 17 addr n) then none
      else if (!host) && (List.range 16).any (fun q => q != part && s.meetsDomains q dva n) then none
      else if !tables.all s.freshOk then none
      else (s.mapLeaves e dva count 0 tables).map fun st => (st.dropTranslations dva n).pageFault o.fn dva n

/-- The leaf of a size that translates a DVA made invalid, wherever its group's entries stand (16 R497). -/
def State.clearEntry (s : State) (level dva sz : Nat) : Nat → Nat → State
  | 0, _ => s
  | n + 1, table =>
    let a := table + 8 * tableIndex (n + 1) dva
    match s.tableEntry a with
    | none => s
    | some p =>
      if n + 1 = level then (if bitsOf p.toNat 1 0 = 2 ∧ bitsOf p.toNat 7 4 = sz then s.writeEntry a 0 else s)
      else if bitsOf p.toNat 1 0 = 1 then s.clearEntry level dva sz n (bitsOf p.toNat 51 12 * 4096)
      else s

/-- PTUNMAP (16 R497); it waits at prepared lines. -/
def execPtunmap (o : MbOps) (s : State) : Res :=
  let m := mapSpan o.a1.toNat o.a2.toNat
  s.mailboxAfter o (fun _ => if s.tableHeld o.a0.toNat m.2 m.1 [] then some s else none) fun _ =>
    let dva := o.a0.toNat
    let sz := o.a1.toNat
    match pageLog sz with
    | none => none
    | some z =>
      let n := o.a2.toNat * 2 ^ z
      if dva % 2 ^ z ≠ 0 ∨ 2 ^ 51 < dva + n then none
      else
        let l := leafLevel sz
        let st := (List.range (n / 2 ^ l.2)).foldl (fun (st : State) i => st.clearEntry l.1 (dva + i * 2 ^ l.2) sz 4 st.ptroot) s
        some ((st.dropTranslations dva n).pageFault o.fn dva n)

/-! Domain and range tables (15 R465, R469-R471). -/

/-- An entry that DOMSET takes (15 R465): not enabled, or aligned, below the window, and clear of every other enabled entry. -/
def State.domainOk (s : State) (part idx : Nat) (e : Word) : Bool :=
  match domainEntry e with
  | none => true
  | some (b, n, _) =>
    let sz := bitsOf e.toNat 15 10
    bitsOf e.toNat 62 52 == 0 && bitsOf e.toNat 9 6 == 0 && decide (16 ≤ sz ∧ sz ≤ 51) && !e.getLsbD 51 && b % n == 0 &&
      s.parts.all fun q => q.2.domains.all fun x => (q.1 == part && x.1 == idx) || match domainEntry x.2 with
        | some (c, m, _) => !overlaps b n c m
        | none => true

/-- DOMSET (16 R497, 15 R465, R467): PLB entries of the replaced one are invalidated. -/
def execDomset (o : MbOps) (s : State) : Res :=
  s.mailbox o false fun part =>
    let idx := o.a0.toNat
    if 256 ≤ idx || !s.domainOk part idx o.a1 then none
    else
      let x := s.partAt part
      let s1 := match domainEntry (Tbl.get 0 x.domains idx) with
        | some (b, n, _) => s.plbDrop part b n
        | none => s
      some ((s1.setPart part { x with domains := Tbl.put x.domains idx o.a1 }).tdiFault part)

/-- Bytes of each server of an entry that the entry takes (15 R470). -/
def rangeShare (e : BitVec 128) : Nat := rangeLen e / (rangeServers e).length

/-- The enabled entries of a table that include a server, lowest first. -/
def serverEntries (ranges : Tbl (BitVec 128)) (v : Nat) : List (Nat × BitVec 128) :=
  ranges.filter fun e => e.2.getLsbD 127 && (rangeServers e.2).contains v

/-- O of an entry on a server (15 R470): the shares of the lower-numbered entries there. -/
def shareBase (ranges : Tbl (BitVec 128)) (i v : Nat) : Nat :=
  ((serverEntries ranges v).map fun e => if e.1 < i then rangeShare e.2 else 0).sum

/-- The server and server-local offset of a DPA (15 R470). -/
def physOf (ranges : Tbl (BitVec 128)) (dpa : Nat) : Option (Nat × Nat) :=
  match ranges.find? fun e => rangeHolds e.2 dpa with
  | none => none
  | some (i, e) =>
    let l := rangeServers e
    let q := (dpa - rangeBase e) / rangeGran e
    match l[q % l.length]? with
    | none => none
    | some v => some (v, shareBase ranges i v + q / l.length * rangeGran e + (dpa - rangeBase e) % rangeGran e)

/-- The DPA that a server-local offset has, if any (15 R470). -/
def dpaOf (ranges : Tbl (BitVec 128)) (v off : Nat) : Option Nat :=
  (serverEntries ranges v).findSome? fun e =>
    let o := shareBase ranges e.1 v
    let l := rangeServers e.2
    if o ≤ off ∧ off < o + rangeShare e.2 then
      let g := rangeGran e.2
      some (rangeBase e.2 + ((off - o) / g * l.length + l.idxOf v) * g + (off - o) % g)
    else none

/-- The lines of HBM by server and place, as they lie in the servers under the present table. -/
def State.physLines (s : State) : List (Nat × Nat × Line) :=
  (s.hbm.filterMap fun e => (physOf s.ranges (e.1 * 128)).map fun p => (p.1, p.2, e.2)) ++
    s.hbmIdle.map fun e => (e.1 / 2 ^ 24, e.1 % 2 ^ 24 * 128, e.2)

/-- A new range table: every line keeps its place in its server, and has the DPA that the new table gives that place (15 R470). -/
def State.setRanges (s : State) (ranges : Tbl (BitVec 128)) : State :=
  let place (st : State) (x : Nat × Nat × Line) : State :=
    match dpaOf ranges x.1 x.2.1 with
    | some d => { st with hbm := Tbl.put st.hbm (d / 128) x.2.2 }
    | none => { st with hbmIdle := Tbl.put st.hbmIdle (x.1 * 2 ^ 24 + x.2.1 / 128) x.2.2 }
  let log := s.setLog.filterMap fun x => ((physOf s.ranges (x.line * 128)).bind fun p => dpaOf ranges p.1 p.2).map fun d =>
    { x with line := d / 128 }
  { s.physLines.foldl place { s with hbm := [], hbmIdle := [] } with ranges := ranges, setLog := log }

/-- An entry that RANGESET takes (15 R469, R470, 18 R529): on ready servers, and not enabled, or well formed, with the room on its servers, and clear of
every other enabled entry. -/
def State.rangeOk (s : State) (idx : Nat) (e : BitVec 128) : Bool :=
  let others := s.ranges.filter fun x => x.1 != idx
  let l := rangeServers e
  l.all (fun v => (s.serverAt v).ready) && (!e.getLsbD 127 ||
    (bitsOf e.toNat 126 124 == 0 && bitsOf e.toNat 75 42 == 0 && decide (bitsOf e.toNat 111 108 ≤ 8) && decide (1 ≤ bitsOf e.toNat 41 21) &&
      decide (rangeBase e + rangeLen e ≤ 2 ^ 51) && !l.isEmpty &&
      rangeLen e % (l.length * rangeGran e) == 0 &&
      (others.all fun x => !x.2.getLsbD 127 || !overlaps (rangeBase e) (rangeLen e) (rangeBase x.2) (rangeLen x.2)) &&
      l.all fun v => decide (((serverEntries (Tbl.put others idx e) v).map fun x => rangeShare x.2).sum ≤ serverCapacity (s.serverAt v).poolCfg)))

/-- An enabled entry may change now (15 R471): its owner does not exist, or is held with its queued writes drained. -/
def State.rangeFree (s : State) (idx : Nat) : Bool :=
  let e := Tbl.get 0 s.ranges idx
  let x := s.partAt (rangeOwner e)
  let mine (w : WqE) : Bool := w.part == rangeOwner e
  !e.getLsbD 127 || x.node == 0 || (x.anyHold && s.holdSettled (rangeOwner e) true && !(s.egress.any mine) && s.clusters.all fun c => !(c.2.wq.any mine))

/-- RANGESET (16 R497, 15 R469-R471). -/
def execRangeset (o : MbOps) (s : State) : Res :=
  s.mailbox o true fun _ =>
    let idx := o.a0.toNat
    let e : BitVec 128 := o.a2 ++ o.a1
    if 16 ≤ idx || !s.rangeOk idx e || !s.rangeFree idx then none
    else some ((s.setRanges (Tbl.put s.ranges idx e)).tdiFault (rangeOwner e))

/-- CEWEIGHT (16 R497, 15 R480): weights 1 to 8. -/
def execCeweight (o : MbOps) (s : State) : Res :=
  s.mailbox o true fun _ =>
    let g := o.a0.toNat
    let w := o.a1.toNat
    if Config.numCores ≤ g ∨ w < 1 ∨ 8 < w then none
    else some (s.setCore g { s.coreAt g with weight := BitVec.ofNat 4 w })

/-! The far map (16 R493, R494). -/

/-- The unit that runs a mailbox command for a partition. -/
def State.mailUnit (s : State) (part : Nat) : Unit_ := firmware part (nodeFirst (s.partAt part).node) (BitVec.ofNat 16 (4096 * part))

/-- The granule at a DVA as the firmware reads it, with its tag: none where it cannot. -/
def State.farGranule (s : State) (part dva : Nat) : Option (BitVec 128 × Bool) :=
  let u := s.mailUnit part
  match (s.translate u.part u.cluster u.dye dva).1 with
  | .error _ => none
  | .ok (.far _ _ _ _) => (s.devFarAt u dva 16).map fun y => (BitVec.ofNat 128 (bytesNat y.bytes), y.cause.isNone && y.tags.getLsbD 0)
  | .ok l => some (BitVec.ofNat 128 (bytesNat (s.locRead l 16)), s.locTag l)

/-- FARMAP (16 R493): the granule is read with its tag. -/
def execFarmap (o : MbOps) (s : State) : Res :=
  let dva := o.a2.toNat
  let bad : Bool := 16 ≤ o.a0.toNat || decide (2 ^ 52 ≤ dva + 15) || dva % 16 != 0
  s.mailboxAfter o (fun part => if bad || o.a2 = 0 then none else s.devAskPiece (s.mailUnit part) (dva, 16) (.readCap false)) fun part =>
    let idx := o.a0.toNat
    let x := s.partAt part
    if 16 ≤ idx then none
    else if o.a2 = 0 then some ((s.setPart part { x with farMap := Tbl.del x.farMap idx }).tdiFault part)
    else
      let base := o.a1.toNat
      if bad then none
      else match s.farGranule part dva with
        | none => none
        | some (cap, tag) =>
          let n := bitsOf cap.toNat 95 52 + 1
          if !tag || hCk cap != 3 || base % 65536 != 0 || decide (2 ^ 51 < base + n) then none
          else if (x.farMap.any fun e => e.1 != idx && overlaps base n e.2.lbase (bitsOf e.2.cap.toNat 95 52 + 1)) ||
              !s.domainCovers part 0 257 base n then none
          else
            let s1 := s.devPay (s.mailUnit part) (dva, 16)
            some ((s1.setPart part { x with farMap := Tbl.put x.farMap idx { lbase := base, cap := cap } }).tdiFault part)

/-- FAREPOCH (16 R497): every far pointer that the partition has minted becomes stale. -/
def execFarepoch (o : MbOps) (s : State) : Res :=
  s.mailbox o false fun part =>
    let x := s.partAt part
    some (s.setPart part { x with farEpoch := x.farEpoch + 1 })

/-! Queue pairs (16 R504, R505). -/

/-- Queue pair q of a port. -/
def State.qpAt (s : State) (port q : Nat) : Option Qp := Tbl.find (Tbl.get [] s.qps port) q

/-- Queue pair q of a port replaced. -/
def State.setQp (s : State) (port q : Nat) (x : Qp) : State := { s with qps := Tbl.put s.qps port (Tbl.put (Tbl.get [] s.qps port) q x) }

/-- An endpoint that a descriptor names, as core and index; the spec gives no offsets (16 R504; log entry 28). -/
def descEndpoint (desc : List Byte) (which : Nat) : Nat × Nat :=
  let x := Config.qpField (bytesNat desc) which
  (x / 256 % 1024, x % 256)

/-- The handle to a queue pair (16 R504). -/
def State.qpHandle (s : State) (part port q : Nat) : BitVec 128 := mkHandle part s.bring.pkgid true (port + 1) q 1 63 true 31 true false false 0

/-- A message of a scale-out port to an endpoint of a core (16 R504, R505), with the dye that it carries and is charged to; a completion counts as not yet
delivered. An announcement has account 0 of the partition, for the spec names no dye (DESIGN CHOICE, log entry 96). -/
def State.qpPost (s : State) (port q part : Nat) (dye : BitVec 16) (dst : Nat × Nat) (ek : BitVec 2) (bytes : List Byte) (tag completion : Bool) : State :=
  let f := s.fresh
  let h : Hdr := { hid := f.1, from_ := .scale port q completion, part := part, dye := dye, gen := (s.epAt dst.1 dst.2).gen, ek := ek
                   len := bytes.length, bytes := bytes, tag := tag, failed := false, launch := { fn := 0, lid := 0 } }
  let s1 := match f.2.qpAt port q with
    | some x => f.2.setQp port q { x with undelivered := x.undelivered + (if completion then 1 else 0) }
    | none => f.2
  (s1.transport (.scale port) (.core dst.1) dye bytes.length).post .egress (.core dst.1) (.header dst.2 h)

/-- QPCREATE (16 R504): the port's lowest free queue pair; its handle goes to the announcement endpoint. -/
def execQpcreate (o : MbOps) (s : State) : Res :=
  let port := o.a0.toNat
  let dva := o.a1.toNat
  let bad (part : Nat) : Bool := 2 ≤ port || !s.bring.scale.getLsbD port || decide (2 ^ 52 < dva + 64) || !s.rangeHas part rightR dva 64
  s.mailboxAfter o (fun part => if bad part then none else s.devAsk (s.mailUnit part) dva 64) fun part =>
    if bad part then none
    else match s.devRead (s.mailUnit part) dva 64, (List.range 256).find? fun q => (s.qpAt port q).isNone with
      | .ok d, some q =>
        let s1 := s.devPaid (s.mailUnit part) dva 64
        let ann := descEndpoint d 2
        let x := s.epAt ann.1 ann.2
        if x.st = .closed || x.st = .forwarding || x.ek ≠ 3 || !s.coreInPart part ann.1 then none
        else
          let n : Qp := { part := part, desc := d, comp := descEndpoint d 0, deliv := descEndpoint d 1, error := false, reqs := [], counter := 0
                          retries := 0, dropped := 0, undelivered := 0, rcv := 0 }
          some ((s1.setQp port q n).qpPost port q part (hostDye part) ann 3 (natBytes 16 (s.qpHandle part port q).toNat) true false)
      | _, _ => none

/-- QPRESET (16 R505, R506): refused while completions are undelivered; the queue pair is gone. -/
def execQpreset (o : MbOps) (s : State) : Res :=
  s.mailbox o false fun part =>
    let port := o.a0.toNat
    let q := o.a1.toNat
    match s.qpAt port q with
    | none => none
    | some x =>
      if x.part ≠ part || !x.reqs.isEmpty || x.undelivered != 0 then none
      else some { s with qps := Tbl.put s.qps port (Tbl.del (Tbl.get [] s.qps port) q) }

/-! Row sparing and poison (17 R517, R518, R525). -/

/-- A remap entry (17 R517). -/
def remapEntry (row : RowId) (spare : Nat) : BitVec 64 :=
  (1#1 ++ 0#23 ++ row.bank ++ BitVec.ofBool row.pc ++ row.row ++ BitVec.ofNat 5 spare ++ 0#11 : BitVec 64)

/-- A remap entry names a row. -/
def remapNames (row : RowId) (e : BitVec 64) : Bool :=
  e.getLsbD 63 && e.extractLsb' 34 6 == row.bank && e.getLsbD 33 == row.pc && e.extractLsb' 16 17 == row.row

/-- Bank, pseudo-channel and row in one number, as the row of a line is numbered. -/
def rowNum (r : RowId) : BitVec 24 := r.bank ++ BitVec.ofBool r.pc ++ r.row

/-- The row of a number. -/
def rowIdOf (n : BitVec 24) : RowId := { bank := n.extractLsb' 18 6, pc := n.getLsbD 17, row := n.setWidth 17 }

/-- Version i of a line, in the order in-place, pool, tentative, poisoned if its row is the one named (17 R518). -/
def Line.spareLost (l : Line) (v line : Nat) (row : BitVec 24) (i : Nat) : Line :=
  let f (x : Ver) : Ver := if l.rowOf v line x = row then { x with poison := true } else x
  if i = 0 then { l with cur := f l.cur }
  else if i ≤ l.pool.length then { l with pool := l.pool.modify (i - 1) f }
  else { l with tent := l.tent.modify (i - 1 - l.pool.length) fun e => (e.1, f e.2) }

/-- A version of a line of server v that the row holds copied into the spare row uncorrected: it is poisoned (17 R518). -/
def State.spareLost (s : State) (v : Nat) (row : BitVec 24) (x : Nat × Nat) : State :=
  if s.hbmHome (x.1 * 128) = some v then s.setLine x.1 ((s.lineAt x.1).spareLost v x.1 row x.2) else s

/-- What a server has counted of a row is done with (17 R517). -/
def Server.rowDone (x : Server) (row : BitVec 24) : Server :=
  { x with rows := Tbl.del x.rows row.toNat, lostRows := x.lostRows.filter (· != row.toNat) }

/-- A row of a server spared (17 R518): no value, timestamp, tag or order changes, but that versions which cannot be corrected are poisoned; a full
table logs SPARE_FULL. -/
def State.spareRow (s : State) (v : Nat) (r : SpareRow) (dpa : Nat) : State :=
  let x := (s.serverAt v).rowDone (rowNum r.row)
  if x.remap.any (remapNames r.row) then s.setServer v x
  else if 32 ≤ x.remap.length then (s.setServer v x).logEvent 5 0xFF v dpa 0
  else
    let e := remapEntry r.row x.remap.length
    ((r.lost.foldl (fun st l => st.spareLost v (rowNum r.row) l) s).setServer v { x with remap := x.remap ++ [e] }).logEvent 4 0xFF v dpa e.toNat

/-- SPAREROW (17 R517): the row that holds a DPA of the server; another row is not the one that the server spares. -/
def execSparerow (o : MbOps) (x : SpareRow) (s : State) : Res :=
  let v := o.a0.toNat
  if s.fnLive o.fn && o.fn == 0 && s.hbmHome o.a1.toNat == some v && Config.rowOf v (o.a1.toNat / 128) != (rowNum x.row) then .next s
  else s.mailbox o true fun _ => if s.hbmHome o.a1.toNat = some v then some (s.spareRow v x o.a1.toNat) else none

/-- POISONSET (17 R525): the poison bit of the line's in-place version is set; it waits where its walk meets a prepared line. -/
def execPoisonset (o : MbOps) (s : State) : Res :=
  let bad (part : Nat) : Bool := 2 ^ 52 ≤ o.a0.toNat || !s.rangeHas part rightW o.a0.toNat 1
  s.mailboxAfter o (fun part => if !bad part && s.walkWaits part (nodeFirst (s.partAt part).node) o.a0.toNat then some s else none) fun part =>
    if bad part then none
    else
      let t := s.translate part (nodeFirst (s.partAt part).node) 0 o.a0.toNat
      match t.1 with
      | .ok (.hbm _ dpa) =>
        let l := t.2.lineAt (dpa / 128)
        some (t.2.setLine (dpa / 128) { l with cur := { l.cur with poison := true } })
      | _ => none

end Sys2Proof.Machine
end

