-- ==== Sys2Proof/Machine/HostRegs.lean ====
section
/-! DEFINITION. The host's registers (14 R430, 16 R490, R496, 17 R508, R512, R520, 18 R527) and its window onto a partition (16 R495). -/

namespace Sys2Proof.Machine

/-! Registers. -/

/-- The bring-up block answers in RECOVERY too; nothing answers while BOOTING (18 R526, R532). -/
def State.bringLive (s : State) (fn : Nat) : Bool := fn == 0 && s.bring.state != .booting

/-- A write to MSCFG(s) (17 R508): POOL 3 is ignored; a write that changes POOL has no effect while an enabled entry includes the server. -/
def State.writeMscfg (s : State) (v : Nat) (w : Word) : State :=
  let x := s.serverAt v
  let pool := w.extractLsb' 8 2
  if pool ≠ 3 ∧ pool ≠ x.poolCfg ∧ serverEntries s.ranges v ≠ [] then s
  else s.setServer v { x with poolCfg := if pool = 3 then x.poolCfg else pool, spthr := w.setWidth 8 }

/-- A write to a register of the physical function alone (14 R430, 15 R473, 16 R496, 17 R508, R519). -/
def State.writePf (s : State) (off : Nat) (w : Word) : State :=
  if off = 0x5008 then { s with pcimg := w }
  else if off = 0x7008 then { s with bring := { s.bring with autoret := w.getLsbD 0 } }
  else if 0x6000 ≤ off ∧ off < 0x6080 ∧ off % 16 = 8 then
    let i := (off - 0x6000) / 16
    s.setPort i { s.portAt i with pthr := w.setWidth 32 }
  else if 0x8000 ≤ off ∧ off < 0x9000 ∧ off % 16 = 0 then s.writeMscfg ((off - 0x8000) / 16) w
  else s

/-- A function's own register with its value replaced (14 R430, 16 R496, 17 R512, R520); other offsets change nothing. -/
def Fn.writeReg (f : Fn) (off : Nat) (w : Word) : Fn :=
  if off = 0x00 then { f with nrsrc := w }
  else if off = 0x08 then { f with nrdata := w }
  else if off = 0x30 then { f with crbase := w }
  else if off = 0x38 then { f with crctl := w.setWidth 5 }
  else if off = 0x50 then { f with rpbase := w }
  else if off = 0x68 then { f with ctxbase := w }
  else if off = 0x2008 then { f with mbarg := f.mbarg.set 0 w }
  else if off = 0x2010 then { f with mbarg := f.mbarg.set 1 w }
  else if off = 0x2018 then { f with mbarg := f.mbarg.set 2 w }
  else if off = 0x2020 then { f with mbarg := f.mbarg.set 3 w }
  else if off = 0x4000 then { f with flbase := w }
  else if off = 0x4040 then { f with elbase := w }
  else if off = 0x4050 then { f with elcons := w }
  else if off = 0xA000 then { f with hvdst := w &&& 0xFFFFFFFFFFFFF }
  else if off = 0xA008 then { f with hvlim := w }
  else if off = 0xA010 then { f with hvprev := w }
  else f

/-- REGISTER_WRITE (14 R430): a register of a function's block with no behaviour of its own takes the value; only the physical
function's view can write CTXBASE. -/
def execRegisterWrite (v : BlockView) (off : Nat) (w : Word) (s : State) : Res :=
  if off = 0xB068 then .next (if s.bringLive v.fn then { s with bring := { s.bring with rcaddr := w } } else s)
  else if off = 0xB070 then .next (if s.bringLive v.fn then { s with bring := { s.bring with rclen := w.setWidth 32 } } else s)
  else if !s.fnLive v.fn || (off = 0x68 && !v.pf && v.fn != 0) then .next s
  else
    let s1 := s.setFn v.fn ((s.fnAt v.fn).writeReg off w)
    .next (if v.fn = 0 then s1.writePf off w else s1)

/-- Bits of a list of flags from bit 0 on. -/
def flagBits (l : List Bool) : Nat := (l.zipIdx.map fun b => if b.1 then 2 ^ b.2 else 0).sum

/-- PSTAT (16 R490). -/
def Port.pstat (p : Port) : Word :=
  BitVec.ofNat 64 (Nat.min p.replays 0xFFFFFF * 2 ^ 40 + p.slane.toNat * 2 ^ 16 + p.peer.toNat * 16 + p.width.toNat * 4 + p.state.toNat)

/-- MSSTAT (17 R508): POOLUSED, REVOKES, SPARED, the handler threads occupied, and whether Ablation runs. -/
def State.msstat (s : State) (v : Nat) : Word :=
  let x := s.serverAt v
  BitVec.ofNat 64 (s.poolUsed v * 2 ^ 40 + x.revokes * 2 ^ 24 + x.remap.length * 2 ^ 16 + x.threads.length * 2 ^ 8 + (if s.ablating v then 1 else 0))

/-- HVSTAT (17 R520). -/
def Fn.hvstat (f : Fn) : Word := BitVec.ofNat 64 ((if f.hvPsn then 256 else 0) + f.hvStatus.toNat)

/-- STATE of BUSTAT (18 R527). -/
def BootState.code : BootState → Nat
  | .booting => 0 | .running => 1 | .recovery => 2

/-- RDYMISC (18 R527). -/
def State.rdyMisc (s : State) : Nat :=
  flagBits ((List.range 8).map fun i => (s.portAt i).ready) + s.bring.scale.toNat * 2 ^ 8 + (if s.tss.ready then 2 ^ 10 else 0) +
    (if s.bring.madder then 2 ^ 11 else 0) + (if s.bring.placement then 2 ^ 12 else 0)

/-- The bring-up block (18 R527). -/
def State.readBring (s : State) (off : Nat) : Word :=
  let word (f : Nat → Bool) (i : Nat) : Word := BitVec.ofNat 64 (flagBits ((List.range 64).map fun b => f (64 * i + b)))
  if off = 0xB000 then s.bring.svn ++ BitVec.ofNat 32 s.bring.state.code
  else if off = 0xB008 then word (fun c => (s.clusterAt c).ready) 0
  else if 0xB010 ≤ off ∧ off ≤ 0xB028 then word (fun v => (s.serverAt v).ready) ((off - 0xB010) / 8)
  else if off = 0xB030 then BitVec.ofNat 64 s.rdyMisc
  else if off = 0xB038 then word (fun c => (s.clusterAt c).failed) 0
  else if 0xB040 ≤ off ∧ off ≤ 0xB058 then word (fun v => (s.serverAt v).failed) ((off - 0xB040) / 8)
  else if off = 0xB068 then s.bring.rcaddr
  else if off = 0xB070 then s.bring.rclen.setWidth 64
  else if off = 0xB080 then s.bring.rcstat.setWidth 64
  else 0

/-- A register of the physical function alone; the spec gives ETOTAL(p) and the calibrated table (15 R481, R482) no offsets (log entry 68). -/
def State.readPf (s : State) (off : Nat) : Word :=
  if 0x3000 ≤ off ∧ off < 0x3080 then s.etotal ((off - 0x3000) / 8)
  else if 0x3180 ≤ off ∧ off < 0x3200 then BitVec.ofNat 64 (s.madder.coeff.getD ((off - 0x3180) / 8) 0)
  else if 0x3100 ≤ off ∧ off < 0x3180 then (s.partAt ((off - 0x3100) / 8)).equota
  else if off = 0x5008 then s.pcimg
  else if off = 0x5010 then BitVec.ofNat 64 ((if s.pcRetire.isSome then 256 else 0) + s.pcStatus.toNat)
  else if 0x6000 ≤ off ∧ off < 0x6080 then
    let p := s.portAt ((off - 0x6000) / 16)
    if off % 16 = 0 then p.pstat else p.pthr.setWidth 64
  else if off = 0x7008 then (if s.bring.autoret then 1 else 0)
  else if 0x8000 ≤ off ∧ off < 0x9000 then
    let v := (off - 0x8000) / 16
    if off % 16 = 0 then BitVec.ofNat 64 ((s.serverAt v).poolCfg.toNat * 256 + (s.serverAt v).spthr.toNat) else s.msstat v
  else if 0xB000 ≤ off ∧ off < 0xB088 then s.readBring off
  else if 0x10000 ≤ off ∧ off < 0x20000 then (s.serverAt ((off - 0x10000) / 256)).remap.getD (off % 256 / 8) 0
  else 0

/-- What the 64 bits at an offset of BAR0 hold, in a function's view (16 R496): what is written only, and another view's registers, read as zero. -/
def State.regValue (s : State) (fn off : Nat) : Word :=
  let f := s.fnAt fn
  if off = 0x00 then f.nrsrc
  else if off = 0x08 then f.nrdata
  else if off = 0x18 then
    BitVec.ofNat 64 ((if f.nrStatus = 0 then f.nrHandle.toNat else 0) * 2 ^ 40 + (if f.nrBusy then 256 else 0) + f.nrStatus.toNat)
  else if off = 0x30 then f.crbase
  else if off = 0x38 then f.crctl.setWidth 64
  else if off = 0x40 then f.crprod
  else if off = 0x48 then f.crcons
  else if off = 0x50 then f.rpbase
  else if off = 0x60 then (s.partAt fn).holdReg
  else if off = 0x68 then f.ctxbase
  else if off = 0x2008 then f.mbarg[0]
  else if off = 0x2010 then f.mbarg[1]
  else if off = 0x2018 then f.mbarg[2]
  else if off = 0x2020 then f.mbarg[3]
  else if off = 0x2028 then BitVec.ofNat 64 (f.mbSeq.toNat * 2 ^ 16 + (if f.mbBusy then 256 else 0) + f.mbStatus.toNat)
  else if off = 0x3000 then s.etotal fn
  else if off = 0x4000 then f.flbase
  else if off = 0x4008 then f.flprod
  else if off = 0x4010 then f.flcons
  else if off = 0x4028 then f.fldrop
  else if off = 0x4040 then f.elbase
  else if off = 0x4048 then f.elprod
  else if off = 0x4050 then f.elcons
  else if off = 0x4058 then f.eldrop
  else if off = 0x7000 then BitVec.ofNat 64 s.bring.sigLeft
  else if off = 0xA000 then f.hvdst
  else if off = 0xA008 then f.hvlim
  else if off = 0xA010 then f.hvprev
  else if off = 0xA020 then f.hvstat
  else if off = 0xA028 then f.hvsnap
  else if off = 0xA030 then f.hvcnt
  else if fn = 0 then s.readPf off
  else 0

/-- What a 64-bit read of a function's BAR0 returns; none where nothing answers: nothing does while BOOTING, only the bring-up block in RECOVERY, and
only enabled functions while RUNNING (18 R526, R532). -/
def State.readReg (s : State) (fn off : Nat) : Option Word :=
  let bring := decide (0xB000 ≤ off ∧ off < 0xB088)
  if s.fnLive fn || (bring && s.bringLive fn) then some (s.regValue fn off) else none

/-! Doorbell, stewards, fault log. -/

/-- The processes of a partition that wait for its doorbell, in order of core and slot, with the register that takes it. -/
def State.doorWaiters (s : State) (part : Nat) : List (Nat × Nat × Reg) :=
  s.cores.flatMap fun c => c.2.procs.filterMap fun e =>
    match e.2.blk with
    | .doorbell _ a => if e.2.part = part ∧ e.2.state = .chan then some (c.1, e.1, a) else none
    | _ => none

/-- DBELL (13 R427, 16 R496): the bits join the doorbell, and one waiting process takes it. -/
def execDbell (fn : Nat) (w : Word) (s : State) : Res :=
  if !s.fnLive fn then .next s
  else
    let x := s.partAt fn
    let d := x.doorbell ||| w
    match s.doorWaiters fn with
    | (g, k, a) :: _ =>
      if d = 0 then .next s
      else
        let p : Proc := { s.procAt g k with blk := .none }
        .next ((s.setPart fn { x with doorbell := 0 }).wakeWith g k p a d)
    | [] => .next (s.setPart fn { x with doorbell := d })

/-- A steward process that a register write names (16 R496). -/
def State.stewardAt (s : State) (fn : Nat) (w : Word) : Option (PRef × Proc) :=
  let r := prefOf w
  match s.find r with
  | some p => if p.stw && s.coreInPart fn r.g then some (r, p) else none
  | none => none

/-- SRES (16 R496, 13 R421). -/
def execSres (fn : Nat) (w : Word) (s : State) : Res :=
  match s.stewardAt fn w with
  | some (r, p) => if s.fnLive fn && p.pkt then .next (s.resumeAt r.g r.slot) else .next s
  | none => .next s

/-- SKILL (16 R496, 13 R421). -/
def execSkill (fn : Nat) (w : Word) (s : State) : Res :=
  match s.stewardAt fn w with
  | some (r, p) => if s.fnLive fn && (p.pkt || p.pkh) then .next (s.killAt r.g r.slot) else .next s
  | none => .next s

/-- Waiting steward faults written while the log has room (16 R496). -/
def State.drainFaults (s : State) (fn : Nat) : Nat → State
  | 0 => s
  | n + 1 =>
    let f := s.fnAt fn
    match f.faultWait with
    | [] => s
    | e :: rest =>
      if (f.flprod - f.flcons).toNat < 64 then
        let s1 := (s.setFn fn { f with faultWait := [] }).faultLog fn e
        (s1.setFn fn { s1.fnAt fn with faultWait := rest }).drainFaults fn n
      else s

/-- FLCONS (16 R496). -/
def execFlcons (fn : Nat) (w : Word) (s : State) : Res :=
  if !s.fnLive fn then .next s
  else
    let s1 := s.setFn fn { s.fnAt fn with flcons := w }
    .next (s1.drainFaults fn (s1.fnAt fn).faultWait.length)

/-! BAR2 (16 R495). -/

/-- Bytes of the window (16 R495). -/
def bar2Size : Nat := 2 ^ 36

/-- The host interface unit at work for a partition (16 R495). -/
def State.hostUnit (s : State) (fn : Nat) : Unit_ :=
  { node := .host, kind := 1, part := fn, cluster := nodeFirst (s.partAt fn).node, dye := hostDye fn }

/-- What a host read finds in the pieces of a range: a poisoned line's bytes are open, and those that another package finds so (16 R495); none where a
piece has no translation, or its far pointer or the other package refuses it. -/
def State.hostBytes (s : State) (u : Unit_) (ps : List (Nat × Nat)) : Option (List Byte) :=
  (ps.mapM fun x => match s.devPiece u x with
    | .ok b => some b
    | .error .poison => some ((List.range x.2).map fun i => Config.poisonByte (x.1 + i))
    | .error _ => none).map List.flatten

/-- BAR2_READ (16 R493, R495): data, or Unsupported Request without a translation or R right; it waits for another package's answer. -/
def execBar2Read (fn addr n : Nat) (s : State) : Res :=
  if !s.fnLive fn || n = 0 || decide (bar2Size < addr + n) then .next s
  else
    let u := s.hostUnit fn
    let out (st : State) (o : HostOut) : State := { st with hostOut := st.hostOut ++ [o] }
    if !s.rangeHas fn rightR addr n then .next (out s (.unsupported fn))
    else match s.devAsk u addr n with
      | some s1 => .next s1
      | none => match s.hostBytes u (splitLines (n / 128 + 2) addr n) with
        | none => .next (out (s.devPaid u addr n) (.unsupported fn))
        | some bytes => .next (out (s.devPaid u addr n) (.readData fn bytes))

/-- A host write is possible: every piece has a translation, and its far pointer allows it. -/
def State.hostMay (s : State) (u : Unit_) (addr n : Nat) : Bool :=
  (splitLines (n / 128 + 2) addr n).all fun x => match (s.translate u.part u.cluster u.dye x.1).1 with
    | .ok (.far _ _ _ _) => (s.farCheck u.part x.1 x.2 1).isNone
    | .ok _ => true
    | .error _ => false

/-- The walks of the pieces of a unit's access, in order, up to one that has no translation (15 R461). -/
def State.unitWalks (s : State) (u : Unit_) : List (Nat × Nat) → State
  | [] => s
  | x :: t => match s.translate u.part u.cluster u.dye x.1 with
    | (.ok _, s1) => s1.unitWalks u t
    | (.error _, s1) => s1

/-- A walk of a piece of a unit's access meets a prepared line (02 R110, 15 R459). -/
def State.unitWaits (s : State) (u : Unit_) (ps : List (Nat × Nat)) : Bool := ps.any fun x => s.walkWaits u.part u.cluster x.1

/-- A host write that is dropped, and counted (16 R495). -/
def State.hostDrop (s : State) (fn : Nat) : State := s.setFn fn { s.fnAt fn with fldrop := (s.fnAt fn).fldrop + 1 }

/-- BAR2_WRITE (16 R493, R495): plain writes at their homes, charged to account 0, or dropped and counted; it waits where a walk meets a prepared
line. -/
def execBar2Write (fn addr : Nat) (bytes : List Byte) (s : State) : Res :=
  let n := bytes.length
  let u := s.hostUnit fn
  let ps := splitLines (n / 128 + 2) addr n
  if !s.fnLive fn || bytes.isEmpty || decide (bar2Size < addr + n) then .next s
  else if !s.rangeHas fn rightW addr n then .next (s.hostDrop fn)
  else if s.unitWaits u ps then .next s
  else if !s.hostMay u addr n then .next ((s.unitWalks u ps).hostDrop fn)
  else .next (s.devWrite u (n / 128 + 2) addr bytes).1

end Sys2Proof.Machine
end

