-- ==== Sys2Proof/Machine/Harvest.lean ====
section
/-! DEFINITION. Harvests (17 R520-R523): HVGO and the lines that a harvest reads at its snapshot and writes to its destination. -/

namespace Sys2Proof.Machine

/-- STATUS of HVSTAT (17 R520). -/
inductive HvStatus where
  | idle | running | done | revoked | full | fault | refused
  deriving DecidableEq, Repr

/-- Its code. -/
def HvStatus.code : HvStatus → BitVec 4
  | .idle => 0 | .running => 1 | .done => 2 | .revoked => 3 | .full => 4 | .fault => 5 | .refused => 6

/-- HVGO (17 R520): an enabled entry of the function's partition, any for the physical function; DENSE needs PREV zero. -/
def execHvgo (fn : Nat) (w : Word) (s : State) : Res :=
  if !s.fnLive fn then .next s
  else
    let f := s.fnAt fn
    let i := bitsOf w.toNat 3 0
    let e := Tbl.get 0 s.ranges i
    if f.harvest.isSome || !e.getLsbD 127 || (fn != 0 && rangeOwner e != fn) || (w.getLsbD 4 && f.hvprev != 0) then
      .next (s.setFn fn { f with hvStatus := HvStatus.refused.code })
    else
      let k := s.fresh
      let h : Harvest := { started := false, entry := i, dense := w.getLsbD 4, next := rangeBase e, out := 0, bad := [] }
      let s1 := k.2.setFn fn { f with hvStatus := HvStatus.running.code, hvPsn := false, hvcnt := 0, harvest := some h }
      .next { s1 with tss := { s1.tss with reqs := s1.tss.reqs ++
        [{ k := k.1, for_ := .harvest fn, ts := 0, issued := false, marks := [], acks := [], replied := false }] } }

/-- A harvest stops with a status and releases its snapshot (17 R521). -/
def State.stopHarvest (s : State) (fn : Nat) (st : HvStatus) : State :=
  let f := s.fnAt fn
  { s.setFn fn { f with harvest := none, hvStatus := st.code } with tss := s.tss.drop f.hvsnap.toNat false }

/-- The harvest engine at work for a partition, charged to account 0 of the entry's owner (17 R520, R521). -/
def State.harvestUnit (s : State) (fn : Nat) (dye : BitVec 16) : Unit_ :=
  { firmware fn (nodeFirst (s.partAt fn).node) dye with kind := 3 }

/-- Writes of a harvest are not yet performed. -/
def State.harvestOut (s : State) (fn : Nat) : Bool :=
  (s.devHeld.any fun x => x.u.kind == 3 && x.u.part == fn) || s.devOut (s.harvestUnit fn 0)

/-- A harvest's write at an offset of its destination (17 R521), charged to account 0 of the entry's owner: FULL past the limit, FAULT without
translation or W right. -/
def State.harvestWrite (s : State) (fn : Nat) (dye : BitVec 16) (off : Nat) (bytes : List Byte) : Except HvStatus State :=
  let f := s.fnAt fn
  let a := f.hvdst.toNat + off
  if f.hvlim.toNat < off + bytes.length then .error .full
  else if 2 ^ 52 < a + bytes.length || !s.rangeHas fn rightW a bytes.length then .error .fault
  else
    let w := s.devWrite (s.harvestUnit fn dye) (bytes.length / 128 + 2) a bytes
    if w.2 then .ok w.1 else .error .fault

/-- The header of a record (17 R522). -/
def recordHeader (dpa : Nat) (poison : Bool) : Word := BitVec.ofNat 64 ((if poison then 2 ^ 63 else 0) + dpa / 128)

/-- What follows the lines (17 R522): an all-ones header, or in dense form the poisoned lines and an all-ones word. -/
def Harvest.tail (h : Harvest) : List Byte :=
  if h.dense then (h.bad.flatMap fun d => natBytes 8 d) ++ List.replicate 8 0xFF else List.replicate 8 0xFF

/-- A line's version written as a record, or in dense form at its place (17 R521, R522). -/
def State.harvestLine (s : State) (fn : Nat) (h : Harvest) (e : BitVec 128) (v : Ver) : Except HvStatus State :=
  let data := Mem.read v.data 0 128
  let dye := hostDye (rangeOwner e)
  let w := if h.dense then s.harvestWrite fn dye (h.next - rangeBase e) data
    else s.harvestWrite fn dye h.out (wordBytes 8 (recordHeader h.next v.poison) ++ data)
  w.map fun s1 =>
    let f := s1.fnAt fn
    s1.setFn fn { f with
      hvcnt := f.hvcnt + 1
      hvPsn := f.hvPsn || v.poison
      harvest := some { h with out := h.out + (if h.dense then 128 else 136), bad := if v.poison then h.bad ++ [h.next] else h.bad } }

/-- A harvest's read of the version `v` of its next line: request, read and response at the owner's charge, with the errors it finds (17 R515, R521). The
version as it stands afterwards. -/
def State.harvestRead (s : State) (h : Harvest) (e : BitVec 128) (v : Ver) : State × Ver :=
  let dye := hostDye (rangeOwner e)
  match s.hbmHome h.next with
  | none => (s, v)
  | some srv =>
    let s1 := ((s.transport .host (.server srv) dye 0).directory srv (h.next / 128) dye).charge (meterServer srv) dye .hbm 1
    let bad := v.poison || eccFails (s1.errAt (.hbm srv h.next) 128)
    ((s1.hbmFound (rangeOwner e) srv h.next 128 dye v).transport (.server srv) .host dye 128, { v with poison := bad })

/-- Behind a harvest's last line (17 R521, R522): what follows the lines is written, and when every write has been performed the harvest is done. -/
def State.harvestTail (s : State) (fn : Nat) (h : Harvest) (e : BitVec 128) : State :=
  if h.tailed then (if s.harvestOut fn then s else s.stopHarvest fn .done)
  else match s.harvestWrite fn (hostDye (rangeOwner e)) h.out h.tail with
    | .error st => s.stopHarvest fn st
    | .ok s1 =>
      let s2 := s1.setFn fn { s1.fnAt fn with harvest := (s1.fnAt fn).harvest.map fun y => { y with tailed := true } }
      if s2.harvestOut fn then s2 else s2.stopHarvest fn .done

/-- The next lines of a harvest in ascending DPA, to its end or its stop (17 R521). -/
def State.harvestRun (s : State) (fn : Nat) : Nat → State
  | 0 => s
  | n + 1 =>
    let f := s.fnAt fn
    match f.harvest with
    | none => s
    | some h =>
      let e := Tbl.get 0 s.ranges h.entry
      let ts := f.hvsnap.toNat
      let gone := !s.tss.snaps.any fun x => x.ts == ts && !x.tx && !x.revoked
      if h.fault then s.stopHarvest fn .fault
      else if gone then s.stopHarvest fn .revoked
      else if rangeBase e + rangeLen e ≤ h.next then s.harvestTail fn h e
      else
        match (s.lineAt (h.next / 128)).snapshot ts with
        | none => s.stopHarvest fn .revoked
        | some v =>
          let x := s.harvestRead h e v
          let r := if f.hvprev = 0 || decide (f.hvprev.toNat < v.ts) then x.1.harvestLine fn h e x.2 else .ok x.1
          match r with
          | .error st => x.1.stopHarvest fn st
          | .ok s2 =>
            let f2 := s2.fnAt fn
            (s2.setFn fn { f2 with harvest := f2.harvest.map fun y => { y with next := h.next + 128 } }).harvestRun fn n

/-- HARVEST_END (17 R521): the harvest goes on over some lines; behind the last one it ends. -/
def execHarvestEnd (fn lines : Nat) (s : State) : Res :=
  match (s.fnAt fn).harvest with
  | some h => if h.started then .next (s.harvestRun fn (lines + 1)) else .next s
  | none => .next s

end Sys2Proof.Machine
end

