-- ==== Sys2Proof/Machine/BringUp.lean ====
section
/-! DEFINITION. Bring-up and resets: PERST#, the firmware image, units in service, recovery pushes, PODCFG, pod synchronisation (18 R526-R535), and
the reset of a function (16 R503). -/

namespace Sys2Proof.Machine

/-! Resets of the package. -/

/-- The package at step 2 of 18 R526: every register at its reset value, with what the nonvolatile store and the fuses keep (18 R533). The host, its
memory and what it has seen stay; the timebase goes on. -/
def State.restart (s : State) : State :=
  { State.reset with
    cycle := s.cycle
    cur := s.cur
    agenda := s.agenda
    freeCtr := s.freeCtr
    nextId := s.nextId
    hostMem := s.hostMem
    hostOut := s.hostOut
    retired := s.retired
    servers := (s.servers.filter fun e => !e.2.remap.isEmpty).map fun e => (e.1, { Server.zero with remap := e.2.remap })
    bring := { Bring.zero with minSvn := s.bring.minSvn, sigLeft := s.bring.sigLeft, tbOff := s.bring.tbOff, image := s.bring.image } }

/-- PERST_DEASSERT (18 R526 step 1): clocks start, and the timebase counts from 0. -/
def execPerstDeassert (s : State) : Res :=
  let r := s.restart
  .next { r with cycle := 0, bring := { r.bring with tbOff := 0 } }

/-- PHYSICAL_FUNCTION_RESET (18 R535): the whole package, from step 2 on, without completion records. -/
def execPhysicalFunctionReset (s : State) : Res := .next s.restart

/-! The firmware image (18 R531, R532). -/

/-- An image is accepted (18 R531): its signature verifies and its version is at or above the fused minimum. -/
def Bring.accepts (b : Bring) (verdict : PushVerdict) (svn : BitVec 32) : Bool := verdict == .good && b.minSvn ≤ svn

/-- The fused minimum after an accepted image (18 R531). -/
def Bring.fuse (b : Bring) (svn : BitVec 32) (raises : Bool) : BitVec 32 := if raises then svn else b.minSvn

/-- RCSTAT of a failed push (18 R527, R532). -/
def pushFailure (verdict : PushVerdict) : BitVec 4 :=
  match verdict with
  | .badSig => 2 | .rollback => 3 | .dmaError => 4 | .good => 3

/-- No push is under way, and RCSTAT shows how the last one ended. -/
def State.pushEnds (s : State) (c : BitVec 4) : State := { s with bring := { s.bring with rcstat := c, pushed := none } }

/-- The verification of a pushed image ends (18 R531, R532): an accepted image is stored, and the package restarts at step 2; else the stored one is
kept. -/
def State.pushVerified (s : State) (bytes : List Byte) (verdict : PushVerdict) (svn : BitVec 32) (raises : Bool) : State :=
  if s.bring.accepts verdict svn then
    let r := s.restart
    { r with bring := { r.bring with minSvn := s.bring.fuse svn raises, image := bytes, rcstat := 6 } }
  else s.pushEnds (pushFailure verdict)

/-- FIRMWARE_IMAGE_VERIFIED (18 R526 step 3, R531, R532): of the stored image, firmware runs, with the page table's root where it puts it (15 R457,
R460), or STATE becomes RECOVERY; or the verification of a pushed image ends. -/
def execFirmwareImageVerified (verdict : PushVerdict) (svn : BitVec 32) (raises : Bool) (root : Nat) (s : State) : Res :=
  match s.bring.pushed with
  | some bytes => .next (s.pushVerified bytes verdict svn raises)
  | none =>
    if s.bring.state ≠ .booting || root % 32768 != 0 || decide (2 ^ 51 ≤ root) then .next s
    else if s.bring.accepts verdict svn then
      .next { s with ptroot := root, bring := { s.bring with state := .running, svn := svn, minSvn := s.bring.fuse svn raises } }
    else .next { s with bring := { s.bring with state := .recovery } }

/-- RCGO (18 R532) of a function: any write starts a push, which is refused while RUNNING with a partition; RCLEN bytes at RCADDR are read and go to
their verification. `ok`: the host lets the device read them. -/
def execRcgo (fn : Nat) (_w : Word) (ok : Bool) (s : State) : Res :=
  if !s.bringLive fn || s.bring.pushed.isSome then .next s
  else if s.bring.state = .running && s.parts.any (fun e => e.2.node != 0) then .next (s.pushEnds 5)
  else if ok then
    .next { s with bring := { s.bring with rcstat := 1, pushed := some (Mem.read s.hostMem s.bring.rcaddr.toNat s.bring.rclen.toNat) } }
  else .next (s.pushEnds (pushFailure .dmaError))

/-! Units (18 R527-R529). -/

/-- A package quad that lies in a cluster. -/
def quadIn (c q : Nat) : Bool := q / 4 == c

/-- A cluster reports (18 R528): its memories hold zeros; failed quads are retired; without a good quad it fails. -/
def State.clusterReports (s : State) (c : Nat) (pass : Bool) (bad : List Nat) : State :=
  let x := s.clusterAt c
  let gone := (bad.filter (quadIn c)).foldl (fun l q => insertNat q l) s.retired
  let good := (List.range 4).any fun i => !gone.contains (4 * c + i)
  if Config.numClusters ≤ c || x.ready || x.failed then s
  else if pass && good then
    { s.setCluster c { Cluster.zero with ready := true } with
      retired := gone
      cores := s.cores.map fun e => if clusterOf e.1 == c then (e.1, { Core.zero with weight := e.2.weight }) else e }
  else { s.setCluster c { x with failed := true } with retired := gone }

/-- A memory server reports (18 R528): every line zero at timestamp 0. It takes the service's present values, for it had no marker of the past
snapshots (02 R99, R115). -/
def State.serverReports (s : State) (v : Nat) (pass : Bool) : State :=
  let x := s.serverAt v
  if Config.numServers ≤ v || x.ready || x.failed then s
  else if pass then
    { s.setServer v { x with ready := true, eh := s.tss.last + 1, v := s.tss.v, firn := s.tss.firn, newest := s.tss.newest } with
      tss := { s.tss with acked := Tbl.put s.tss.acked v s.tss.v } }
  else s.setServer v { x with failed := true }

/-- A Solom port reports (16 R490, 18 R528): PODCFG is written and its link has trained toward its neighbour. -/
def State.portReports (s : State) (i : Nat) : State :=
  let q := s.portAt i
  match neighbour s.bring.sizes s.bring.pkgid.toNat (i / 2) (i % 2 == 0) with
  | some peer =>
    if 8 ≤ i || !s.bring.podWritten || q.ready then s
    else s.setPort i { q with ready := true, state := 2, width := 2, peer := BitVec.ofNat 12 peer }
  | none => s

/-- UNIT_READY (18 R528): a unit ends its self-test; a failed one never reports ready. -/
def execUnitReady (u : UnitId) (pass : Bool) (failedQuads : List Nat) (s : State) : Res :=
  if s.bring.state ≠ .running then .next s
  else match u with
    | .cluster c => .next (s.clusterReports c pass failedQuads)
    | .server v => .next (s.serverReports v pass)
    | .solomPort i => .next (if pass then s.portReports i else s)
    | .scalePort i =>
      .next (if pass && decide (i < 2) then { s with bring := { s.bring with scale := s.bring.scale ||| (1#2 <<< i) } } else s)
    | .timestampService => .next (if pass then { s with tss := { s.tss with ready := true } } else s)
    | .madder => .next (if pass then { s with bring := { s.bring with madder := true } } else s)
    | .placement => .next (if pass then { s with bring := { s.bring with placement := true } } else s)

/-- PODCFG (18 R527, R530): only the first write after reset counts. -/
def execPodcfg (w : Word) (s : State) : Res :=
  if s.bring.state = .booting || s.bring.podWritten then .next s
  else .next { s with bring := { s.bring with podWritten := true, pkgid := w.extractLsb' 16 12, sizes := w.extractLsb' 4 12 } }

/-- POD_SYNCHRONISATION (18 R530): the timebase steps forward once. -/
def execPodSynchronisation (ns : Nat) (s : State) : Res :=
  if s.bring.state ≠ .running || !s.bring.podWritten || s.bring.podSynced then .next s
  else .next { s with bring := { s.bring with tbOff := s.bring.tbOff + ns, podSynced := true } }

/-! The reset of a virtual function (16 R503). -/

/-- Queued launches of a function end with status RESET. -/
def State.resetQueue (s : State) (p : Nat) : State :=
  let q := (s.fnAt p).queue
  q.foldl (fun st x => st.refuseLaunch p x.1 6 x.2.1) (s.setFn p { s.fnAt p with queue := [] })

/-- Nothing of the partition is on its way to a home, and no granted transfer is in progress on its cores (01 R37, 16 R503 step 5). -/
def State.partDrained (s : State) (p : Nat) : Bool :=
  let mine (w : WqE) : Bool := w.part == p
  !s.egress.any mine && (s.clusters.all fun c => !(c.2.wq.any mine)) &&
    (s.net.all fun m => match m.body with | .req r => r.part != p | _ => true) &&
    (s.partCores p).all fun g => (s.coreAt g).eps.all fun e => !e.2.busy

/-- Every endpoint of the partition's cores closed (16 R503 step 4). -/
def State.closeAll (s : State) (cores : List Nat) : State :=
  cores.foldl (fun st g => ((st.coreAt g).eps.map (·.1)).foldl (fun u e =>
    let x := u.epAt g e
    if x.st = .closed || x.st = .forwarding then u else u.closeNow g e) st) s

/-- Reads issued by the partition whose deliveries have not been sent deliver failed void deliveries (16 R503 step 4). -/
def State.failReads (s : State) (p : Nat) : State :=
  { s with tprs := s.tprs.map fun (t : Tpr) =>
      if t.part == p && t.fault.isNone && t.members.any (fun m => !m.sent) then { t with fault := some .closed } else t }

/-- The HBM lines of the range entries that the partition owns zeroed, their pool versions discarded (16 R503 step 6). -/
def State.zeroRanges (s : State) (p : Nat) : State :=
  let mine (l : Nat) : Bool := match s.rangeAt (l * 128) with | some e => rangeOwner e == p | none => false
  { s with hbm := s.hbm.filter fun e => !mine e.1, setLog := s.setLog.filter fun x => !mine x.line }

/-- Steps 3 to 6 (16 R503): far epoch, endpoints, memory, tables, stewards afresh from the last image. Counters and quota stand. -/
def State.finishReset (s : State) (p : Nat) : State :=
  let s1 := (s.launches.filter fun l => l.ref.fn == p).foldl (fun st l => st.endLaunch l 6) s
  let x := s1.partAt p
  let cores := s1.partCores p
  let s2 := ((s1.setPart p { x with farEpoch := x.farEpoch + 1 }).closeAll cores).failReads p
  let s3 := (s2.stewards p).foldl State.removeProc (cores.foldl State.replay s2)
  let s4 := ((nodeLeaves x.node).foldl State.zeroLeaf s3).zeroRanges p
  let s5 : State := { s4 with qps := s4.qps.map fun e => (e.1, e.2.filter fun q => q.2.part != p) }
  let y := s5.partAt p
  let calm : Part := { y with farMap := [], domains := [], chst := false, cqta := false, cqsc := false, cres := false, stopping := false, full := false
                              held := false, resetting := false }
  let s6 := if y.held then (s5.setPart p calm).msix p 1 else s5.setPart p calm
  match s6.nodeCores x.node with
  | [] => s6
  | g :: _ =>
    let o := s6.readObject firmwareUnit x.img.toNat (imageAt x.img.toNat)
    match o.2.openPart p x.node g x.img o.1 with
    | none => s6
    | some s7 => s7.setPart p { s7.partAt p with equota := x.equota }

/-- Steps 1 and 2 (16 R503): TDI unlocked, key slots freed, the partition held with cause CRES, queued launches ended. A partition without a node has
nothing to hold, and goes through the rest at once. -/
def State.beginReset (s : State) (p : Nat) : State :=
  let s1 := (s.setFn p { s.fnAt p with tdi := .unlocked, ide := false, spdm := .fresh }).dropKeys p
  let s2 := s1.resetQueue p
  if (s2.partAt p).node = 0 then s2.finishReset p else s2.startHold p fun y => { y with cres := true, resetting := true }

/-- FUNCTION_LEVEL_RESET (16 R503) of a virtual function: it begins, and goes on once the hold has settled and the partition's packets have been
performed. The physical function's reset is that of the package (18 R535). -/
def execFunctionLevelReset (fn : Nat) (s : State) : Res :=
  if fn = 0 then .next s.restart
  else if !s.fnLive fn then .next s
  else if !(s.partAt fn).resetting then .next (s.beginReset fn)
  else if s.holdSettled fn true && s.partDrained fn then
    let img := (s.partAt fn).img.toNat
    .next ((s.askObject firmwareUnit img (imageAt img)).getD (s.finishReset fn))
  else .next s

end Sys2Proof.Machine
end

