-- ==== Sys2Proof/Machine/Control.lean ====
section
/-! DEFINITION. Control transfers (06 R236-R240). A transfer completes with the PC at its target; the entry of the target's line (05
R191) is the first thing that follows, and its traps report the target (R239). -/

namespace Sys2Proof.Machine

/-- A direct branch on a condition over the process (06 R237): the target when it holds, else the next head. -/
def State.branch (s : State) (rs : List Reg) (f : Proc → Proc) (taken : Proc → Bool) (d : BitVec 46) (h : BitVec 6) : Res :=
  s.withProc fun g k p =>
    if p.awaits rs then s.stall
    else
      let q := f p
      if taken q then .next (s.jump g k q (branchTarget p.pc d h)) else .next (s.retire g k q)

/-- BR, class J: always (06 R237). -/
def execBrJ (d : BitVec 10) (h : BitVec 6) (s : State) : Res := s.branch [] id (fun _ => true) (d.signExtend 46) h

/-- BR, class L: always (06 R237). -/
def execBrL (d : BitVec 26) (h : BitVec 6) (s : State) : Res := s.branch [] id (fun _ => true) (d.signExtend 46) h

/-- A compare branch by a relation of R226 (06 R237). -/
def State.compareBranch (s : State) (r : Nat) (a b : Reg) (d : BitVec 22) (h : BitVec 6) : Res :=
  s.branch [a, b] id (fun p => relation r (p.reg a) (p.reg b)) (d.signExtend 46) h

/-- BEQ (06 R237). -/
def execBeq (a b : Reg) (d : BitVec 22) (h : BitVec 6) (s : State) : Res := s.compareBranch 0 a b d h

/-- BNE (06 R237). -/
def execBne (a b : Reg) (d : BitVec 22) (h : BitVec 6) (s : State) : Res := s.compareBranch 1 a b d h

/-- BLT (06 R237). -/
def execBlt (a b : Reg) (d : BitVec 22) (h : BitVec 6) (s : State) : Res := s.compareBranch 2 a b d h

/-- BGE (06 R237). -/
def execBge (a b : Reg) (d : BitVec 22) (h : BitVec 6) (s : State) : Res := s.compareBranch 3 a b d h

/-- BLTU (06 R237). -/
def execBltu (a b : Reg) (d : BitVec 22) (h : BitVec 6) (s : State) : Res := s.compareBranch 4 a b d h

/-- BGEU (06 R237). -/
def execBgeu (a b : Reg) (d : BitVec 22) (h : BitVec 6) (s : State) : Res := s.compareBranch 5 a b d h

/-- LOOP: the counter falls by one and the branch is taken while it is not zero (06 R237). -/
def execLoop (a : Reg) (d : BitVec 10) (h : BitVec 6) (s : State) : Res :=
  s.branch [a] (fun p => p.setReg a (p.reg a - 1)) (fun p => p.reg a != 0) (d.signExtend 46) h

/-- A transfer to a PC in a register (06 R238): a target above the 52-bit space traps SEGMENT before any effect,
with the register's value as INFO (DESIGN CHOICE, log entry 72). -/
def State.jumpTo (s : State) (a : Reg) (waits : Proc → Bool) (f : State → Nat → Proc → Proc) : Res :=
  s.withProc fun g k p =>
    if p.awaits [a] || waits p then s.stall
    else
      let t := p.reg a
      if t.extractLsb' 52 12 != 0 then .next (s.trap g k p .segment t)
      else .next (s.jump g k (f s g p) (t.setWidth 52))

/-- lk := the PC of the next head (05 R189, 06 R238). -/
def Proc.link (p : Proc) (s : State) (g : Nat) : Proc := p.setReg 15 ((s.next g p).setWidth 64)

/-- BRX (06 R238). -/
def execBrx (a : Reg) (s : State) : Res := s.jumpTo a (fun _ => false) fun _ _ p => p

/-- CALL: lk written, the registers of DMK dead, the target entered (06 R238). -/
def execCall (d : BitVec 26) (h : BitVec 6) (s : State) : Res :=
  s.withProc fun g k p =>
    if p.awaits [15] || p.awaitsDead then s.stall
    else .next (s.jump g k (p.link s g).markDead (branchTarget p.pc (d.signExtend 46) h))

/-- CALLR: the target is read before lk is written and before the dead marking (06 R238). -/
def execCallr (a : Reg) (s : State) : Res :=
  s.jumpTo a (fun p => p.awaits [15] || p.awaitsDead) fun st g p => (p.link st g).markDead

/-- RET: to lk, the registers of DMK dead (06 R238). -/
def execRet (s : State) : Res := s.jumpTo 15 Proc.awaitsDead fun _ _ p => p.markDead

end Sys2Proof.Machine
end

