-- ==== Sys2Proof/Machine/Keccak.lean ====
section
/-! DEFINITION. SHA3-384, the hash of measurements and firmware images (16 R501, 18 R531), as NIST FIPS 202 defines it (log entry 93). -/

namespace Sys2Proof.Machine

/-- The 25 lanes of the state, lane (x, y) at 5y + x. -/
abbrev Lanes := List Word

/-- Lane (x, y), indices modulo 5. -/
def Lanes.at (a : Lanes) (x y : Nat) : Word := a.getD (5 * (y % 5) + x % 5) 0

/-- Lanes from what stands at each (x, y). -/
def Lanes.build (f : Nat → Nat → Word) : Lanes := (List.range 25).map fun i => f (i % 5) (i / 5)

/-- The parity of column x. -/
def Lanes.column (a : Lanes) (x : Nat) : Word := a.at x 0 ^^^ a.at x 1 ^^^ a.at x 2 ^^^ a.at x 3 ^^^ a.at x 4

/-- The step θ. -/
def Lanes.theta (a : Lanes) : Lanes :=
  let c := (List.range 5).map a.column
  let d := (List.range 5).map fun x => c.getD ((x + 4) % 5) 0 ^^^ (c.getD ((x + 1) % 5) 0).rotateLeft 1
  Lanes.build fun x y => a.at x y ^^^ d.getD x 0

/-- Rotations of the step ρ, in the lanes' order. -/
def rhoOffsets : List Nat :=
  [0, 1, 62, 28, 27, 36, 44, 6, 55, 20, 3, 10, 43, 25, 39, 41, 45, 15, 21, 8, 18, 2, 61, 56, 14]

/-- The steps ρ and π: lane (x, y) comes from (x + 3y, x), rotated. -/
def Lanes.rhoPi (a : Lanes) : Lanes :=
  Lanes.build fun x y => (a.at (x + 3 * y) x).rotateLeft (rhoOffsets.getD (5 * x + (x + 3 * y) % 5) 0)

/-- The step χ. -/
def Lanes.chi (a : Lanes) : Lanes := Lanes.build fun x y => a.at x y ^^^ (~~~(a.at (x + 1) y) &&& a.at (x + 2) y)

/-- One round with its constant, the step ι. -/
def Lanes.round (a : Lanes) (rc : Word) : Lanes :=
  match a.theta.rhoPi.chi with
  | x :: t => (x ^^^ rc) :: t
  | [] => []

/-- The round constants. -/
def roundConstants : List Word :=
  [0x0000000000000001, 0x0000000000008082, 0x800000000000808A, 0x8000000080008000, 0x000000000000808B, 0x0000000080000001,
   0x8000000080008081, 0x8000000000008009, 0x000000000000008A, 0x0000000000000088, 0x0000000080008009, 0x000000008000000A] ++
  [0x000000008000808B, 0x800000000000008B, 0x8000000000008089, 0x8000000000008003, 0x8000000000008002, 0x8000000000000080,
   0x000000000000800A, 0x800000008000000A, 0x8000000080008081, 0x8000000000008080, 0x0000000080000001, 0x8000000080008008]

/-- The permutation Keccak-f[1600]. -/
def Lanes.permute (a : Lanes) : Lanes := roundConstants.foldl Lanes.round a

/-- The rate of SHA3-384 in bytes. -/
def sha3Rate : Nat := 104

/-- A message with the suffix 01 and the padding 10*1, which fill its last block. -/
def sha3Pad (m : List Byte) : List Byte :=
  let q := sha3Rate - m.length % sha3Rate
  if q = 1 then m ++ [0x86] else m ++ 0x06 :: List.replicate (q - 2) 0 ++ [0x80]

/-- One block taken in. -/
def Lanes.absorb (a : Lanes) (block : List Byte) : Lanes :=
  Lanes.permute ((List.range 25).map fun i => a.getD i 0 ^^^ bytesWord ((block.drop (8 * i)).take 8))

/-- The first `n` blocks of a padded message taken in. -/
def Lanes.sponge (a : Lanes) : Nat → List Byte → Lanes
  | 0, _ => a
  | n + 1, m => (a.absorb (m.take sha3Rate)).sponge n (m.drop sha3Rate)

/-- SHA3-384 of a message: the digest's 48 bytes, the first the least significant. -/
def sha3_384 (m : List Byte) : BitVec 384 :=
  let p := sha3Pad m
  let a := Lanes.sponge (List.replicate 25 0) (p.length / sha3Rate) p
  BitVec.ofNat 384 (bytesNat ((a.take 6).flatMap (wordBytes 8)))

end Sys2Proof.Machine
end

