-- ==== Sys2Proof/Machine/Device.lean ====
section
/-! DEFINITION. Functions as TEE device interfaces (16 R498, R499): TDISP, IDE, key slots; the SPDM responder (16 R501, R502); configuration writes. -/

namespace Sys2Proof.Machine

/-! TDISP (16 R498). -/

/-- A reply to a TDISP request; what the spec does not give of it is open. -/
def State.tdispReply (s : State) (fn request : Nat) (ok : Bool) (reply : Option Report := none) : State :=
  let f := s.fresh
  { f.2 with hostOut := f.2.hostOut ++ [.tdisp fn request ok (reply.getD (.open_ (Config.replyBits f.1)))] }

/-- The function is a TDI that answers: an enabled virtual function (16 R498). -/
def State.tdiLive (s : State) (fn : Nat) : Bool := fn != 0 && s.fnLive fn

/-- A TDISP request in the states that allow it. -/
def State.tdisp (s : State) (fn request : Nat) (may : Tdi → Bool) (f : State → State) (reply : Option Report := none) : Res :=
  if !s.tdiLive fn then .next s
  else if may (s.fnAt fn).tdi then .next ((f s).tdispReply fn request true reply)
  else .next (s.tdispReply fn request false)

/-- The TDI in a state. -/
def State.setTdi (s : State) (fn : Nat) (t : Tdi) : State := s.setFn fn { s.fnAt fn with tdi := t }

/-- LOCK_INTERFACE: CONFIG_UNLOCKED to CONFIG_LOCKED. -/
def execLockInterface (fn : Nat) (s : State) : Res := s.tdisp fn 0 (· == .unlocked) fun st => st.setTdi fn .locked

/-- START_INTERFACE: CONFIG_LOCKED to RUN. -/
def execStartInterface (fn : Nat) (s : State) : Res := s.tdisp fn 1 (· == .locked) fun st => st.setTdi fn .run

/-- STOP_INTERFACE: to CONFIG_UNLOCKED from any state; a TDI that leaves RUN frees its key slots (16 R499). -/
def execStopInterface (fn : Nat) (s : State) : Res :=
  s.tdisp fn 2 (fun _ => true) fun st => (st.setTdi fn .unlocked).dropKeys fn

/-- The interface report (16 R495, R498): BAR0 of 1 MiB, BAR2 of 64 GiB, BAR4 of 64 KiB with the MSI-X table at 0 and the pending bits at 0x8000; 8
vectors. -/
def interfaceReport : Report := .report [(0, 2 ^ 20), (2, 2 ^ 36), (4, 2 ^ 16)] 0 0x8000 8

/-- GET_DEVICE_INTERFACE_REPORT: in CONFIG_LOCKED and RUN. -/
def execGetDeviceInterfaceReport (fn : Nat) (s : State) : Res := s.tdisp fn 3 (fun t => t == .locked || t == .run) id (some interfaceReport)

/-- CONFIGURATION_WRITE (16 R498): a write to a virtual function's SR-IOV or BAR configuration enables it (16 R495, 18 R526), and moves a locked
or running TDI to ERROR. -/
def execConfigurationWrite (fn : Nat) (s : State) : Res :=
  if s.bring.state ≠ .running || fn = 0 || 15 < fn then .next s
  else .next ((s.setFn fn { s.fnAt fn with enabled := true }).tdiFault fn)

/-! SPDM (16 R501, R502). -/

/-- A reply to an SPDM request. -/
def State.spdmReply (s : State) (fn request : Nat) (ok : Bool) (reply : Option Report) : State :=
  let f := s.fresh
  { f.2 with hostOut := f.2.hostOut ++ [.spdm fn request ok (reply.getD (.open_ (Config.replyBits f.1)))] }

/-- The phase's place in the order of an exchange. -/
def Spdm.rank : Spdm → Nat
  | .fresh => 0 | .version => 1 | .capabilities => 2 | .negotiated => 3 | .exchanging => 4 | .session => 5

/-- An SPDM request: allowed from a phase on, with `sig` when it needs a signature, which ends in UnexpectedRequest when none is left (16 R501). -/
def State.spdm (s : State) (fn request : Nat) (may : Spdm → Bool) (sig : Bool) (f : State → State) (reply : Option Report) : Res :=
  if !s.fnLive fn then .next s
  else if !may (s.fnAt fn).spdm then .next (s.spdmReply fn request false none)
  else if sig && s.bring.sigLeft == 0 then .next (s.spdmReply fn request false (some .unexpectedRequest))
  else
    let s1 : State := if sig then { s with bring := { s.bring with sigLeft := s.bring.sigLeft - 1 } } else s
    .next ((f s1).spdmReply fn request true reply)

/-- The exchange in a phase. -/
def State.setSpdm (s : State) (fn : Nat) (p : Spdm) : State := s.setFn fn { s.fnAt fn with spdm := p }

/-- After NEGOTIATE_ALGORITHMS. -/
def Spdm.agreed (p : Spdm) : Bool := decide (3 ≤ p.rank)

/-- GET_VERSION starts the exchange anew: the device answers SPDM 1.3 (16 R501). -/
def execGetVersion (fn : Nat) (s : State) : Res := s.spdm fn 0 (fun _ => true) false (fun st => st.setSpdm fn .version) (some (.version 1 3))

/-- GET_CAPABILITIES. -/
def execGetCapabilities (fn : Nat) (s : State) : Res := s.spdm fn 1 (· == .version) false (fun st => st.setSpdm fn .capabilities) none

/-- The device's algorithms (16 R501): the signature is an extended asymmetric algorithm under the vendor's registry id. -/
def spdmAlgorithms : Report := .algorithms .sha3_384 .secp384r1 .aes256Gcm none [(.ecanmos, .xmssmtShake256_20_2_256)]

/-- NEGOTIATE_ALGORITHMS. -/
def execNegotiateAlgorithms (fn : Nat) (s : State) : Res :=
  s.spdm fn 2 (· == .capabilities) false (fun st => st.setSpdm fn .negotiated) (some spdmAlgorithms)

/-- GET_DIGESTS. -/
def execGetDigests (fn : Nat) (s : State) : Res := s.spdm fn 3 Spdm.agreed false id none

/-- GET_CERTIFICATE. -/
def execGetCertificate (fn : Nat) (s : State) : Res := s.spdm fn 4 Spdm.agreed false id none

/-- CHALLENGE: its response is signed. -/
def execChallenge (fn : Nat) (s : State) : Res := s.spdm fn 5 Spdm.agreed true id none

/-- The measurement blocks there are (16 R502). -/
def measured (idx : Nat) : Bool := decide (1 ≤ idx ∧ idx ≤ 5) || idx == 0xF0

/-- Bytes of DVAs that one entry of a table of a level serves (15 R457). -/
def entrySpan (level : Nat) : Nat := match level with | 4 => 2 ^ 39 | 3 => 2 ^ 30 | 2 => 2 ^ 21 | _ => 2 ^ 12

/-- Entries of a table of a level (15 R457, R458). -/
def tableEntries (level : Nat) : Nat := if level = 4 then 4096 else 512

/-- The bytes at a DPA and after it as current-mode reads return them, by lines. -/
def State.dpaBytes (s : State) (dpa lines : Nat) : List Byte :=
  (List.range lines).flatMap fun i => match s.hbmHome (dpa + 128 * i) with
    | some v => s.locRead (.hbm v (dpa + 128 * i)) 128
    | none => List.replicate 128 0

/-- The page-table pages that walks of a partition's DVAs read, from a table of a level on that serves the DVAs from `base` (15 R457, R459, 16 R502;
log entry 94). -/
def State.tablePages (s : State) (part : Nat) : Nat → Nat → Nat → List (Nat × List Byte)
  | 0, _, _ => []
  | n + 1, table, base =>
    (table, s.dpaBytes table (tableEntries (n + 1) / 16)) :: (List.range (tableEntries (n + 1))).flatMap fun i =>
      let dva := base + i * entrySpan (n + 1)
      match (if s.meetsDomains part dva (entrySpan (n + 1)) then (s.tableEntry (table + 8 * i)).bind pointerOf else none) with
      | some t => s.tablePages part n t dva
      | none => []

/-- What a measurement block says (16 R502, 15 R471), with `left` signatures left; digests are SHA3-384 (16 R501, 18 R531). -/
def State.measurement (s : State) (fn idx left : Nat) : Option Report :=
  let x := s.partAt fn
  match idx with
  | 1 => some (.image (sha3_384 (Config.imageBody s.bring.image)))
  | 2 => some (.pageTable s.ptroot (sha3_384 (Config.tableBody (s.tablePages fn 4 s.ptroot 0))))
  | 3 => some (.ranges (s.ranges.map fun e => (e.1, e.2, rangeOwner e.2)))
  | 4 => some (.tables x.domains x.farMap)
  | 5 => some (.interface (s.fnAt fn).tdi (s.fnAt fn).ide)
  | 0xF0 => some (.sigLeft left)
  | _ => none

/-- GET_MEASUREMENTS (16 R502). -/
def execGetMeasurements (fn idx : Nat) (signed : Bool) (s : State) : Res :=
  s.spdm fn 6 (fun p => p.agreed && measured idx) signed id (s.measurement fn idx (s.bring.sigLeft - (if signed then 1 else 0)))

/-- KEY_EXCHANGE: its response is signed. -/
def execKeyExchange (fn : Nat) (s : State) : Res := s.spdm fn 7 Spdm.agreed true (fun st => st.setSpdm fn .exchanging) none

/-- FINISH: a verified one opens the session. -/
def execFinish (fn : Nat) (verified : Bool) (s : State) : Res :=
  if (s.fnAt fn).spdm = .exchanging ∧ verified = false ∧ s.fnLive fn = true then .next ((s.setSpdm fn .negotiated).spdmReply fn 8 false none)
  else s.spdm fn 8 (· == .exchanging) false (fun st => st.setSpdm fn .session) none

/-- END_SESSION. -/
def execEndSession (fn : Nat) (s : State) : Res := s.spdm fn 9 (· == .session) false (fun st => st.setSpdm fn .negotiated) none

/-! IDE and key slots (16 R499, R500). -/

/-- IDE_KM (16 R499): the function's stream is programmed over its session, or stopped. -/
def execIdeKm (fn : Nat) (keyed : Bool) (s : State) : Res :=
  s.spdm fn 10 (· == .session) false (fun st => st.setFn fn { st.fnAt fn with ide := keyed }) none

/-- KEY_LOAD (16 R499, R500): inside a session, with the TDI in RUN, into a free slot or one of the partition's own; no counter is accepted
yet. -/
def execKeyLoad (fn slot : Nat) (key : BitVec 256) (fixed : BitVec 32) (start : Word) (s : State) : Res :=
  let mine := match Tbl.find s.keys slot with | some k => k.part == fn | none => true
  s.spdm fn 11 (fun p => p == .session && (s.fnAt fn).tdi == .run && mine && decide (1 ≤ slot ∧ slot ≤ 63)) false
    (fun st =>
      let k : KeySlot := { part := fn, key := key, fixed := fixed, floor := start, high := start, mask := 0 }
      { st with keys := Tbl.put st.keys slot k }) none

/-- KEY_DROP (16 R499): the partition frees its slot. -/
def execKeyDrop (fn slot : Nat) (s : State) : Res :=
  let mine := match Tbl.find s.keys slot with | some k => k.part == fn | none => false
  s.spdm fn 12 (fun p => p == .session && mine) false (fun st => { st with keys := Tbl.del st.keys slot }) none

end Sys2Proof.Machine
end

