-- ==== Sys2Proof/Machine/IntOps.lean ====
section
/-! DEFINITION. Integer arithmetic and logic, comparisons, immediates, address formation, bit fields, MOVP and NOP
(06 R224-R235, R247, R248). -/

namespace Sys2Proof.Machine

/-- A two-source instruction: W(a) := F(W(b), W(c)) (06 R225). -/
def State.binary (s : State) (a b c : Reg) (f : Word → Word → Word) : Res :=
  s.scalar [a, b, c] fun p => p.setReg a (f (p.reg b) (p.reg c))

/-- A one-source instruction: W(a) := G(W(b)) (06 R225, R230). -/
def State.unary (s : State) (a b : Reg) (f : Word → Word) : Res :=
  s.scalar [a, b] fun p => p.setReg a (f (p.reg b))

/-- An immediate move: W(a) := value (06 R231). -/
def State.constant (s : State) (a : Reg) (v : Word) : Res := s.scalar [a] fun p => p.setReg a v

/-- NOP changes nothing (06 R248). -/
def execNop (s : State) : Res := s.scalar [] fun p => p

/-- ADD (06 R225). -/
def execAdd (a b c : Reg) (s : State) : Res := s.binary a b c fun x y => x + y

/-- SUB (06 R225). -/
def execSub (a b c : Reg) (s : State) : Res := s.binary a b c fun x y => x - y

/-- MUL (06 R225). -/
def execMul (a b c : Reg) (s : State) : Res := s.binary a b c fun x y => x * y

/-- MULH (06 R225). -/
def execMulh (a b c : Reg) (s : State) : Res := s.binary a b c fun x y => highHalf (x.toInt * y.toInt)

/-- MULHU (06 R225). -/
def execMulhu (a b c : Reg) (s : State) : Res := s.binary a b c fun x y => highHalf ((x.toNat : Int) * y.toNat)

/-- MULHSU (06 R225). -/
def execMulhsu (a b c : Reg) (s : State) : Res := s.binary a b c fun x y => highHalf (x.toInt * y.toNat)

/-- DIV (06 R225). -/
def execDiv (a b c : Reg) (s : State) : Res := s.binary a b c fun x y => divS x y

/-- DIVU (06 R225). -/
def execDivu (a b c : Reg) (s : State) : Res := s.binary a b c fun x y => divU x y

/-- REM (06 R225). -/
def execRem (a b c : Reg) (s : State) : Res := s.binary a b c fun x y => remS x y

/-- REMU (06 R225). -/
def execRemu (a b c : Reg) (s : State) : Res := s.binary a b c fun x y => remU x y

/-- AND (06 R225). -/
def execAnd (a b c : Reg) (s : State) : Res := s.binary a b c fun x y => x &&& y

/-- OR (06 R225). -/
def execOr (a b c : Reg) (s : State) : Res := s.binary a b c fun x y => x ||| y

/-- XOR (06 R225). -/
def execXor (a b c : Reg) (s : State) : Res := s.binary a b c fun x y => x ^^^ y

/-- ANDN (06 R225). -/
def execAndn (a b c : Reg) (s : State) : Res := s.binary a b c fun x y => x &&& ~~~y

/-- SHL (06 R225). -/
def execShl (a b c : Reg) (s : State) : Res := s.binary a b c fun x y => x <<< amount y

/-- SHR (06 R225). -/
def execShr (a b c : Reg) (s : State) : Res := s.binary a b c fun x y => x >>> amount y

/-- SAR (06 R225). -/
def execSar (a b c : Reg) (s : State) : Res := s.binary a b c fun x y => x.sshiftRight (amount y)

/-- ROR (06 R225). -/
def execRor (a b c : Reg) (s : State) : Res := s.binary a b c fun x y => x.rotateRight (amount y)

/-- MIN (06 R225). -/
def execMin (a b c : Reg) (s : State) : Res := s.binary a b c fun x y => pickS true x y

/-- MINU (06 R225). -/
def execMinu (a b c : Reg) (s : State) : Res := s.binary a b c fun x y => pickU true x y

/-- MAX (06 R225). -/
def execMax (a b c : Reg) (s : State) : Res := s.binary a b c fun x y => pickS false x y

/-- MAXU (06 R225). -/
def execMaxu (a b c : Reg) (s : State) : Res := s.binary a b c fun x y => pickU false x y

/-- CSET: W(a) := 1 when the relation of code f holds, else 0 (06 R226). -/
def execCset (a b c : Reg) (f : BitVec 3) (s : State) : Res := s.binary a b c fun x y => flag (relation f.toNat x y)

/-- SEL: W(a) := W(b) when W(d) is not zero, else W(c) (06 R228). -/
def execSel (a b c d : Reg) (s : State) : Res :=
  s.scalar [a, b, c, d] fun p => p.setReg a (if p.reg d != 0 then p.reg b else p.reg c)

/-- CLZ (06 R225). -/
def execClz (a b : Reg) (s : State) : Res := s.unary a b fun x => BitVec.ofNat 64 (clz64 x)

/-- CTZ (06 R225). -/
def execCtz (a b : Reg) (s : State) : Res := s.unary a b fun x => BitVec.ofNat 64 (ctz64 x)

/-- POPC (06 R225). -/
def execPopc (a b : Reg) (s : State) : Res := s.unary a b fun x => BitVec.ofNat 64 (popc64 x)

/-- BREV (06 R225). -/
def execBrev (a b : Reg) (s : State) : Res := s.unary a b fun x => x.reverse

/-- SXB (06 R225). -/
def execSxb (a b : Reg) (s : State) : Res := s.unary a b fun x => signExt 8 x

/-- SXH (06 R225). -/
def execSxh (a b : Reg) (s : State) : Res := s.unary a b fun x => signExt 16 x

/-- SXW (06 R225). -/
def execSxw (a b : Reg) (s : State) : Res := s.unary a b fun x => signExt 32 x

/-- ZXW (06 R225). -/
def execZxw (a b : Reg) (s : State) : Res := s.unary a b fun x => (x.setWidth 32).setWidth 64

/-- ADDI (06 R230). -/
def execAddi (a b : Reg) (i : BitVec 12) (s : State) : Res := s.unary a b fun x => x + i.signExtend 64

/-- ANDI (06 R230). -/
def execAndi (a b : Reg) (i : BitVec 12) (s : State) : Res := s.unary a b fun x => x &&& i.signExtend 64

/-- ORI (06 R230). -/
def execOri (a b : Reg) (i : BitVec 12) (s : State) : Res := s.unary a b fun x => x ||| i.signExtend 64

/-- XORI (06 R230). -/
def execXori (a b : Reg) (i : BitVec 12) (s : State) : Res := s.unary a b fun x => x ^^^ i.signExtend 64

/-- SHLI (06 R230). -/
def execShli (a b : Reg) (i : BitVec 6) (s : State) : Res := s.unary a b fun x => x <<< i.toNat

/-- SHRI (06 R230). -/
def execShri (a b : Reg) (i : BitVec 6) (s : State) : Res := s.unary a b fun x => x >>> i.toNat

/-- SARI (06 R230). -/
def execSari (a b : Reg) (i : BitVec 6) (s : State) : Res := s.unary a b fun x => x.sshiftRight i.toNat

/-- RORI (06 R230). -/
def execRori (a b : Reg) (i : BitVec 6) (s : State) : Res := s.unary a b fun x => x.rotateRight i.toNat

/-- SEQI (06 R230). -/
def execSeqi (a b : Reg) (i : BitVec 12) (s : State) : Res := s.unary a b fun x => flag (relation 0 x (i.signExtend 64))

/-- SNEI (06 R230). -/
def execSnei (a b : Reg) (i : BitVec 12) (s : State) : Res := s.unary a b fun x => flag (relation 1 x (i.signExtend 64))

/-- SLTI (06 R230). -/
def execSlti (a b : Reg) (i : BitVec 12) (s : State) : Res := s.unary a b fun x => flag (relation 2 x (i.signExtend 64))

/-- SLTUI (06 R230). -/
def execSltui (a b : Reg) (i : BitVec 12) (s : State) : Res := s.unary a b fun x => flag (relation 4 x (i.signExtend 64))

/-- MOVI_U: SignExtend(imm16) (06 R231). -/
def execMoviU (a : Reg) (i : BitVec 16) (s : State) : Res := s.constant a (i.signExtend 64)

/-- MOVI_U_ZERO: ZeroExtend(imm16) (06 R231). -/
def execMoviUZero (a : Reg) (i : BitVec 16) (s : State) : Res := s.constant a (i.setWidth 64)

/-- MOVI_K: SignExtend(imm32) (06 R231). -/
def execMoviK (a : Reg) (i : BitVec 32) (s : State) : Res := s.constant a (i.signExtend 64)

/-- MOVI_K_ZERO: ZeroExtend(imm32) (06 R231). -/
def execMoviKZero (a : Reg) (i : BitVec 32) (s : State) : Res := s.constant a (i.setWidth 64)

/-- MOVI_X: imm64 (06 R231). -/
def execMoviX (a : Reg) (i : BitVec 64) (s : State) : Res := s.constant a i

/-- w bits of ones, w = q + 1 (06 R235). -/
def fieldMask (q : BitVec 6) : Word := BitVec.ofNat 64 (2 ^ (q.toNat + 1) - 1)

/-- BFX: the field of W(b), zero-extended (06 R235). -/
def execBfx (a b : Reg) (p w : BitVec 6) (s : State) : Res := s.unary a b fun x => (x >>> p.toNat) &&& fieldMask w

/-- BFI: the low bits of W(b) put into the field of W(a) (06 R235). -/
def execBfi (a b : Reg) (p w : BitVec 6) (s : State) : Res :=
  s.scalar [a, b] fun q =>
    let m2 := fieldMask w <<< p.toNat
    q.setReg a ((q.reg a &&& ~~~m2) ||| ((q.reg b <<< p.toNat) &&& m2))

/-- LEA: base plus displacement, plus the scaled index when X is set; no check (06 R233). -/
def execLea (a b c : Reg) (x : Bool) (sc : BitVec 3) (d : BitVec 20) (s : State) : Res :=
  s.scalar (if x then [a, b, c] else [a, b]) fun p =>
    p.setReg a (if x then p.ea b d + (p.reg c <<< sc.toNat) else p.ea b d)

/-- LEAP: the PC of a target relative to its own line; no check (06 R234). -/
def execLeap (a : Reg) (d : BitVec 26) (h : BitVec 6) (s : State) : Res :=
  s.scalar [a] fun p => p.setReg a ((branchTarget p.pc (d.signExtend 46) h).setWidth 64)

/-- MOVP: the pair and its tag; a dead half reads as zero and clears the tag (06 R247). -/
def execMovp (a b : Reg) (s : State) : Res :=
  s.scalar [a, oddOf a, b, oddOf b] fun p =>
    p.setPair a (p.reg b) (p.reg (oddOf b))
      (p.pairTag b && p.live.getLsbD b.toNat && p.live.getLsbD (oddOf b).toNat)

end Sys2Proof.Machine
end

