-- ==== Sys2Proof/Machine/Reliability.lean ====
section
/-! DEFINITION. Automatic row sparing (17 R517, R518), residue and parity checks (17 R519). -/

namespace Sys2Proof.Machine

/-- A row of server v is due to be spared by itself (17 R517): as many corrected errors as SPTHR have fallen on it within 24 h, or a read of it has failed;
SPTHR 0 disables that. -/
def State.rowDue (s : State) (v row : Nat) : Bool :=
  let x := s.serverAt v
  let now := s.time.toNat
  x.ready && x.spthr != 0 &&
    (x.lostRows.contains row || decide (x.spthr.toNat ≤ ((Tbl.get [] x.rows row).filter fun t => decide (now < t + day)).length))

/-- ROWSPARE (17 R517, R518): a server spares a row that is due. -/
def execRowspare (srv : Nat) (x : SpareRow) (s : State) : Res :=
  if s.rowDue srv (rowNum x.row).toNat then .next (s.spareRow srv x (Config.rowAddr srv (rowNum x.row).toNat)) else .next s

/-- The partition that an event at a core concerns (17 R513): 0xFF for none. -/
def State.corePart (s : State) (g : Nat) : Nat := (s.partOfCore g).getD 0xFF

/-- A fenced core's quad is retired by the firmware (17 R519, 15 R476), unless it is the partition's last; while another RETIRE is in progress it waits its
turn. -/
def State.autoRetire (s : State) (g part : Nat) : State :=
  if s.bring.autoret && (s.partCores part).any (fun h => quadOf h != quadOf g) then
    if s.pcRetire.isNone then { s with pcRetire := some (quadOf g, part) }
    else { s with retireQueue := s.retireQueue ++ [(quadOf g, part)] }
  else s

/-- PARITY (17 R519): a server drains, resets and logs PARITY; a residue mismatch whose second execution agrees logs RESIDUE; a second mismatch
fences the core; a flit is replayed by sequence. -/
def execParity (u : ParityUnit) (s : State) : Res :=
  match u with
  | .server v => .next (s.logEvent 7 0xFF v 0 0)
  | .residue g => .next (s.logEvent 6 (s.corePart g) (logCore g) 0 0)
  | .secondResidue g =>
    let s1 := (s.setCore g { s.coreAt g with fenced := true }).logEvent 9 (s.corePart g) (logCore g) 0 0
    match s.partOfCore g with
    | some p => .next ((s1.startHold p fun y => { y with cres := true }).autoRetire g p)
    | none => .next s1
  | .meshFlit => .next s

end Sys2Proof.Machine
end

