-- ==== Sys2Proof/Machine/Solom.lean ====
section
/-! DEFINITION. Solom Link (16 R486-R494): flits received and replayed, lanes, dead lists, packets returned, and destinations that cannot be reached. -/

namespace Sys2Proof.Machine

/-! What a packet does here. -/

/-- The operation of a far access (16 R494): it is performed in current mode and commits singly. -/
def FarOp.gop : FarOp → GOp
  | .load n => .read n
  | .loadCap g => .readCap g
  | .loadTags => .readTags
  | .scrub => .scrub 0
  | .store bytes tag _ _ => .write bytes tag none 0
  | .atomic op w bf v x =>
    let o : AtOp := match op.toNat with
      | 0 => .add | 1 => .and | 2 => .or | 3 => .xor | 4 => .min | 5 => .minu | 6 => .max | 7 => .maxu | 8 => .xchg | 9 => .cas | _ => .fadd
    .atomic o w bf x v 0 true

/-- A far access stores a capability granule. -/
def farOpCap : FarOp → Bool
  | .store _ _ cap _ => cap
  | _ => false

/-- The poison marks of a copy's far write (10 R385). -/
def farOpBad : FarOp → List Bool
  | .store _ _ _ bad => bad
  | _ => []

/-- A far access at this package's ingress (16 R494): checked, translated, and sent to its home; or refused. Its energy goes to dye 0, what it writes
has its packet's dye (00 R12). -/
def State.farAccess (s : State) (pk : Packet) (ident part : Nat) (epoch : BitVec 8) (dva : BitVec 52) (op : FarOp) : State :=
  let o := FarOp.gop op
  let r : GReq := { oid := ident, who := { g := remoteBase + pk.src.toNat, slot := 0, gen := 0 }, dye := pk.dye, part := part, loc := .host 0, op := o
                    mode := .current 0, behind := [], behindEq := [], cap := farOpCap op, ingress := true, bad := farOpBad op }
  match s.ingress part epoch dva.toNat o.size o.need with
  | (.error c, s1) => s1.post .egress .egress (.err r c)
  | (.ok (.far _ _ _ _), s1) => s1.post .egress .egress (.err r .rights)
  | (.ok l, s1) => (s1.transport .egress l.node 0 (match op with | .store bytes _ _ _ => bytes.length | _ => 0)).post .egress l.node
      (.req { r with loc := l })

/-- The body that answers a far request of this package (16 R494). -/
def farBody (r : GReq) (bytes : List Byte) (tags : BitVec 8) (flags : BitVec 5) (cause : BitVec 4) : Body :=
  if cause ≠ 0 then .err r (Cause.ofCode cause)
  else match r.op with
    | .write _ _ _ _ => .ack r none flags
    | .atomic _ _ _ _ _ _ false => .ack r none flags
    | .scrub _ => .resp r [] 0 0 0 flags (tags.getLsbD 0) (tags.getLsbD 1)
    | _ => .resp r bytes tags 0 0 flags false false

/-- Every copy of every journal changed. -/
def State.mapCopies (s : State) (f : Copy → Copy) : State :=
  { s with clusters := s.clusters.map fun e => (e.1, { e.2 with journal := e.2.journal.map f }) }

/-- The reply to far request `r` (16 R494): to the third-party read or copy that asked, else to the requester's core, its way there charged to the request's
dye (07 R254, 15 R538). -/
def State.farReplied (s : State) (r : GReq) (bytes : List Byte) (tags : BitVec 8) (flags : BitVec 5) (cause : BitVec 4) : State :=
  let s1 : State := { s with
    farOut := s.farOut.filter fun x => x.ident != r.ident
    egress := s.egress.filter fun e => e.oid != r.oid }
  match s1.tprs.find? fun t => t.asked.any fun x => x.1 == r.oid with
  | some t =>
    let u := match t.asked.find? fun x => x.1 == r.oid with | some x => x.2 | none => 0
    (s1.sourceBack t r.loc bytes.length).mapTpr t.k fun x => if cause = 0 then x.gotPart u bytes else x.faulted (Cause.ofCode cause)
  | none =>
    if s1.clusters.any fun e => e.2.journal.any fun c => c.asked.any fun x => x.parts.any fun y => y.1 == r.oid then
      (s1.transport .egress (.cluster (clusterOf r.who.g)) r.dye bytes.length).mapCopies fun c => c.gotFar r.oid bytes cause
    else if s1.clusters.any fun e => e.2.journal.any fun c => c.farW.contains r.oid then
      if cause = 0 then s1 else s1.mapCopies fun c => c.failFar r.oid cause
    else if r.device then (s1.transport .egress .host r.dye bytes.length).devAnswer r bytes tags (if cause = 0 then none else some (Cause.ofCode cause))
    else (s1.transport .egress (.core r.who.g) r.dye bytes.length).post .egress (.core r.who.g) (farBody r bytes tags flags cause)

/-- The header that this package sent to another under an identity. -/
def State.farHeader (s : State) (ident : Nat) : Option (Nat × Hdr) := s.farHdrs.find? fun x => x.2.hid == ident

/-- A message of the egress port to the sender of a header, its way there charged to the header's dye (15 R538). -/
def State.postBack (s : State) (h : Hdr) (b : Body) : State := (s.transport .egress (s.replyTo 0 h) h.dye 0).post .egress (s.replyTo 0 h) b

/-- A header that came back answered: it waits no longer. -/
def State.dropHeader (s : State) (ident : Nat) : State := { s with farHdrs := s.farHdrs.filter fun x => x.2.hid != ident }

/-- What the packet of another package does here (16 R488, R489, R491, R494). -/
def State.packetIn (s : State) (p : Packet) : State :=
  match p.body with
  | .access ident part epoch dva op => s.farAccess p ident part epoch dva op
  | .reply ident bytes tags flags cause =>
    match s.farOut.find? fun r => r.ident == ident with
    | some r => s.farReplied r bytes tags flags cause
    | none => s
  | .header ident part g idx gen kind len bytes tag failed third =>
    if Config.numCores ≤ g then s
    else
      let f := s.fresh
      let h : Hdr := { hid := f.1, from_ := .far p.src.toNat ident, part := part, dye := p.dye, gen := gen, ek := kind, len := len, bytes := bytes
                       tag := tag, failed := failed, launch := { fn := 0, lid := 0 }, third := third }
      (f.2.transport .egress (.core g) 0 bytes.length).post .egress (.core g) (.header idx h)
  | .headerGrant ident =>
    match s.farHeader ident with
    | some (_, h) => s.postBack h (.grant 0 0 h 0 false)
    | none => s
  | .headerData ident bytes =>
    let mine (x : Nat × Nat × Nat × Bool × Hdr) : Bool := x.2.2.2.2.from_ == .far p.src.toNat ident
    match s.farIn.find? mine with
    | some (g, e, addr, slot, h) =>
      let s1 : State := { s with farIn := s.farIn.filter fun x => !mine x }
      (s1.transport .egress (.core g) 0 bytes.length).post .egress (.core g) (.data e h bytes addr slot)
    | none => s
  | .headerReply ident ok cause =>
    match s.farHeader ident with
    | some (_, h) =>
      (s.dropHeader ident).postBack h (if ok then .accept h false else .refuse h (Cause.ofCode cause))
    | none => s
  | .arrived n => { s with unacked := s.unacked.filter fun x => x.num != n }
  | .returned n => { s with unacked := s.unacked.map fun (x : Sent) => if x.num = n then { x with back := true } else x }

/-- An ingress port acknowledges packets to their source package, but for the ingress ports' own messages (16 R488). -/
def packetTracked : PacketBody → Bool
  | .arrived _ => false
  | .returned _ => false
  | _ => true

/-- A far access whose walk meets a prepared line waits at the ingress (15 R459, 02 R110). -/
def State.accessWaits (s : State) : PacketBody → Bool
  | .access _ part _ dva _ => s.ingressWaits part dva.toNat
  | _ => false

/-- A packet that has reached its destination (16 R488): it takes effect and is acknowledged to its source, if that can be reached; none while no
port can take the acknowledgement, or its access waits. -/
def State.packetHere (s : State) (p : Packet) : Option State :=
  if s.accessWaits p.body then none
  else if packetTracked p.body && (s.routeTo p.src.toNat).isSome then (s.packetIn p).leaveControl p.src.toNat (.arrived p.num)
  else some (s.packetIn p)

/-- A packet of another package whose hop has failed goes back to its source (16 R488), which is told as soon as a port has room. -/
def State.giveBack (s : State) (src num : Nat) : State :=
  if s.owed.isEmpty then (s.leaveControl src (.returned num)).getD { s with owed := [(src, num)] } else { s with owed := s.owed ++ [(src, num)] }

/-- The packets that are still to go back leave, oldest first, where ports have room. -/
def State.payOwed (s : State) : State :=
  s.owed.foldl (fun st x => (st.leaveControl x.1 (.returned x.2)).getD { st with owed := st.owed ++ [x] }) { s with owed := [] }

/-- A packet on its way to another package follows its stamp (16 R487); one whose next hop has failed goes back to its source (R488); none while the
port has no room. In a dimension it has crossed coordinate 0 of, it keeps the second virtual channel. -/
def State.packetOn (s : State) (arrival : Nat) (p : Packet) : Option State :=
  match p.route with
  | [] => some s
  | i :: rest =>
    match s.hopAlive s.bring.pkgid.toNat (i / 2) (i % 2 == 0) with
    | some _ => s.sendPacket i 0 { p with route := rest, vc := s.crosses i || (p.vc && i / 2 == arrival / 2) }
    | none => some (if packetTracked p.body then s.giveBack p.src.toNat p.num else s)

/-- What becomes of a packet that port `arrival` has taken in whole. -/
def State.packetTaken (s : State) (arrival : Nat) (p : Packet) : Option State :=
  if p.dst = s.bring.pkgid then s.packetHere p else s.packetOn arrival p

/-! Flits (16 R489). -/

/-- The replay buffer without the flits before number `ack`; none leave when no flit has that number. -/
def Port.acknowledge (q : Port) (ack : BitVec 12) : Port :=
  let n := if ack = q.txSeq then q.replay.length else (q.replay.findIdx? fun x => x.seq == ack).getD 0
  if n = 0 then q else { q with replay := q.replay.drop n, again := 0 }

/-- FLIT_RECEIVE (16 R489, 03 R154): a flit whose CRC fails is answered with a negative acknowledgement; flits are delivered in sequence
order only. The flit that completes a packet is taken in when the packet can go where it must: until then the peer has no credit for it (15 R478). The
flit's energy goes to dye 0 (15 R484). -/
def execFlitReceive (port : Nat) (seqn : BitVec 12) (crcGood : Bool) (ack : BitVec 12) (p : Option Packet) (s : State) : Res :=
  let q := s.portAt port
  if q.state ≠ 2 then .next s
  else if !crcGood then .next (s.setPort port { q with nak := true })
  else
    let q1 := q.acknowledge ack
    if seqn ≠ q.rxSeq then .next (s.setPort port q1)
    else
      let s1 := (s.setPort port { q1 with rxSeq := q.rxSeq + 1, nak := false }).charge (meterPort port) 0 .flit 1
      match p with
      | none => .next s1
      | some pk => .next ((s1.packetTaken port pk).getD (s.setPort port q1))

/-- The flits of a port's replay buffer cross the link again, each at the charge of the dye that paid for it (15 R481). -/
def State.replayFlits (s : State) (port : Nat) (q : Port) : State :=
  q.replay.foldl (fun st x => st.charge (meterPort port) x.pay .flit 1) (s.setPort port { q with replays := q.replays + q.replay.length })

/-- NEGATIVE_ACKNOWLEDGEMENT (16 R489): the flits from that number on are replayed with their numbers; the eleventh of one flit retrains the
link. -/
def execNegativeAcknowledgement (port : Nat) (seqn : BitVec 12) (s : State) : Res :=
  let q := (s.portAt port).acknowledge seqn
  if q.state ≠ 2 || !(q.replay.any fun x => x.seq == seqn) then .next s
  else if 10 ≤ q.again then .next (s.setPort port { q with state := 3, again := 0 })
  else .next (s.replayFlits port { q with again := q.again + 1 })

/-- A link event is logged and raises the fabric vector (16 R490, R495). -/
def State.linkEvent (s : State) (port : Nat) : State := (s.logEvent (Config.linkLog 0) 0xFF (Config.linkLog (1 + port)) 0 0).msix 0 6

/-- The link goes down (16 R490): its flits go nowhere. -/
def Port.goDown (q : Port) : Port := { q with state := 0, width := 0, replay := [], again := 0 }

/-- The packets that a port still holds when its hop fails (16 R488). -/
def Port.holds (q : Port) : List Packet := (q.replay.filter fun x => x.left == 0 && packetTracked x.pk.body).map (·.pk)

/-- The hop through a port has failed (16 R488): the packets that its replay buffer holds come back, this package's own to be sent again, and the buffer is
empty. -/
def State.hopFails (s : State) (port : Nat) : State :=
  let held := (s.portAt port).holds
  let own (p : Packet) : Bool := p.src == s.bring.pkgid
  let s1 : State := { s.setPort port { s.portAt port with replay := [], again := 0 } with
    unacked := s.unacked.map fun (x : Sent) => if held.any (fun p => own p && p.num == x.num) then { x with back := true } else x }
  (held.filter fun p => !own p).foldl (fun st p => st.giveBack p.src.toNat p.num) s1

/-- A port that has gone down. -/
def State.portDown (s : State) (port : Nat) (q : Port) : State := (s.hopFails port).setPort port q

/-- A port in its new condition, which may be down. -/
def State.changePort (s : State) (port : Nat) (q : Port) : State := if q.state = 0 then s.portDown port q else s.setPort port q

/-- LINK_RETRAINING_END (16 R489): the waiting flits are replayed, or the link goes down. -/
def execLinkRetrainingEnd (port : Nat) (up : Bool) (s : State) : Res :=
  let q := s.portAt port
  if q.state ≠ 3 then .next s
  else if up then .next (s.replayFlits port { q with state := 2 })
  else .next ((s.changePort port q.goDown).linkEvent port)

/-- A failing lane of a link that is up (16 R490): to the spare, to the 8-lane half without a failed lane, or the link goes down. -/
def Port.failLane (q : Port) (lane : Nat) : Port :=
  let bad := insertNat lane q.failed
  if q.slane = 0x1F && q.width = 2 then { q with failed := bad, slane := BitVec.ofNat 5 lane }
  else if bad.all (fun l => decide (8 ≤ l)) || bad.all (fun l => decide (l < 8)) then { q with failed := bad, width := 1 }
  else { q with failed := bad }.goDown

/-- LANE_FAILURE (16 R490): lanes 0 to 15. A lane fails when it loses lock, or when its symbol errors in one millisecond exceed PTHR. A lane
that the spare carries fails again with the spare. -/
def execLaneFailure (port : Nat) (x : LaneErrors) (s : State) : Res :=
  let q := s.portAt port
  if q.state = 0 || 16 ≤ x.lane || !(x.lostLock || decide (q.pthr.toNat < x.errors)) then .next s
  else .next ((s.changePort port (q.failLane x.lane)).linkEvent port)

/-! Routes that change (16 R488). -/

/-- This package's ports whose hop has failed. -/
def State.failedHops (s : State) : List Nat :=
  (List.range 8).filter fun i => (s.hopAlive s.bring.pkgid.toNat (i / 2) (i % 2 == 0)).isNone && !(s.portAt i).replay.isEmpty

/-- Pod-wide launches with a process on a dead package end with status RESET (16 R491). -/
def State.resetPodLaunches (s : State) : State :=
  (s.launches.filter fun l => l.pkgs.any fun k => s.deadPkgs.contains k).foldl (fun st l => st.abortLaunch l.ref 6) s

/-- DEAD_LIST (16 R488, R491): the package's dead list as pod firmware distributes it; a link is a package times 8 plus its port. -/
def execDeadList (pkgs links : List Nat) (s : State) : Res :=
  if s.bring.state ≠ .running then .next s
  else
    let s1 := { s with deadPkgs := pkgs, deadLinks := links }.msix 0 6
    .next (s1.failedHops.foldl State.hopFails s1).resetPodLaunches

/-- Packet `x` has come back and may go on a route now (16 R488): every packet to its destination on another route has been acknowledged, but for those
that have come back too, and no older one of these waits. -/
def State.mayResend (s : State) (x : Sent) (route : List Nat) : Bool :=
  x.back && !s.unacked.any fun y => y.dst == x.dst && (if y.back then decide (y.num < x.num) else y.pk.route != route)

/-- PACKET_RETURN (16 R488): packets of other packages that met a failed hop go back to their sources; packet number k of this one that has come back is sent
again on the new route, the packets to its destination in their original order, ahead of any later one. -/
def execPacketReturn (k : Nat) (s0 : State) : Res :=
  let s := s0.payOwed
  match s.unacked.find? fun x => x.num == k with
  | none => .next s
  | some x =>
    match s.routeTo x.dst with
    | none => .next s
    | some route =>
      if !s.mayResend x route then .next s
      else
        let pk : Packet := { x.pk with route := route, vc := s.crosses (route.headD 0) }
        match s.sendPacket (route.headD 0) pk.dye { pk with route := route.tail } with
        | none => .next s
        | some s1 => .next { s1 with unacked := s1.unacked.map fun (y : Sent) => if y.num = k then { y with pk := pk, back := false } else y }

/-! Unreachable destinations (16 R491). -/

/-- A package that no route reaches. -/
def State.unreachable (s : State) (pkg : Nat) : Bool := s.bring.podWritten && pkg != s.bring.pkgid.toNat && (s.portTo pkg).isNone

/-- The package of a far location. -/
def Loc.pkg : Loc → Option Nat
  | .far p _ _ _ => some p
  | _ => none

/-- The identity of a message that waits to leave for an unreachable package, if it is one. -/
def State.stranded (s : State) (m : Msg) : Option Nat :=
  let far (p : Option Nat) (k : Nat) : Option Nat := match p with
    | some x => if s.unreachable x then some k else none
    | none => none
  let from_ (h : Hdr) : Option Nat := match h.from_ with | .far p _ => some p | _ => none
  match m.body with
  | .req r => far r.loc.pkg r.oid
  | .farHeader p _ _ h => far (some p) h.hid
  | .resp r _ _ _ _ _ _ _ => far r.remote r.oid
  | .ack r _ _ => far r.remote r.oid
  | .err r _ => far r.remote r.oid
  | .grant _ _ h _ _ => far (from_ h) h.hid
  | .done h _ => far (from_ h) h.hid
  | .accept h _ => far (from_ h) h.hid
  | .refuse h _ => far (from_ h) h.hid
  | _ => none

/-- A header toward an unreachable package ends (16 R491): its sender is told CLOSED; a failed void delivery was counted when it left, and is gone (02
R123). -/
def State.headerLost (s : State) (h : Hdr) : State := if h.failed then s else s.postBack h (.refuse h .closed)

/-- An operation of identity k toward an unreachable package ends (16 R491): WATCHDOG for an access, CLOSED for a header; a reply is given up. -/
def State.giveUp (s : State) (k : Nat) (m : Option Body) : State :=
  match m with
  | some (.req r) => s.farReplied r [] 0 0 Cause.watchdog.code
  | some (.farHeader _ _ _ h) => s.headerLost h
  | some _ => s
  | none =>
    match s.farOut.find? fun r => r.oid == k, s.egress.find? fun e => e.oid == k, s.farHeader k with
    | some r, _, _ => s.farReplied r [] 0 0 Cause.watchdog.code
    | none, some e, _ => s.farReplied e.request [] 0 0 Cause.watchdog.code
    | none, none, some (_, h) => (s.dropHeader k).headerLost h
    | none, none, none => s

/-- The destination of operation k, sent or waiting to leave, cannot be reached. -/
def State.lost (s : State) (k : Nat) : Bool :=
  (s.farOut.any fun r => r.oid == k && (match r.loc.pkg with | some p => s.unreachable p | none => false)) ||
    (s.egress.any fun e => e.oid == k && (match e.loc.pkg with | some p => s.unreachable p | none => false)) ||
    (match s.farHeader k with | some (p, _) => s.unreachable p | none => false)

/-- A location is in a package that cannot be reached. -/
def State.cutOff (s : State) (l : Except Cause Loc) : Bool :=
  match l with
  | .ok x => (match x.pkg with | some p => s.unreachable p | none => false)
  | .error _ => false

/-- Third-party read k has a part of its source still to ask of a package that cannot be reached. -/
def State.sourceLost (s : State) (k : Nat) : Bool :=
  s.tprs.any fun t => t.k == k && (List.range t.count).any fun u => t.wants u && s.cutOff (s.tprLoc t (t.part_ u).1 (t.part_ u).2).1

/-- The copy with place k has a piece of its source still to ask of a package that cannot be reached. -/
def State.copyLost (s : State) (k : Nat) : Bool :=
  s.clusters.any fun e => e.2.journal.any fun c => c.seq == k && c.finished.isNone && c.fault.isNone &&
    (match c.readOf c.nextRead false with
      | some t => (s.partsOf c t).any fun q => s.cutOff ((s.reach e.1 c q.addr q.len rightR).1.map (·.loc))
      | none => false)

/-- UNREACHABLE_WATCHDOG (16 R491): operation k toward a package that cannot be reached ends, a third-party read or a copy too whose source is there;
packets for that package are given up. -/
def execUnreachableWatchdog (k : Nat) (s : State) : Res :=
  let s0 : State := { s with unacked := s.unacked.filter fun x => !s.unreachable x.dst }
  match s.net.findIdx? fun m => s.stranded m == some k with
  | some i =>
    let body := (s.net[i]?).map (·.body)
    .next ({ s0 with net := s0.net.eraseIdx i }.giveUp k body)
  | none =>
    if s.lost k then .next (s0.giveUp k none)
    else if s.sourceLost k then .next (s0.mapTpr k fun t => t.faulted .watchdog)
    else if s.copyLost k then .next (s0.mapCopies fun c => if c.seq = k then { c with fault := some .watchdog } else c)
    else .next s

end Sys2Proof.Machine
end

