-- ==== Sys2Proof/Machine/ScaleOut.lean ====
section
/-! DEFINITION. Scale-out queue pairs (16 R504-R506): work requests, packets, retransmission, completions. -/

namespace Sys2Proof.Machine

/-! Requests. -/

/-- STATUS of a completion word (16 R505). -/
inductive QpStatus where
  | ok | remoteError | transportError | flushed | localError
  deriving DecidableEq, Repr

/-- Its code. -/
def QpStatus.code : QpStatus → Nat
  | .ok => 0 | .remoteError => 1 | .transportError => 2 | .flushed => 3 | .localError => 4

/-- A work request obeys the layout (16 R504). -/
def workOk (b : List Byte) : Bool :=
  let op := field b 0 4
  let len := field b 4 4
  b.length == 64 && decide (1 ≤ op ∧ op ≤ 3) && decide (1 ≤ len ∧ len ≤ 2 ^ 20) && (op != 3 || field b 16 8 == 0) && zeroBytes b 32 64

/-- The completion word of a request (16 R505). -/
def WorkReq.word (r : WorkReq) (status cause : Nat) : Word :=
  BitVec.ofNat 64 (status * 2 ^ 60 + cause * 2 ^ 48 + r.work.toNat % 2 ^ 48)

/-- The completions of the oldest requests that have a result, in posting order (16 R505): each is sent to the completion endpoint, and its
sender's RCVD counted. -/
def State.complete (s : State) (port q : Nat) : Nat → State
  | 0 => s
  | n + 1 =>
    match s.qpAt port q with
    | none => s
    | some x =>
      match x.reqs with
      | [] => s
      | r :: rest =>
        match r.result with
        | none => s
        | some (st, c) =>
          let s1 := (s.setQp port q { x with reqs := rest }).countRcvd r.g r.launch
          (s1.qpPost port q x.part r.dye x.comp 0 (wordBytes 8 (r.word st c)) false true).complete port q n

/-- Every completion that can be generated. -/
def State.completeAll (s : State) (port q : Nat) : State :=
  match s.qpAt port q with
  | some x => s.complete port q x.reqs.length
  | none => s

/-- The queue pair after an error of request `wid` (16 R505): it moves to ERROR; requests without a result are flushed. -/
def Qp.fail (x : Qp) (wid : Nat) (st : QpStatus) (cause : Nat) : Qp :=
  { x with
    error := true
    reqs := x.reqs.map fun (r : WorkReq) =>
      if r.result.isSome then r
      else if r.wid = wid then { r with result := some (st.code, cause) }
      else { r with result := some (QpStatus.flushed.code, 0) } }

/-- An error of a request (16 R495, R505). -/
def State.qpFail (s : State) (port q wid : Nat) (st : QpStatus) (cause : Nat) : State :=
  match s.qpAt port q with
  | none => s
  | some x =>
    let s1 := s.setQp port q (x.fail wid st cause)
    (if x.error then s1 else s1.msix x.part 4).completeAll port q

/-- A scale-out port at work for a partition. -/
def State.scaleUnit (s : State) (port part : Nat) (dye : BitVec 16) : Unit_ :=
  { node := .scale port, kind := 2, part := part, cluster := nodeFirst (s.partAt part).node, dye := dye }

/-- The pieces of an access of [dva, dva + len), line by line. -/
def pieces (dva len : Nat) : List (Nat × Nat) := splitLines (len / 128 + 2) dva len

/-- The trap cause of an access that a port cannot make for a request: rights, then translation (16 R504). -/
def State.workFault (s : State) (u : Unit_) (need dva len : Nat) : Option Cause :=
  match s.rangeCheck u.part need (BitVec.ofNat 64 dva) len with
  | some c => some c
  | none =>
    (pieces dva len).findSome? fun x =>
      match (s.translate u.part u.cluster u.dye x.1).1 with
      | .error c => some c
      | .ok (.far _ _ _ _) => s.farCheck u.part x.1 x.2 (if need = rightW then 1 else 0)
      | .ok _ => none

/-- The state after the walks of an access that a port cannot make. -/
def State.workWalks (s : State) (u : Unit_) (need dva len : Nat) : State :=
  if (s.rangeCheck u.part need (BitVec.ofNat 64 dva) len).isSome then s else s.unitWalks u (pieces dva len)

/-- What a request of this side reads to send (16 R504): WRITE and SEND send the bytes at their local DVA. -/
def WorkReq.source (r : WorkReq) : Nat × Nat := (r.ldva.toNat, if r.op = 2 then 0 else r.len)

/-- The work request of a block message, in the pair's ring (16 R504, R505): in ERROR it is flushed. -/
def workOf (wid : Nat) (h : Hdr) (g : Nat) (error : Bool) : WorkReq :=
  let b := h.bytes
  { wid := wid, op := field b 0 4, len := field b 4 4, ldva := BitVec.ofNat 64 (field b 8 8), rdva := BitVec.ofNat 64 (field b 16 8)
    work := BitVec.ofNat 64 (field b 24 8), launch := h.launch, g := g, dye := h.dye, sent := !error
    result := if error then some (QpStatus.flushed.code, 0) else none }

/-- A request that has come into the ring is transmitted, once what it sends has been read (16 R504), or ends in LOCAL_ERROR; `s` is the state before its
message was taken. -/
def State.transmit (s s2 : State) (port q part : Nat) (r : WorkReq) : State :=
  let u := s.scaleUnit port part r.dye
  let need := if r.op = 2 then rightW else rightR
  if s.unitWaits u (pieces r.ldva.toNat r.len) then s
  else match s2.workFault u need r.ldva.toNat r.len with
    | some c => (s2.workWalks u need r.ldva.toNat r.len).qpFail port q r.wid .localError c.code.toNat
    | none =>
      match s.devAsk u r.source.1 r.source.2, s2.devRead u r.source.1 r.source.2 with
      | some s3, _ => s3
      | none, .error c => (s2.devPaid u r.source.1 r.source.2).qpFail port q r.wid .localError c.code.toNat
      | none, .ok _ => s2.devPaid u r.source.1 r.source.2

/-- WORK_REQUEST (16 R504, R505): a request comes into the pair's ring and is accepted, what it sends is read, and it is transmitted; in ERROR it is
flushed. The ring holds 32. -/
def execWorkRequest (n : Nat) (s : State) : Res :=
  match s.takeMsg n with
  | some (⟨_, _, .work port q h⟩, s1) =>
    match s1.qpAt port q, h.from_ with
    | some x, .proc w =>
      if h.part ≠ x.part then .next (s1.sendFor h (.scale port) (.core w.g) 0 (.refuse h .rights))
      else if 32 ≤ x.reqs.length then .next s
      else
        let f := s1.fresh
        let r := workOf f.1 h w.g x.error
        let s2 := ((f.2.setQp port q { x with reqs := x.reqs ++ [r], counter := x.counter + (if x.error then 0 else 1) }).transport (.scale port)
          (.core w.g) h.dye 0).post .egress (.core w.g) (.accept h true)
        if x.error then .next (s2.completeAll port q)
        else if !workOk h.bytes then .next (s2.qpFail port q f.1 .localError 0)
        else .next (s.transmit s2 port q x.part r)
    | none, .proc w => .next (s1.sendFor h (.scale port) (.core w.g) 0 (.refuse h .closed))
    | _, _ => .next s1
  | _ => .next s

/-! Packets. -/

/-- Bytes written by a scale-out port at a DVA of a partition (16 R504): plain writes, each line at its home. -/
def State.portWrite (s : State) (port part : Nat) (dye : BitVec 16) (dva : Nat) (bytes : List Byte) : State :=
  (s.devWrite (s.scaleUnit port part dye) (bytes.length / 128 + 2) dva bytes).1

/-- The oldest request that has been sent and has no result is request `wid`'s or older: an answer to it is progress. -/
def Qp.waiting (x : Qp) (wid : Nat) : Option WorkReq := x.reqs.find? fun r => r.wid == wid && r.sent && r.result.isNone

/-- A request is answered: its result stands, the retransmission count starts anew. -/
def Qp.answered (x : Qp) (wid : Nat) : Qp :=
  { x with retries := 0, reqs := x.reqs.map fun (r : WorkReq) => if r.wid = wid then { r with result := some (QpStatus.ok.code, 0) } else r }

/-- A request packet of the other side has been taken (16 R504): the next in posting order has the next number. -/
def State.qpTaken (s : State) (port qp : Nat) : State :=
  match s.qpAt port qp with
  | some x => s.setQp port qp { x with rcv := x.rcv + 1 }
  | none => s

/-- A request packet of the other side performed here (16 R504): WRITE and READ in the partition under its rights, SEND as a block message; none of
them where a check fails, which the other side learns. What the port sends back is not state. The spec names no dye for them: they have account 0 of the
partition (DESIGN CHOICE, log entry 96). -/
def State.qpPerform (s : State) (port qp : Nat) (x : Qp) (p : ScalePacket) : State :=
  let u := s.scaleUnit port x.part (hostDye x.part)
  match p with
  | .write dva bytes =>
    if s.unitWaits u (pieces dva.toNat bytes.length) then s
    else if (s.workFault u rightW dva.toNat bytes.length).isSome then (s.workWalks u rightW dva.toNat bytes.length).qpTaken port qp
    else (s.portWrite port x.part u.dye dva.toNat bytes).qpTaken port qp
  | .read dva len =>
    if s.unitWaits u (pieces dva.toNat len) then s
    else if (s.workFault u rightR dva.toNat len).isSome then (s.workWalks u rightR dva.toNat len).qpTaken port qp
    else (s.devAsk u dva.toNat len).getD ((s.devPaid u dva.toNat len).qpTaken port qp)
  | .send bytes =>
    let y := s.epAt x.deliv.1 x.deliv.2
    let fits : Bool := y.st = .forwarding || (y.st ≠ .closed && y.ek = 1 && bytes.length = y.esz.toNat + 1)
    (if fits then s.qpPost port qp x.part u.dye x.deliv 1 bytes false false else s).qpTaken port qp
  | _ => s

/-- The answer to a READ of this side (16 R504): its bytes are written, or the local access fails. -/
def State.readAnswered (s : State) (port qp : Nat) (x : Qp) (r : WorkReq) (bytes : List Byte) : State :=
  let u := s.scaleUnit port x.part r.dye
  if s.unitWaits u (pieces r.ldva.toNat r.len) then s
  else match s.workFault u rightW r.ldva.toNat r.len with
    | some c => (s.workWalks u rightW r.ldva.toNat r.len).qpFail port qp r.wid .localError c.code.toNat
    | none => ((s.setQp port qp (x.answered r.wid)).portWrite port x.part r.dye r.ldva.toNat (bytes.take r.len)).completeAll port qp

/-- SCALE_OUT_PACKET (16 R504, R505, 03 R155): a packet that fails authentication is dropped and counted. The other side's requests are performed in
posting order, so one that is not the next is a repetition, or follows a lost one, and is dropped; answers end this side's requests. -/
def execScaleOutPacket (port qp : Nat) (y : ScaleArrival) (s : State) : Res :=
  match s.qpAt port qp with
  | none => .next s
  | some x =>
    match y.packet with
    | .unauthentic => .next (s.setQp port qp { x with dropped := x.dropped + 1 })
    | .ack wid bytes =>
      match x.waiting wid with
      | none => .next s
      | some r => .next (if r.op = 2 then s.readAnswered port qp x r bytes else (s.setQp port qp (x.answered wid)).completeAll port qp)
    | .fail wid cause =>
      match x.waiting wid with
      | none => .next s
      | some _ => .next (s.qpFail port qp wid .remoteError cause.toNat)
    | p => if y.seq = x.rcv then .next (s.qpPerform port qp x p) else .next s

/-- RETRANSMIT (16 R504, R505): the outstanding requests go again; after seven without progress the oldest ends in TRANSPORT_ERROR. -/
def execRetransmit (port qp : Nat) (s : State) : Res :=
  match s.qpAt port qp with
  | none => .next s
  | some x =>
    match x.reqs.find? fun r => r.sent && r.result.isNone with
    | none => .next s
    | some r =>
      if 7 ≤ x.retries then .next (s.qpFail port qp r.wid .transportError 0)
      else .next (s.setQp port qp { x with retries := x.retries + 1, counter := x.counter + (x.reqs.filter fun r => r.sent && r.result.isNone).length })

end Sys2Proof.Machine
end

