-- ==== Sys2Proof/Machine/Dispatch.lean ====
section
/-! DEFINITION. The dispatcher: one arm per constructor, each a call of its meaning. -/

namespace Sys2Proof.Machine

def exec (i : Instr) (s : State) : Host.Outcome State Fault Refusal :=
  match i with
  | .nop => Sys2Proof.Machine.execNop s
  | .add a b c => Sys2Proof.Machine.execAdd a b c s
  | .sub a b c => Sys2Proof.Machine.execSub a b c s
  | .mul a b c => Sys2Proof.Machine.execMul a b c s
  | .mulh a b c => Sys2Proof.Machine.execMulh a b c s
  | .mulhu a b c => Sys2Proof.Machine.execMulhu a b c s
  | .mulhsu a b c => Sys2Proof.Machine.execMulhsu a b c s
  | .div a b c => Sys2Proof.Machine.execDiv a b c s
  | .divu a b c => Sys2Proof.Machine.execDivu a b c s
  | .rem a b c => Sys2Proof.Machine.execRem a b c s
  | .remu a b c => Sys2Proof.Machine.execRemu a b c s
  | .and a b c => Sys2Proof.Machine.execAnd a b c s
  | .or a b c => Sys2Proof.Machine.execOr a b c s
  | .xor a b c => Sys2Proof.Machine.execXor a b c s
  | .andn a b c => Sys2Proof.Machine.execAndn a b c s
  | .shl a b c => Sys2Proof.Machine.execShl a b c s
  | .shr a b c => Sys2Proof.Machine.execShr a b c s
  | .sar a b c => Sys2Proof.Machine.execSar a b c s
  | .ror a b c => Sys2Proof.Machine.execRor a b c s
  | .min a b c => Sys2Proof.Machine.execMin a b c s
  | .minu a b c => Sys2Proof.Machine.execMinu a b c s
  | .max a b c => Sys2Proof.Machine.execMax a b c s
  | .maxu a b c => Sys2Proof.Machine.execMaxu a b c s
  | .cset a b c f => Sys2Proof.Machine.execCset a b c f s
  | .sel a b c d => Sys2Proof.Machine.execSel a b c d s
  | .clz a b => Sys2Proof.Machine.execClz a b s
  | .ctz a b => Sys2Proof.Machine.execCtz a b s
  | .popc a b => Sys2Proof.Machine.execPopc a b s
  | .brev a b => Sys2Proof.Machine.execBrev a b s
  | .sxb a b => Sys2Proof.Machine.execSxb a b s
  | .sxh a b => Sys2Proof.Machine.execSxh a b s
  | .sxw a b => Sys2Proof.Machine.execSxw a b s
  | .zxw a b => Sys2Proof.Machine.execZxw a b s
  | .addi a b imm => Sys2Proof.Machine.execAddi a b imm s
  | .andi a b imm => Sys2Proof.Machine.execAndi a b imm s
  | .ori a b imm => Sys2Proof.Machine.execOri a b imm s
  | .xori a b imm => Sys2Proof.Machine.execXori a b imm s
  | .shli a b imm => Sys2Proof.Machine.execShli a b imm s
  | .shri a b imm => Sys2Proof.Machine.execShri a b imm s
  | .sari a b imm => Sys2Proof.Machine.execSari a b imm s
  | .rori a b imm => Sys2Proof.Machine.execRori a b imm s
  | .seqi a b imm => Sys2Proof.Machine.execSeqi a b imm s
  | .snei a b imm => Sys2Proof.Machine.execSnei a b imm s
  | .slti a b imm => Sys2Proof.Machine.execSlti a b imm s
  | .sltui a b imm => Sys2Proof.Machine.execSltui a b imm s
  | .moviU a imm => Sys2Proof.Machine.execMoviU a imm s
  | .moviUZero a imm => Sys2Proof.Machine.execMoviUZero a imm s
  | .moviK a imm => Sys2Proof.Machine.execMoviK a imm s
  | .moviKZero a imm => Sys2Proof.Machine.execMoviKZero a imm s
  | .moviX a imm => Sys2Proof.Machine.execMoviX a imm s
  | .bfx a b p w => Sys2Proof.Machine.execBfx a b p w s
  | .bfi a b p w => Sys2Proof.Machine.execBfi a b p w s
  | .lea a b c x sc d => Sys2Proof.Machine.execLea a b c x sc d s
  | .leap a d h => Sys2Proof.Machine.execLeap a d h s
  | .brJ d h => Sys2Proof.Machine.execBrJ d h s
  | .brL d h => Sys2Proof.Machine.execBrL d h s
  | .beq a b d h => Sys2Proof.Machine.execBeq a b d h s
  | .bne a b d h => Sys2Proof.Machine.execBne a b d h s
  | .blt a b d h => Sys2Proof.Machine.execBlt a b d h s
  | .bge a b d h => Sys2Proof.Machine.execBge a b d h s
  | .bltu a b d h => Sys2Proof.Machine.execBltu a b d h s
  | .bgeu a b d h => Sys2Proof.Machine.execBgeu a b d h s
  | .loop a d h => Sys2Proof.Machine.execLoop a d h s
  | .brx a => Sys2Proof.Machine.execBrx a s
  | .call d h => Sys2Proof.Machine.execCall d h s
  | .callr a => Sys2Proof.Machine.execCallr a s
  | .ret => Sys2Proof.Machine.execRet s
  | .ld m sx a b d => Sys2Proof.Machine.execLd m sx a b d s
  | .st m a b d => Sys2Proof.Machine.execSt m a b d s
  | .ldp a b d => Sys2Proof.Machine.execLdp a b d s
  | .stp a b d => Sys2Proof.Machine.execStp a b d s
  | .ldc a b d => Sys2Proof.Machine.execLdc a b d s
  | .stc a b d => Sys2Proof.Machine.execStc a b d s
  | .ldcg a b d => Sys2Proof.Machine.execLdcg a b d s
  | .stcg a b d => Sys2Proof.Machine.execStcg a b d s
  | .movp a b => Sys2Proof.Machine.execMovp a b s
  | .ldg m sc acq sx a b d => Sys2Proof.Machine.execLdg m sc acq sx a b d s
  | .stg m sc rel a b d => Sys2Proof.Machine.execStg m sc rel a b d s
  | .ldgp sc acq a b d => Sys2Proof.Machine.execLdgp sc acq a b d s
  | .stgp sc rel a b d => Sys2Proof.Machine.execStgp sc rel a b d s
  | .aadd o => Sys2Proof.Machine.execAadd o s
  | .aand o => Sys2Proof.Machine.execAand o s
  | .aor o => Sys2Proof.Machine.execAor o s
  | .axor o => Sys2Proof.Machine.execAxor o s
  | .amin o => Sys2Proof.Machine.execAmin o s
  | .aminu o => Sys2Proof.Machine.execAminu o s
  | .amax o => Sys2Proof.Machine.execAmax o s
  | .amaxu o => Sys2Proof.Machine.execAmaxu o s
  | .axchg o => Sys2Proof.Machine.execAxchg o s
  | .acas o => Sys2Proof.Machine.execAcas o s
  | .afadd o => Sys2Proof.Machine.execAfadd o s
  | .redadd o => Sys2Proof.Machine.execRedadd o s
  | .redand o => Sys2Proof.Machine.execRedand o s
  | .redor o => Sys2Proof.Machine.execRedor o s
  | .redxor o => Sys2Proof.Machine.execRedxor o s
  | .redmin o => Sys2Proof.Machine.execRedmin o s
  | .redminu o => Sys2Proof.Machine.execRedminu o s
  | .redmax o => Sys2Proof.Machine.execRedmax o s
  | .redmaxu o => Sys2Proof.Machine.execRedmaxu o s
  | .redfadd o => Sys2Proof.Machine.execRedfadd o s
  | .fence m => Sys2Proof.Machine.execFence m s
  | .fencer m b c => Sys2Proof.Machine.execFencer m b c s
  | .snapset a => Sys2Proof.Machine.execSnapset a s
  | .snapreg a => Sys2Proof.Machine.execSnapreg a s
  | .snaprel => Sys2Proof.Machine.execSnaprel s
  | .txb a => Sys2Proof.Machine.execTxb a s
  | .txc a => Sys2Proof.Machine.execTxc a s
  | .txa => Sys2Proof.Machine.execTxa s
  | .pub a => Sys2Proof.Machine.execPub a s
  | .rdto a b c => Sys2Proof.Machine.execRdto a b c s
  | .rdtoWithReport a b c f => Sys2Proof.Machine.execRdtoWithReport a b c f s
  | .rdtox a b c => Sys2Proof.Machine.execRdtox a b c s
  | .rdtoxWithReport a b c f => Sys2Proof.Machine.execRdtoxWithReport a b c f s
  | .rdtog a b c => Sys2Proof.Machine.execRdtog a b c s
  | .rdtogWithReport a b c f => Sys2Proof.Machine.execRdtogWithReport a b c f s
  | .rdtogx a b c => Sys2Proof.Machine.execRdtogx a b c s
  | .rdtogxWithReport a b c f => Sys2Proof.Machine.execRdtogxWithReport a b c f s
  | .ldtag a b d => Sys2Proof.Machine.execLdtag a b d s
  | .chopen a b c => Sys2Proof.Machine.execChopen a b c s
  | .chclose a => Sys2Proof.Machine.execChclose a s
  | .send a b => Sys2Proof.Machine.execSend a b s
  | .sendb a b c => Sys2Proof.Machine.execSendb a b c s
  | .sendt a b => Sys2Proof.Machine.execSendt a b s
  | .sendh a b => Sys2Proof.Machine.execSendh a b s
  | .recv a t b c d => Sys2Proof.Machine.execRecv a t b c d s
  | .recvb a t b c d => Sys2Proof.Machine.execRecvb a t b c d s
  | .recvt a t b c d => Sys2Proof.Machine.execRecvt a t b c d s
  | .recvh a t b c d => Sys2Proof.Machine.execRecvh a t b c d s
  | .altp a t b c d n => Sys2Proof.Machine.execAltp a t b c d n s
  | .altf a t b c d n => Sys2Proof.Machine.execAltf a t b c d n s
  | .spawn a b c p => Sys2Proof.Machine.execSpawn a b c p s
  | .stop => Sys2Proof.Machine.execStop s
  | .join a t b c d => Sys2Proof.Machine.execJoin a t b c d s
  | .yield => Sys2Proof.Machine.execYield s
  | .setpri a => Sys2Proof.Machine.execSetpri a s
  | .time a => Sys2Proof.Machine.execTime a s
  | .twait a => Sys2Proof.Machine.execTwait a s
  | .bara sc => Sys2Proof.Machine.execBara sc s
  | .barw a t b sc => Sys2Proof.Machine.execBarw a t b sc s
  | .barx a t b sc => Sys2Proof.Machine.execBarx a t b sc s
  | .rden a b f => Sys2Proof.Machine.execRden a b f s
  | .rdsv a f => Sys2Proof.Machine.execRdsv a f s
  | .vsetl a b t => Sys2Proof.Machine.execVsetl a b t s
  | .vadd o => Sys2Proof.Machine.execVadd o s
  | .vsub o => Sys2Proof.Machine.execVsub o s
  | .vmul o => Sys2Proof.Machine.execVmul o s
  | .vdiv o => Sys2Proof.Machine.execVdiv o s
  | .vfma o => Sys2Proof.Machine.execVfma o s
  | .vmin o => Sys2Proof.Machine.execVmin o s
  | .vmax o => Sys2Proof.Machine.execVmax o s
  | .vabs o => Sys2Proof.Machine.execVabs o s
  | .vneg o => Sys2Proof.Machine.execVneg o s
  | .vcmp o => Sys2Proof.Machine.execVcmp o s
  | .vsel o => Sys2Proof.Machine.execVsel o s
  | .vand o => Sys2Proof.Machine.execVand o s
  | .vor o => Sys2Proof.Machine.execVor o s
  | .vxor o => Sys2Proof.Machine.execVxor o s
  | .vnot o => Sys2Proof.Machine.execVnot o s
  | .vshl o => Sys2Proof.Machine.execVshl o s
  | .vshr o => Sys2Proof.Machine.execVshr o s
  | .vsar o => Sys2Proof.Machine.execVsar o s
  | .vcvt o => Sys2Proof.Machine.execVcvt o s
  | .vexp2 o => Sys2Proof.Machine.execVexp2 o s
  | .vlog2 o => Sys2Proof.Machine.execVlog2 o s
  | .vrcp o => Sys2Proof.Machine.execVrcp o s
  | .vrsq o => Sys2Proof.Machine.execVrsq o s
  | .vtanh o => Sys2Proof.Machine.execVtanh o s
  | .vsqrt o => Sys2Proof.Machine.execVsqrt o s
  | .vred o => Sys2Proof.Machine.execVred o s
  | .vscan o => Sys2Proof.Machine.execVscan o s
  | .vbcast o => Sys2Proof.Machine.execVbcast o s
  | .vperm o => Sys2Proof.Machine.execVperm o s
  | .vgather o => Sys2Proof.Machine.execVgather o s
  | .vscatter o => Sys2Proof.Machine.execVscatter o s
  | .vrand o => Sys2Proof.Machine.execVrand o s
  | .vmov o => Sys2Proof.Machine.execVmov o s
  | .vflg a m => Sys2Proof.Machine.execVflg a m s
  | .vsadd o => Sys2Proof.Machine.execVsadd o s
  | .vssub o => Sys2Proof.Machine.execVssub o s
  | .vmulh o => Sys2Proof.Machine.execVmulh o s
  | .tacq => Sys2Proof.Machine.execTacq s
  | .trel => Sys2Proof.Machine.execTrel s
  | .tset a b => Sys2Proof.Machine.execTset a b s
  | .tld a b c mx d => Sys2Proof.Machine.execTld a b c mx d s
  | .tst a b c mx d => Sys2Proof.Machine.execTst a b c mx d s
  | .tzcC a => Sys2Proof.Machine.execTzcC a s
  | .tzcT a => Sys2Proof.Machine.execTzcT a s
  | .tmmaBf16 a b c => Sys2Proof.Machine.execTmmaBf16 a b c s
  | .tmmaF16 a b c => Sys2Proof.Machine.execTmmaF16 a b c s
  | .tmmaE4m3 a b c => Sys2Proof.Machine.execTmmaE4m3 a b c s
  | .tmmaE5m2 a b c => Sys2Proof.Machine.execTmmaE5m2 a b c s
  | .tmmaMxf8 a b c => Sys2Proof.Machine.execTmmaMxf8 a b c s
  | .tmmaMxf6 a b c => Sys2Proof.Machine.execTmmaMxf6 a b c s
  | .tmmaMxf4 a b c => Sys2Proof.Machine.execTmmaMxf4 a b c s
  | .tmmaI8 a b c => Sys2Proof.Machine.execTmmaI8 a b c s
  | .tcvt a b c i32 r sat => Sys2Proof.Machine.execTcvt a b c i32 r sat s
  | .ttran a b => Sys2Proof.Machine.execTtran a b s
  | .tldc a b c d => Sys2Proof.Machine.execTldc a b c d s
  | .tstc a b c d => Sys2Proof.Machine.execTstc a b c d s
  | .cpset b f => Sys2Proof.Machine.execCpset b f s
  | .cpgo a => Sys2Proof.Machine.execCpgo a s
  | .cpwait a => Sys2Proof.Machine.execCpwait a s
  | .rgwait a b => Sys2Proof.Machine.execRgwait a b s
  | .rgrel a b => Sys2Proof.Machine.execRgrel a b s
  | .scrub a b c => Sys2Proof.Machine.execScrub a b c s
  | .trap a imm => Sys2Proof.Machine.execTrap a imm s
  | .eret => Sys2Proof.Machine.execEret s
  | .krd a b t n => Sys2Proof.Machine.execKrd a b t n s
  | .kwr a b t n => Sys2Proof.Machine.execKwr a b t n s
  | .resume a b => Sys2Proof.Machine.execResume a b s
  | .kill a b => Sys2Proof.Machine.execKill a b s
  | .mintGroup a b c f => Sys2Proof.Machine.execMintGroup a b c f s
  | .mintFarPointer a b c f => Sys2Proof.Machine.execMintFarPointer a b c f s
  | .rights a b c => Sys2Proof.Machine.execRights a b c s
  | .plbinv b c => Sys2Proof.Machine.execPlbinv b c s
  | .ifence => Sys2Proof.Machine.execIfence s
  | .waiti a => Sys2Proof.Machine.execWaiti a s
  | .quiesce a m => Sys2Proof.Machine.execQuiesce a m s
  | .brk => Sys2Proof.Machine.execBrk s
  | .unallocatedOpcode w => Sys2Proof.Machine.execUnallocatedOpcode w s
  | .linePrefetch g => Sys2Proof.Machine.execLinePrefetch g s
  | .sliceEnd g => Sys2Proof.Machine.execSliceEnd g s
  | .priority0Preemption g => Sys2Proof.Machine.execPriority0Preemption g s
  | .deadlineComparison g => Sys2Proof.Machine.execDeadlineComparison g s
  | .channelHeaderArrival n => Sys2Proof.Machine.execChannelHeaderArrival n s
  | .headerResend n => Sys2Proof.Machine.execHeaderResend n s
  | .transferGrant n => Sys2Proof.Machine.execTransferGrant n s
  | .transferDone n => Sys2Proof.Machine.execTransferDone n s
  | .doneMessage n => Sys2Proof.Machine.execDoneMessage n s
  | .grantedDataArrival n => Sys2Proof.Machine.execGrantedDataArrival n s
  | .acceptance n => Sys2Proof.Machine.execAcceptance n s
  | .closedReply n => Sys2Proof.Machine.execClosedReply n s
  | .loadDataArrival n => Sys2Proof.Machine.execLoadDataArrival n s
  | .errorResponse n => Sys2Proof.Machine.execErrorResponse n s
  | .deferredFaultTrap g => Sys2Proof.Machine.execDeferredFaultTrap g s
  | .writeQueueDrain c k => Sys2Proof.Machine.execWriteQueueDrain c k s
  | .storeAcknowledgement n => Sys2Proof.Machine.execStoreAcknowledgement n s
  | .homeRead n e => Sys2Proof.Machine.execHomeRead n e s
  | .homeWrite n => Sys2Proof.Machine.execHomeWrite n s
  | .homeAtomic n e => Sys2Proof.Machine.execHomeAtomic n e s
  | .atomicWatchdog n => Sys2Proof.Machine.execAtomicWatchdog n s
  | .translationWalk c dva => Sys2Proof.Machine.execTranslationWalk c dva s
  | .plbMiss g dva => Sys2Proof.Machine.execPlbMiss g dva s
  | .snapshotRequest k => Sys2Proof.Machine.execSnapshotRequest k s
  | .epochMarker k srv => Sys2Proof.Machine.execEpochMarker k srv s
  | .epochMarkerAcknowledgement k srv => Sys2Proof.Machine.execEpochMarkerAcknowledgement k srv s
  | .snapshotReply k => Sys2Proof.Machine.execSnapshotReply k s
  | .watermarkBroadcast srv v => Sys2Proof.Machine.execWatermarkBroadcast srv v s
  | .vheldBroadcast g v => Sys2Proof.Machine.execVheldBroadcast g v s
  | .firnLineBroadcast srv => Sys2Proof.Machine.execFirnLineBroadcast srv s
  | .prepare tx srv => Sys2Proof.Machine.execPrepare tx srv s
  | .vote tx srv => Sys2Proof.Machine.execVote tx srv s
  | .apply tx srv => Sys2Proof.Machine.execApply tx srv s
  | .abortTxid tx srv => Sys2Proof.Machine.execAbortTxid tx srv s
  | .abortAcknowledgement tx srv => Sys2Proof.Machine.execAbortAcknowledgement tx srv s
  | .publishApply k srv => Sys2Proof.Machine.execPublishApply k srv s
  | .copyRegistration g slot => Sys2Proof.Machine.execCopyRegistration g slot s
  | .revocation line => Sys2Proof.Machine.execRevocation line s
  | .revocationNotice g ts => Sys2Proof.Machine.execRevocationNotice g ts s
  | .ablationReclaim line ts => Sys2Proof.Machine.execAblationReclaim line ts s
  | .sourceRead k u e => Sys2Proof.Machine.execSourceRead k u e s
  | .thirdPartyDelivery k imm => Sys2Proof.Machine.execThirdPartyDelivery k imm s
  | .failedVoidDelivery k imm => Sys2Proof.Machine.execFailedVoidDelivery k imm s
  | .errorCompletion k => Sys2Proof.Machine.execErrorCompletion k s
  | .report k => Sys2Proof.Machine.execReport k s
  | .copyTransfer c id u e => Sys2Proof.Machine.execCopyTransfer c id u e s
  | .copyCompletion c id => Sys2Proof.Machine.execCopyCompletion c id s
  | .tileCommandStart g => Sys2Proof.Machine.execTileCommandStart g s
  | .tileCommandComplete g => Sys2Proof.Machine.execTileCommandComplete g s
  | .barrierArrival g slot => Sys2Proof.Machine.execBarrierArrival g slot s
  | .barrierRelease part lid sc unit => Sys2Proof.Machine.execBarrierRelease part lid sc unit s
  | .frostSweep part lid g => Sys2Proof.Machine.execFrostSweep part lid g s
  | .sweepResult part lid => Sys2Proof.Machine.execSweepResult part lid s
  | .completionRecord fn => Sys2Proof.Machine.execCompletionRecord fn s
  | .nrgo fn => Sys2Proof.Machine.execNrgo fn s
  | .launch fn w => Sys2Proof.Machine.execLaunch fn w s
  | .launchStart fn => Sys2Proof.Machine.execLaunchStart fn s
  | .netdel fn w => Sys2Proof.Machine.execNetdel fn w s
  | .crcons fn w => Sys2Proof.Machine.execCrcons fn w s
  | .abort fn w => Sys2Proof.Machine.execAbort fn w s
  | .hold fn w => Sys2Proof.Machine.execHold fn w s
  | .registerWrite fn off w => Sys2Proof.Machine.execRegisterWrite fn off w s
  | .held part => Sys2Proof.Machine.execHeld part s
  | .partitionResume part => Sys2Proof.Machine.execPartitionResume part s
  | .quotaComparison => Sys2Proof.Machine.execQuotaComparison s
  | .meterFlush u => Sys2Proof.Machine.execMeterFlush u s
  | .correctionFactor rail measured => Sys2Proof.Machine.execCorrectionFactor rail measured s
  | .equota part w => Sys2Proof.Machine.execEquota part w s
  | .create node part => Sys2Proof.Machine.execCreate node part s
  | .destroy part => Sys2Proof.Machine.execDestroy part s
  | .merge node => Sys2Proof.Machine.execMerge node s
  | .split node part => Sys2Proof.Machine.execSplit node part s
  | .retire quad part => Sys2Proof.Machine.execRetire quad part s
  | .badOp op => Sys2Proof.Machine.execBadOp op s
  | .ptmap o tables => Sys2Proof.Machine.execPtmap o tables s
  | .ptunmap o => Sys2Proof.Machine.execPtunmap o s
  | .domset o => Sys2Proof.Machine.execDomset o s
  | .rangeset o => Sys2Proof.Machine.execRangeset o s
  | .ceweight o => Sys2Proof.Machine.execCeweight o s
  | .farmap o => Sys2Proof.Machine.execFarmap o s
  | .farepoch o => Sys2Proof.Machine.execFarepoch o s
  | .qpcreate o => Sys2Proof.Machine.execQpcreate o s
  | .qpreset o => Sys2Proof.Machine.execQpreset o s
  | .sparerow o row => Sys2Proof.Machine.execSparerow o row s
  | .poisonset o => Sys2Proof.Machine.execPoisonset o s
  | .mailboxBadOp o op => Sys2Proof.Machine.execMailboxBadOp o op s
  | .dbell fn w => Sys2Proof.Machine.execDbell fn w s
  | .sres fn w => Sys2Proof.Machine.execSres fn w s
  | .skill fn w => Sys2Proof.Machine.execSkill fn w s
  | .flcons fn w => Sys2Proof.Machine.execFlcons fn w s
  | .hvgo fn w => Sys2Proof.Machine.execHvgo fn w s
  | .harvestEnd fn lines => Sys2Proof.Machine.execHarvestEnd fn lines s
  | .rcgo fn w ok => Sys2Proof.Machine.execRcgo fn w ok s
  | .podcfg w => Sys2Proof.Machine.execPodcfg w s
  | .perstDeassert => Sys2Proof.Machine.execPerstDeassert s
  | .unitReady u pass failedQuads => Sys2Proof.Machine.execUnitReady u pass failedQuads s
  | .functionLevelReset fn => Sys2Proof.Machine.execFunctionLevelReset fn s
  | .physicalFunctionReset => Sys2Proof.Machine.execPhysicalFunctionReset s
  | .flitReceive port seqn crcGood ack p => Sys2Proof.Machine.execFlitReceive port seqn crcGood ack p s
  | .negativeAcknowledgement port seqn => Sys2Proof.Machine.execNegativeAcknowledgement port seqn s
  | .laneFailure port lane => Sys2Proof.Machine.execLaneFailure port lane s
  | .deadList pkgs links => Sys2Proof.Machine.execDeadList pkgs links s
  | .packetReturn k => Sys2Proof.Machine.execPacketReturn k s
  | .unreachableWatchdog k => Sys2Proof.Machine.execUnreachableWatchdog k s
  | .workRequest n => Sys2Proof.Machine.execWorkRequest n s
  | .scaleOutPacket port qp p => Sys2Proof.Machine.execScaleOutPacket port qp p s
  | .retransmit port qp => Sys2Proof.Machine.execRetransmit port qp s
  | .bar2Read fn addr n => Sys2Proof.Machine.execBar2Read fn addr n s
  | .bar2Write fn addr bytes => Sys2Proof.Machine.execBar2Write fn addr bytes s
  | .lockInterface fn => Sys2Proof.Machine.execLockInterface fn s
  | .startInterface fn => Sys2Proof.Machine.execStartInterface fn s
  | .stopInterface fn => Sys2Proof.Machine.execStopInterface fn s
  | .getDeviceInterfaceReport fn => Sys2Proof.Machine.execGetDeviceInterfaceReport fn s
  | .ideKm fn keyed => Sys2Proof.Machine.execIdeKm fn keyed s
  | .keyLoad fn slot key fixed start => Sys2Proof.Machine.execKeyLoad fn slot key fixed start s
  | .keyDrop fn slot => Sys2Proof.Machine.execKeyDrop fn slot s
  | .getVersion fn => Sys2Proof.Machine.execGetVersion fn s
  | .getCapabilities fn => Sys2Proof.Machine.execGetCapabilities fn s
  | .negotiateAlgorithms fn => Sys2Proof.Machine.execNegotiateAlgorithms fn s
  | .getDigests fn => Sys2Proof.Machine.execGetDigests fn s
  | .getCertificate fn => Sys2Proof.Machine.execGetCertificate fn s
  | .challenge fn => Sys2Proof.Machine.execChallenge fn s
  | .getMeasurements fn idx signed => Sys2Proof.Machine.execGetMeasurements fn idx signed s
  | .keyExchange fn => Sys2Proof.Machine.execKeyExchange fn s
  | .finish fn verified => Sys2Proof.Machine.execFinish fn verified s
  | .endSession fn => Sys2Proof.Machine.execEndSession fn s
  | .rowspare srv row => Sys2Proof.Machine.execRowspare srv row s
  | .parity u => Sys2Proof.Machine.execParity u s
  | .elementGroup g => Sys2Proof.Machine.execElementGroup g s
  | .configurationWrite fn => Sys2Proof.Machine.execConfigurationWrite fn s
  | .linkRetrainingEnd port up => Sys2Proof.Machine.execLinkRetrainingEnd port up s
  | .firmwareImageVerified verdict svn raises root => Sys2Proof.Machine.execFirmwareImageVerified verdict svn raises root s
  | .podSynchronisation ns => Sys2Proof.Machine.execPodSynchronisation ns s

end Sys2Proof.Machine
end

