-- ==== Sys2Proof/Machine/Run.lean ====
section
/-! DEFINITION. What `step` calls: the turn of a core (01 R21, R47, 05 R191, R192, 07 R251), the order in which the device's own steps
are taken when the agenda names none (log entry 1), and the state in which one instruction is fetched next (log entry 7). -/

namespace Sys2Proof.Machine

/-! The turn of a core. -/

/-- At a boundary: the processes that a hold stops, or an abort, are parked, those past a point of no return once they have left it (01
R69, 14 R450, R439). -/
def State.boundary (s : State) (g : Nat) : State :=
  let s1 := match s.partOfCore g with
    | some p => if (s.partAt p).stopping then s.parkCore g (s.partAt p).full else s
    | none => s
  s1.launches.foldl (fun st l =>
    if l.aborting then
      ((st.coreAt g).procs.map (·.1)).foldl (fun st2 k => if (st2.procAt g k).ofLaunch l.ref then st2.parkOne g k else st2) st
    else st) s1

/-- The instruction at the running process's PC, from the line it executes (05 R185-R192). -/
def State.fetch (s : State) (g : Nat) (p : Proc) : Except DecodeError Instr := decodeLine ((s.coreAt g).curLine p) (headOf p.pc)

/-- The head at the PC is decoded and executed; one that is no instruction traps ILLEGAL (05 R192, R201). -/
def State.issue (s : State) (g k : Nat) : Res :=
  let p := s.procAt g k
  match s.fetch g p with
  | .error _ => .next (s.trap g k p .illegal 0)
  | .ok i => exec i s

/-- The trap of an entry (05 R191, 13 R414, R418): reported PC the target, faulting PC the last instruction. -/
def State.entryTrap (s : State) (g k : Nat) (p : Proc) (c : Cause) : State :=
  s.deliver g k p { cause := c, rpc := p.pc, fpc := p.lastPc, info := if c = .rights then 0 else p.pc.setWidth 64, code := 0
                    deferred := false, entry := true }

/-- The running process enters the line of its PC when it has not, then issues (05 R191). A line that fails its check leaves the fetch buffer as it was
(DESIGN CHOICE, log entry 70). -/
def State.enterAndIssue (s : State) (g k : Nat) : Res :=
  let c := s.coreAt g
  if c.fb.entered then s.issue g k
  else if s.fetchWaits g (c.procAt k) then .next s
  else match s.enter g (c.procAt k) with
    | .error e => .next (s.entryTrap g k (c.procAt k) e)
    | .ok fb => (s.setCore g { c with fb := fb }).issue g k

/-- What comes before the next instruction of the running process, in order: a reply's trap (08 R299), a deferred fault (07 R251), pre-emption and
the end of the slice (01 R21, R48); none when the process goes on. -/
def State.interposed (s : State) (g k : Nat) : Option State :=
  let p := s.procAt g k
  match p.blk with
  | .replyTrap pc cause => some (s.deliver g k { p with pc := pc, blk := .none } (.own pc cause 0))
  | _ =>
    match p.committed, p.oldestFault with
    | false, some f => some (s.faultNow g k f)
    | _, _ => match s.preempted g with
      | some s1 => some s1
      | none => s.sliceOver g

/-- The running process of core g takes its turn. -/
def State.procTurn (s : State) (g k : Nat) : Res :=
  match s.interposed g k with
  | some s1 => .next s1
  | none => s.enterAndIssue g k

/-- Core g may run: it belongs to a partition, its quad is in service, and the error containment has not fenced it (15 R472, R476, 17
R519). -/
def State.coreRuns (s : State) (g : Nat) : Bool :=
  match s.partOfCore g with
  | some p => s.coreInPart p g && !(s.coreAt g).fenced
  | none => false

/-- A cycle of core g: parking, dispatch when nothing runs, prefetch, then the running process's turn. -/
def State.coreTurn (s : State) (g : Nat) : Res :=
  let s0 : State := { s with cycle := s.cycle + 1, cur := g }
  if !s0.coreRuns g then .next s0
  else
    let s1 := s0.boundary g
    let s2 := if (s1.coreAt g).run.isNone then s1.dispatch g else s1
    match (s2.coreAt g).run with
    | none => .next s2
    | some k =>
      let c := s2.coreAt g
      let s3 := (s2.setCore g { c with sliceCnt := c.sliceCnt + 1 }).prefetched g
      s3.procTurn g k

/-! The device's own steps when the agenda is empty (log entry 1). -/

/-- The next state of the first step of a list that brings something about: `same` tells that a step of the list had nothing to do. -/
def firstChange (s : State) (same : State → Bool) : List (State → Res) → Option State
  | [] => none
  | f :: fs =>
    match f s with
    | .next t => if same t then firstChange s same fs else some t
    | _ => firstChange s same fs

/-- The steps that message n may take. -/
def msgSteps (n : Nat) : Body → List (State → Res)
  | .header _ _ | .farHeader _ _ _ _ => [execChannelHeaderArrival n]
  | .returned _ _ _ _ | .bounced _ _ _ => [execHeaderResend n]
  | .release _ _ _ => []
  | .grant _ _ _ _ _ => [execTransferGrant n]
  | .data _ _ _ _ slot => [if slot then execGrantedDataArrival n else execTransferDone n]
  | .done _ _ => [execDoneMessage n]
  | .accept _ _ => [execAcceptance n]
  | .refuse _ _ => [execClosedReply n]
  | .req _ => [execHomeRead n .clean, execHomeWrite n, execHomeAtomic n .clean]
  | .resp _ _ _ _ _ _ _ _ => [execLoadDataArrival n]
  | .ack _ _ _ => [execStoreAcknowledgement n]
  | .err _ _ => [execErrorResponse n]
  | .notice ts => (List.range Config.numCores).map fun g => execRevocationNotice g ts
  | .work _ _ _ => [execWorkRequest n]

/-- The steps of the messages in flight that may be delivered, oldest first. -/
def State.netSteps (s : State) : List (State → Res) :=
  s.net.zipIdx.flatMap fun m => if deliverable s.net m.2 then msgSteps m.2 m.1.body else []

/-- The drains of the write queues and of the egress queue. -/
def State.drainSteps (s : State) : List (State → Res) :=
  (s.clusters.flatMap fun c => c.2.wq.map fun e => execWriteQueueDrain c.1 e.seq) ++
    s.egress.map fun e => execWriteQueueDrain Config.numClusters e.seq

/-- The broadcasts that would bring a ready server or a core something new (02 R100, R115, 03 R146). -/
def State.broadcastSteps (s : State) : List (State → Res) :=
  let v := s.tss.v
  let firn := s.tss.firn
  let newest := s.tss.newest
  let behind := s.cores.filter fun c => decide (c.2.vheld < v)
  ((s.servers.filter fun e => e.2.ready && decide (e.2.v < v)).map fun e => execWatermarkBroadcast e.1 v) ++
    ((s.tss.acked.filter fun e => decide (e.2 < v)).map fun e => execWatermarkBroadcast e.1 v) ++
    ((s.servers.filter fun e => e.2.ready && (e.2.firn != firn || e.2.newest != newest)).map fun e => execFirnLineBroadcast e.1) ++
    (if behind.isEmpty then [] else
      let held := s.heldV
      (behind.filter fun c => decide (c.2.vheld < held)).map fun c => execVheldBroadcast c.1 held)

/-- The timestamp service's steps. -/
def State.tssSteps (s : State) : List (State → Res) :=
  (s.tss.reqs.flatMap fun r => execSnapshotRequest r.k :: (r.marks.map fun v => execEpochMarker r.k v) ++
      (r.acks.map fun v => execEpochMarkerAcknowledgement r.k v) ++ [execSnapshotReply r.k]) ++
    (s.tss.txs.flatMap fun x =>
      (x.2.asked.map fun v => execPrepare x.1 v) ++ (x.2.votes.map fun v => execVote x.1 v.1) ++ (x.2.homes.map fun v => execApply x.1 v) ++
        (x.2.toAbort.map fun v => execAbortTxid x.1 v) ++ x.2.aborted.map fun v => execAbortAcknowledgement x.1 v) ++
    (s.tss.pubs.flatMap fun x => x.homes.map fun v => execPublishApply x.k v) ++ s.broadcastSteps

/-- The next piece of a copy's destination in order. -/
def Copy.nextWrite (y : Copy) : Nat :=
  if y.done.contains y.done.length then ((List.range (y.done.length + 1)).find? fun u => !y.done.contains u).getD 0 else y.done.length

/-- The steps of the engines: copies, tile units, third-party reads, barriers. -/
def State.engineSteps (s : State) : List (State → Res) :=
  (s.clusters.flatMap fun c => c.2.journal.flatMap fun y =>
      [execCopyTransfer c.1 y.seq ⟨true, y.nextWrite, true⟩ .clean, execCopyTransfer c.1 y.seq ⟨false, y.nextRead, true⟩ .clean,
        execCopyCompletion c.1 y.seq]) ++
    ((s.cores.filter fun c => !c.2.tile.queue.isEmpty).map fun c => if c.2.tile.busy then execTileCommandComplete c.1 else execTileCommandStart c.1) ++
    (s.tprs.flatMap fun t =>
      ((List.range t.count).map fun u => execSourceRead t.k u .clean) ++
        ((List.range t.members.length).flatMap fun i => [execThirdPartyDelivery t.k i, execFailedVoidDelivery t.k i]) ++
        [execErrorCompletion t.k, execReport t.k]) ++
    (s.cores.flatMap fun c => c.2.procs.filterMap fun e => match e.2.wait with
      | .copyReg _ false _ _ _ => some (execCopyRegistration c.1 e.1)
      | _ => none) ++
    (s.launches.flatMap fun l => l.bars.flatMap fun b =>
      (b.pending.map fun r => execBarrierArrival r.g r.slot) ++
        (if !b.members.isEmpty && b.members.all b.arrived.contains then [execBarrierRelease l.ref.fn l.ref.lid b.sc b.unit] else []))

/-- A sweep of a launch: every core latches, and the result follows (01 R66, R67); one without cores is swept as well (R68). -/
def State.sweepLaunch (s : State) (l : Launch) : State :=
  let onNext (st : State) (r : Res) : State := match r with | .next t => t | _ => st
  let s1 := (if l.cores.isEmpty then [0] else l.cores).foldl (fun st g => onNext st (execFrostSweep l.ref.fn l.ref.lid g st)) s
  onNext s1 (execSweepResult l.ref.fn l.ref.lid s1)

/-- Every two microseconds each launch is swept (01 R66). -/
def State.sweepAll (s : State) : State := if s.cycle % 4500 = 0 then s.launches.foldl State.sweepLaunch s else s

/-- A deadline of core g's processes has passed. -/
def State.overdue (s : State) (c : Core) : Bool := c.procs.any fun e => e.2.deadline != Config.never && decide (e.2.deadline ≤ s.time)

/-- A comparison would set CQTA of a partition (14 R456). -/
def State.quotaDue (s : State) : Bool :=
  s.parts.any fun e => e.2.equota != Part.zero.equota && !e.2.cqta && decide (e.2.equota ≤ s.etotal e.1)

/-- The rows that servers are due to spare by themselves (17 R517). -/
def State.dueRows (s : State) : List (Nat × Nat) :=
  s.servers.flatMap fun e => ((e.2.rows.map (·.1) ++ e.2.lostRows).filter (s.rowDue e.1)).map fun r => (e.1, r)

/-- The steps of the firmware and the launch sequencer. -/
def State.controlSteps (s : State) : List (State → Res) :=
  (s.fns.flatMap fun f =>
      (if !f.2.records.isEmpty || s.launches.any (fun l => l.aborting) then [execCompletionRecord f.1] else []) ++
        (if f.2.queue.isEmpty then [] else [execLaunchStart f.1]) ++
      (if f.2.harvest.isSome then [execHarvestEnd f.1 16] else []) ++ (if (s.partAt f.1).resetting then [execFunctionLevelReset f.1] else [])) ++
    (s.parts.flatMap fun p => if p.2.stopping then [execHeld p.1, execPartitionResume p.1] else []) ++
    (match s.pcRetire with | some (q, p) => [execRetire q p] | none => []) ++
    (if s.owed.isEmpty then [] else [execPacketReturn s.nextId]) ++ ((s.unacked.filter (·.back)).map fun x => execPacketReturn x.num) ++
    (s.dueRows.map fun x => execRowspare x.1 { row := rowIdOf (BitVec.ofNat 24 x.2), lost := [] }) ++
    (if s.quotaDue then [execQuotaComparison] else []) ++
    ((s.cores.filter fun c => s.overdue c.2).map fun c => execDeadlineComparison c.1)

/-- The reclaims of pool versions that nothing needs (02 R116). -/
def State.reclaimSteps (s : State) : List (State → Res) :=
  (s.hbm.filter fun e => !e.2.pool.isEmpty).flatMap fun e =>
    match s.hbmHome (e.1 * 128) with
    | none => []
    | some v =>
      let srv := s.serverAt v
      ((List.range e.2.pool.length).filter fun i => reclaimable srv.firn srv.v (e.2.successorTs i)).map fun i =>
        execAblationReclaim e.1 (e.2.pool.getD i Ver.zero).ts

/-! Each group of steps changes one part of the state whenever it has something to do. -/

/-- A body's kind and the identity it carries. -/
def Body.mark : Body → Nat × Nat
  | .header _ h => (0, h.hid)
  | .returned _ _ h _ => (1, h.hid)
  | .grant _ _ h _ _ => (2, h.hid)
  | .data _ h _ _ _ => (3, h.hid)
  | .done h _ => (4, h.hid)
  | .accept h _ => (5, h.hid)
  | .refuse h _ => (6, h.hid)
  | .farHeader _ _ _ h => (7, h.hid)
  | .req r => (8, r.oid)
  | .resp r _ _ _ _ _ _ _ => (9, r.oid)
  | .ack r _ _ => (10, r.oid)
  | .err r _ => (11, r.oid)
  | .notice ts => (12, ts)
  | .work _ _ h => (13, h.hid)
  | .bounced _ b _ => (14 + b.mark.1, b.mark.2)
  | .release r _ phase => (13, r.slot + phase)

/-- The messages in flight, and the handler threads: a delivery takes a message away, or takes up a thread (17 R510). -/
def State.netMark (s : State) : List (Node × Node × Nat × Nat) × List Nat :=
  (s.net.map fun m => (m.src, m.dst, m.body.mark), s.servers.map fun e => e.2.threads.length)

/-- How far a third-party read has come. -/
def Tpr.mark (t : Tpr) : List Nat × List Bool :=
  ([t.k, t.parts.length, t.asked.length], t.data.isSome :: t.fault.isSome :: t.reported :: t.members.flatMap fun m => [m.sent, m.answered, m.refused.isSome])

/-- The entries that wait in the queues. -/
def State.queueMark (s : State) : List (List Nat) × List Nat × List Nat :=
  (s.clusters.map fun c => c.2.wq.map (·.seq), s.egress.map (·.seq), s.farOut.map (·.oid))

/-- How far a copy has come. -/
def Copy.mark (y : Copy) : List Nat :=
  [y.seq, y.done.length, (y.asked.map fun x => x.parts.length).sum, y.reads.length, if y.finished.isSome then 1 else 0, if y.fault.isSome then 1 else 0]

/-- How far the engines have come. -/
def State.engineMark (s : State) : List (List (List Nat)) × List (List Nat × List Bool) × List (Nat × Bool) × List (List Wait) × List (List Barrier) :=
  (s.clusters.map fun c => c.2.journal.map Copy.mark, s.tprs.map Tpr.mark, s.cores.map fun c => (c.2.tile.queue.length, c.2.tile.busy),
    s.cores.map fun c => c.2.procs.map (·.2.wait), s.launches.map (·.bars))

/-- How far the functions, the launches and the partitions have come. -/
def State.controlMark (s : State) :
    List (Nat × Word × Nat × Option Harvest) × List (LRef × Option Sweep × Nat) × Tbl Part × Option (Nat × Nat) × List (Nat × Bool × List Nat) ×
      List (Nat × Nat) × List (Nat × List Nat) × List (List (PState × Word)) :=
  (s.fns.map fun f => (f.2.records.length, f.2.crprod, f.2.queue.length, f.2.harvest), s.launches.map fun l => (l.ref, l.sweep, l.agree),
    s.parts, s.pcRetire, s.unacked.map fun x => (x.num, x.back, x.pk.route), s.owed,
    s.servers.map fun e => (e.2.rows.length, e.2.lostRows), s.cores.map fun c => c.2.procs.map fun e => (e.2.state, e.2.deadline))

/-- The pool versions of the lines. -/
def State.poolMark (s : State) : List Nat := s.hbm.map fun e => e.2.pool.length

/-- The device's own step: the groups in the order in which they are tried. -/
def State.ownStep (s : State) : Option State :=
  (firstChange s (fun t => t.netMark == s.netMark) s.netSteps).orElse fun _ =>
  (firstChange s (fun t => t.queueMark == s.queueMark) s.drainSteps).orElse fun _ =>
  (firstChange s (fun t => t.tss == s.tss && t.servers == s.servers && (t.cores.map (·.2.vheld)) == s.cores.map (·.2.vheld)) s.tssSteps).orElse fun _ =>
  (firstChange s (fun t => t.engineMark == s.engineMark) s.engineSteps).orElse fun _ =>
  (firstChange s (fun t => t.controlMark == s.controlMark) s.controlSteps).orElse fun _ =>
  firstChange s (fun t => t.poolMark == s.poolMark) s.reclaimSteps

/-- Core g has a process to run. -/
def State.wantsTurn (s : State) (g : Nat) : Bool :=
  s.coreRuns g && ((s.coreAt g).run.isSome || (s.coreAt g).nextReady.isSome)

/-- The next core after the last one that has a process to run. -/
def State.nextCore (s : State) : Option Nat :=
  let gs := (s.cores.map (·.1)).filter s.wantsTurn
  match gs.find? fun g => decide (s.cur < g) with
  | some g => some g
  | none => gs.head?

/-- The cycles at which the deadlines to come pass (00 R3, 01 R43). -/
def State.wakeCycles (s : State) : List Nat :=
  s.cores.flatMap fun c => (c.2.procs.filter fun e => e.2.deadline != Config.never && decide (s.time < e.2.deadline)).map fun e =>
    ((e.2.deadline.toNat - s.bring.tbOff) * 9 + 3) / 4

/-- Time alone passes, to the next deadline or whole microsecond. -/
def State.idle (s : State) : State := { s with cycle := s.wakeCycles.foldl Nat.min ((s.cycle / 2250 + 1) * 2250) }

/-- What happens when the agenda is empty: the device's own step; else, with a sweep when one is due, the next core's turn; else time
passes. -/
def State.autoStep (s : State) : Res :=
  if s.bring.state != .running then .next s.idle
  else match s.ownStep with
    | some t => .next t
    | none =>
      let s1 := s.sweepAll
      match s1.nextCore with
      | some g => s1.coreTurn g
      | none => .next s1.idle

/-- The turn that the agenda names: an instruction is never an event of its own. -/
def State.takeTurn (s : State) : Turn → Res
  | .core g => s.coreTurn g
  | .event i => if i.isEvent then exec i s else .next s
  | .tick n => .next { s with cycle := s.cycle + n }
  | .upset l e => .next { s with upsets := s.upsets ++ [(l, e)] }
  | .podLaunch fn lid pkg => .next (s.mapLaunch { fn := fn, lid := lid } fun l => { l with pkgs := insertNat pkg l.pkgs }).resetPodLaunches

/-! One instruction placed where the next step fetches it (log entry 7). -/

/-- A core without a running process, given one: a steward process of partition 0 in slot 0, its segment all of the segment area. -/
def Core.staged (c : Core) : Core :=
  { c.setProc 0 { Proc.zero with stw := true, mode := true, state := .running, sl := 0x58000, pc := 1, lastPc := 1 } with
    run := some 0, fb := .empty, sliceCnt := 0 }

/-- The package with a running process on core `cur`: as it is where one runs, else in the state after bring-up with partition 0 on the
whole package. -/
def State.staged (s : State) : State :=
  if s.coreRuns s.cur && s.runSlot.isSome then s
  else
    let s1 := s.setCluster (clusterOf s.cur) { s.clusterAt (clusterOf s.cur) with ready := true }
    let s2 : State := { s1 with retired := [], bring := { s1.bring with state := .running }, parts := [(0, { Part.zero with node := 1 })] }
    s2.setCore s.cur { (s2.coreAt s.cur).staged with fenced := false }

/-- The line of one head placed at the running process's PC, which names its head 1; the buffer holds no line, and the core has the
next turn. -/
def State.placeLine (s : State) (bytes : List Byte) : State :=
  let s1 := s.staged
  let g := s1.cur
  match s1.runSlot with
  | none => s1
  | some k =>
    let c := s1.coreAt g
    let p := c.procAt k
    let pc := BitVec.ofNat 52 (lineOf p.pc + 1)
    { s1.setCore g { (c.lmWrite (p.sb.toNat + lineOf p.pc) bytes).setProc k { p with pc := pc } with fb := .empty } with agenda := [.core g] }

end Sys2Proof.Machine
end

