-- ==== Sys2Proof/Machine/Step.lean ====
section
/-! DEFINITION. One step of the package, and an instruction placed where the next step fetches it. -/

namespace Sys2Proof.Machine

/-- One step (log entry 1): the turn that the agenda names first, or, with nothing on the agenda, the device's own order. -/
def step (s : State) : Host.Outcome State Fault Refusal :=
  match s.agenda with
  | [] => s.autoStep
  | t :: rest => State.takeTurn { s with agenda := rest } t

/-- The instruction whose bits are `w`, numbered as the opcode table numbers them, stored as a line of one head where the next step fetches, and
that core's turn next (log entries 7 and 13). -/
def State.withFetchWord (s : State) (nbits w : Nat) : State := s.placeLine (oneHeadLine (tableHead nbits w) (tableTail nbits w))

end Sys2Proof.Machine
end

