-- ==== Sys2Proof/Safety.lean ====
section
/-! DEFINITION. The terms in which claims are stated: a process at its turn, memories in canonical form, a run in which no step stops. -/

namespace Sys2Proof.Machine

/-- Process p runs in slot k of core g, whose turn it is (01 R20, 14 R444 RUN). -/
structure State.Runs (s : State) (g k : Nat) (p : Proc) : Prop where
  cur : s.cur = g
  run : (s.coreAt g).run = some k
  proc : s.procAt g k = p

/-- Nothing holds an access of core g to its own LM: no engine operation, and no access by the window, is incomplete (10 R374, 03 R133). -/
structure State.LmFree (s : State) (g : Nat) : Prop where
  engines : s.scoreboard g = []
  window : ∀ seq reads writes, s.windowHeld g seq reads writes = false

/-- The instructions that only compute, with the registers they name and those they write (06 R219, R224-R235, R247, R248). -/
inductive ScalarForm : Instr → List Reg → List Reg → Prop
  | nop : ScalarForm .nop [] []
  | add (a b c : Reg) : ScalarForm (.add a b c) [a, b, c] [a]
  | sub (a b c : Reg) : ScalarForm (.sub a b c) [a, b, c] [a]
  | mul (a b c : Reg) : ScalarForm (.mul a b c) [a, b, c] [a]
  | mulh (a b c : Reg) : ScalarForm (.mulh a b c) [a, b, c] [a]
  | mulhu (a b c : Reg) : ScalarForm (.mulhu a b c) [a, b, c] [a]
  | mulhsu (a b c : Reg) : ScalarForm (.mulhsu a b c) [a, b, c] [a]
  | div (a b c : Reg) : ScalarForm (.div a b c) [a, b, c] [a]
  | divu (a b c : Reg) : ScalarForm (.divu a b c) [a, b, c] [a]
  | rem (a b c : Reg) : ScalarForm (.rem a b c) [a, b, c] [a]
  | remu (a b c : Reg) : ScalarForm (.remu a b c) [a, b, c] [a]
  | and (a b c : Reg) : ScalarForm (.and a b c) [a, b, c] [a]
  | or (a b c : Reg) : ScalarForm (.or a b c) [a, b, c] [a]
  | xor (a b c : Reg) : ScalarForm (.xor a b c) [a, b, c] [a]
  | andn (a b c : Reg) : ScalarForm (.andn a b c) [a, b, c] [a]
  | shl (a b c : Reg) : ScalarForm (.shl a b c) [a, b, c] [a]
  | shr (a b c : Reg) : ScalarForm (.shr a b c) [a, b, c] [a]
  | sar (a b c : Reg) : ScalarForm (.sar a b c) [a, b, c] [a]
  | ror (a b c : Reg) : ScalarForm (.ror a b c) [a, b, c] [a]
  | min (a b c : Reg) : ScalarForm (.min a b c) [a, b, c] [a]
  | minu (a b c : Reg) : ScalarForm (.minu a b c) [a, b, c] [a]
  | max (a b c : Reg) : ScalarForm (.max a b c) [a, b, c] [a]
  | maxu (a b c : Reg) : ScalarForm (.maxu a b c) [a, b, c] [a]
  | clz (a b : Reg) : ScalarForm (.clz a b) [a, b] [a]
  | ctz (a b : Reg) : ScalarForm (.ctz a b) [a, b] [a]
  | popc (a b : Reg) : ScalarForm (.popc a b) [a, b] [a]
  | brev (a b : Reg) : ScalarForm (.brev a b) [a, b] [a]
  | sxb (a b : Reg) : ScalarForm (.sxb a b) [a, b] [a]
  | sxh (a b : Reg) : ScalarForm (.sxh a b) [a, b] [a]
  | sxw (a b : Reg) : ScalarForm (.sxw a b) [a, b] [a]
  | zxw (a b : Reg) : ScalarForm (.zxw a b) [a, b] [a]
  | addi (a b : Reg) (n : BitVec 12) : ScalarForm (.addi a b n) [a, b] [a]
  | andi (a b : Reg) (n : BitVec 12) : ScalarForm (.andi a b n) [a, b] [a]
  | ori (a b : Reg) (n : BitVec 12) : ScalarForm (.ori a b n) [a, b] [a]
  | xori (a b : Reg) (n : BitVec 12) : ScalarForm (.xori a b n) [a, b] [a]
  | seqi (a b : Reg) (n : BitVec 12) : ScalarForm (.seqi a b n) [a, b] [a]
  | snei (a b : Reg) (n : BitVec 12) : ScalarForm (.snei a b n) [a, b] [a]
  | slti (a b : Reg) (n : BitVec 12) : ScalarForm (.slti a b n) [a, b] [a]
  | sltui (a b : Reg) (n : BitVec 12) : ScalarForm (.sltui a b n) [a, b] [a]
  | shli (a b : Reg) (n : BitVec 6) : ScalarForm (.shli a b n) [a, b] [a]
  | shri (a b : Reg) (n : BitVec 6) : ScalarForm (.shri a b n) [a, b] [a]
  | sari (a b : Reg) (n : BitVec 6) : ScalarForm (.sari a b n) [a, b] [a]
  | rori (a b : Reg) (n : BitVec 6) : ScalarForm (.rori a b n) [a, b] [a]
  | cset (a b c : Reg) (f : BitVec 3) : ScalarForm (.cset a b c f) [a, b, c] [a]
  | sel (a b c d : Reg) : ScalarForm (.sel a b c d) [a, b, c, d] [a]
  | moviU (a : Reg) (n : BitVec 16) : ScalarForm (.moviU a n) [a] [a]
  | moviUZero (a : Reg) (n : BitVec 16) : ScalarForm (.moviUZero a n) [a] [a]
  | moviK (a : Reg) (n : BitVec 32) : ScalarForm (.moviK a n) [a] [a]
  | moviKZero (a : Reg) (n : BitVec 32) : ScalarForm (.moviKZero a n) [a] [a]
  | moviX (a : Reg) (n : BitVec 64) : ScalarForm (.moviX a n) [a] [a]
  | leap (a : Reg) (d : BitVec 26) (h : BitVec 6) : ScalarForm (.leap a d h) [a] [a]
  | bfx (a b : Reg) (p q : BitVec 6) : ScalarForm (.bfx a b p q) [a, b] [a]
  | bfi (a b : Reg) (p q : BitVec 6) : ScalarForm (.bfi a b p q) [a, b] [a]
  | lea (a b c : Reg) (sc : BitVec 3) (d : BitVec 20) : ScalarForm (.lea a b c false sc d) [a, b] [a]
  | leaIndexed (a b c : Reg) (sc : BitVec 3) (d : BitVec 20) : ScalarForm (.lea a b c true sc d) [a, b, c] [a]
  | movp (a b : Reg) : ScalarForm (.movp a b) [a, oddOf a, b, oddOf b] [a, oddOf a]

/-- An instruction of process k of core g has completed in t: its process is q with PC at a next head, the messages have joined those in flight, and
nothing else has changed but fetch state, translation caches, meters, the identities given out, and what the walk of its address has found in the
page tables, as state u, the translated one, has it: nothing where no read meets an error (17 R515). -/
structure State.Issued (s u t : State) (g k : Nat) (q : Proc) (msgs : List Msg) : Prop where
  proc : ∃ pc, t.procAt g k = { q with pc := pc, lastPc := q.pc, wait := .none }
  net : t.net = s.net ++ msgs
  others : ∀ j, j ≠ k → t.procAt g j = s.procAt g j
  cores : ∀ h, h ≠ g → t.coreAt h = s.coreAt h
  core : { t.coreAt g with procs := (s.coreAt g).procs, fb := (s.coreAt g).fb } = s.coreAt g
  caches : ∀ c, { t.clusterAt c with tc := (s.clusterAt c).tc, tp := (s.clusterAt c).tp } = s.clusterAt c
  frame : { t with cores := s.cores, clusters := s.clusters, net := s.net, nextId := s.nextId, madder := s.madder } =
    { u with cores := s.cores, clusters := s.clusters, net := s.net, nextId := s.nextId, madder := s.madder }
  walk : s.upsets = [] → { u with clusters := s.clusters, nextId := s.nextId, madder := s.madder, freeCtr := s.freeCtr } = s

/-- Message n brings request r of a core to its home in this package, whose turn it is for it: nothing of its process comes before it there (02 R84, R91,
03 R134), and the home's queue and its turns let it (15 R478, R479). -/
structure State.Served (s : State) (n : Nat) (src dst : Node) (r : GReq) : Prop where
  msg : s.net[n]? = some { src := src, dst := dst, body := .req r }
  first : deliverable s.net n = true
  free : s.unblocked r = true
  turn : s.mayServe n = true
  after : s.olderSource r.who r.oid r.loc = false
  core : r.who.g < 1024
  here : r.remote = none
  near : r.loc.isFar = false

/-- Nothing but memory at the home of location l differs in t from s, besides messages and meters. -/
structure State.OnlyAt (s t : State) (l : Loc) : Prop where
  cores : ∀ g, { t.coreAt g with lm := (s.coreAt g).lm, lmTags := (s.coreAt g).lmTags, lmDirty := (s.coreAt g).lmDirty, lmBad := (s.coreAt g).lmBad } = s.coreAt g
  clusters : ∀ c, { t.clusterAt c with cm := (s.clusterAt c).cm, cmTags := (s.clusterAt c).cmTags, cmBad := (s.clusterAt c).cmBad } = s.clusterAt c
  rest : { t with cores := s.cores, clusters := s.clusters, dies := s.dies, hostMem := s.hostMem, net := s.net, madder := s.madder } = s
  elsewhere : ∀ (x : Loc) (m : Nat), x.node ≠ l.node → t.locRead x m = s.locRead x m

/-- Server v has taken up a request of a partition (15 R479, 17 R511), and of the servers nothing else has changed. -/
structure State.Turned (s t : State) (v part : Nat) : Prop where
  here : t.serverAt v = { s.serverAt v with rr := part, lastReq := s.cycle, since := (s.serverAt v).since + 1 }
  others : ∀ u, u ≠ v → t.serverAt u = s.serverAt u

/-- The global accesses of 07 R255-R266 and 06 R246, with the registers they name, base, displacement, bytes, and the right they need of a process
(07 R249). -/
inductive GlobalForm : Instr → List Reg → Reg → BitVec 20 → Nat → (Proc → Word → Nat) → Prop
  | ldg (m sc : BitVec 2) (acq sx : Bool) (a b : Reg) (d : BitVec 20) : GlobalForm (.ldg m sc acq sx a b d) [a, b] b d (2 ^ m.toNat) fun _ _ => rightR
  | ldgp (sc : BitVec 2) (acq : Bool) (a b : Reg) (d : BitVec 20) : GlobalForm (.ldgp sc acq a b d) [a, oddOf a, b] b d 16 fun _ _ => rightR
  | ldcg (a b : Reg) (d : BitVec 20) : GlobalForm (.ldcg a b d) [a, oddOf a, b] b d 16 fun _ _ => rightR
  | ldtag (a b : Reg) (d : BitVec 20) : GlobalForm (.ldtag a b d) [a, b] b d 16 fun _ _ => rightR
  | stg (m sc : BitVec 2) (rel : Bool) (a b : Reg) (d : BitVec 20) : GlobalForm (.stg m sc rel a b d) [a, b] b d (2 ^ m.toNat) storeRight
  | stgp (sc : BitVec 2) (rel : Bool) (a b : Reg) (d : BitVec 20) : GlobalForm (.stgp sc rel a b d) [a, oddOf a, b] b d 16 storeRight
  | stcg (a b : Reg) (d : BitVec 20) : GlobalForm (.stcg a b d) [a, oddOf a, b] b d 16 storeRight
  | aadd (o : AtomOps) : GlobalForm (.aadd o) [o.a, o.b, o.c] o.b o.d (2 ^ o.m.toNat) fun _ _ => rightA
  | aand (o : AtomOps) : GlobalForm (.aand o) [o.a, o.b, o.c] o.b o.d (2 ^ o.m.toNat) fun _ _ => rightA
  | aor (o : AtomOps) : GlobalForm (.aor o) [o.a, o.b, o.c] o.b o.d (2 ^ o.m.toNat) fun _ _ => rightA
  | axor (o : AtomOps) : GlobalForm (.axor o) [o.a, o.b, o.c] o.b o.d (2 ^ o.m.toNat) fun _ _ => rightA
  | amin (o : AtomOps) : GlobalForm (.amin o) [o.a, o.b, o.c] o.b o.d (2 ^ o.m.toNat) fun _ _ => rightA
  | aminu (o : AtomOps) : GlobalForm (.aminu o) [o.a, o.b, o.c] o.b o.d (2 ^ o.m.toNat) fun _ _ => rightA
  | amax (o : AtomOps) : GlobalForm (.amax o) [o.a, o.b, o.c] o.b o.d (2 ^ o.m.toNat) fun _ _ => rightA
  | amaxu (o : AtomOps) : GlobalForm (.amaxu o) [o.a, o.b, o.c] o.b o.d (2 ^ o.m.toNat) fun _ _ => rightA
  | axchg (o : AtomOps) : GlobalForm (.axchg o) [o.a, o.b, o.c] o.b o.d (2 ^ o.m.toNat) fun _ _ => rightA
  | acas (o : AtomOps) : GlobalForm (.acas o) [o.a, o.b, o.c] o.b o.d (2 ^ o.m.toNat) fun _ _ => rightA
  | afadd (o : AtomOps) : GlobalForm (.afadd o) [o.a, o.b, o.c] o.b o.d (2 ^ o.m.toNat) fun _ _ => rightA
  | redadd (o : RedOps) : GlobalForm (.redadd o) [o.b, o.c] o.b o.d (2 ^ o.m.toNat) fun _ _ => rightA
  | redand (o : RedOps) : GlobalForm (.redand o) [o.b, o.c] o.b o.d (2 ^ o.m.toNat) fun _ _ => rightA
  | redor (o : RedOps) : GlobalForm (.redor o) [o.b, o.c] o.b o.d (2 ^ o.m.toNat) fun _ _ => rightA
  | redxor (o : RedOps) : GlobalForm (.redxor o) [o.b, o.c] o.b o.d (2 ^ o.m.toNat) fun _ _ => rightA
  | redmin (o : RedOps) : GlobalForm (.redmin o) [o.b, o.c] o.b o.d (2 ^ o.m.toNat) fun _ _ => rightA
  | redminu (o : RedOps) : GlobalForm (.redminu o) [o.b, o.c] o.b o.d (2 ^ o.m.toNat) fun _ _ => rightA
  | redmax (o : RedOps) : GlobalForm (.redmax o) [o.b, o.c] o.b o.d (2 ^ o.m.toNat) fun _ _ => rightA
  | redmaxu (o : RedOps) : GlobalForm (.redmaxu o) [o.b, o.c] o.b o.d (2 ^ o.m.toNat) fun _ _ => rightA
  | redfadd (o : RedOps) : GlobalForm (.redfadd o) [o.b, o.c] o.b o.d (2 ^ o.m.toNat) fun _ _ => rightA

/-- The returning atomics with their operations (07 R261). -/
inductive AtomicForm : Instr → AtOp → AtomOps → Prop
  | aadd (o : AtomOps) : AtomicForm (.aadd o) .add o
  | aand (o : AtomOps) : AtomicForm (.aand o) .and o
  | aor (o : AtomOps) : AtomicForm (.aor o) .or o
  | axor (o : AtomOps) : AtomicForm (.axor o) .xor o
  | amin (o : AtomOps) : AtomicForm (.amin o) .min o
  | aminu (o : AtomOps) : AtomicForm (.aminu o) .minu o
  | amax (o : AtomOps) : AtomicForm (.amax o) .max o
  | amaxu (o : AtomOps) : AtomicForm (.amaxu o) .maxu o
  | axchg (o : AtomOps) : AtomicForm (.axchg o) .xchg o
  | acas (o : AtomOps) : AtomicForm (.acas o) .cas o
  | afadd (o : AtomOps) : AtomicForm (.afadd o) .fadd o

/-- The reductions with their operations (07 R266). -/
inductive ReductionForm : Instr → AtOp → RedOps → Prop
  | redadd (o : RedOps) : ReductionForm (.redadd o) .add o
  | redand (o : RedOps) : ReductionForm (.redand o) .and o
  | redor (o : RedOps) : ReductionForm (.redor o) .or o
  | redxor (o : RedOps) : ReductionForm (.redxor o) .xor o
  | redmin (o : RedOps) : ReductionForm (.redmin o) .min o
  | redminu (o : RedOps) : ReductionForm (.redminu o) .minu o
  | redmax (o : RedOps) : ReductionForm (.redmax o) .max o
  | redmaxu (o : RedOps) : ReductionForm (.redmaxu o) .maxu o
  | redfadd (o : RedOps) : ReductionForm (.redfadd o) .fadd o

/-- The third-party reads (07 R281, R282): whether to a group, whether by a far pointer, the registers, and the report's endpoint. -/
inductive ThirdForm : Instr → Bool → Bool → Reg → Reg → Reg → Option Nat → Prop
  | rdto (a b c : Reg) : ThirdForm (.rdto a b c) false false a b c none
  | rdtoWithReport (a b c : Reg) (f : BitVec 8) : ThirdForm (.rdtoWithReport a b c f) false false a b c (some f.toNat)
  | rdtox (a b c : Reg) : ThirdForm (.rdtox a b c) false true a b c none
  | rdtoxWithReport (a b c : Reg) (f : BitVec 8) : ThirdForm (.rdtoxWithReport a b c f) false true a b c (some f.toNat)
  | rdtog (a b c : Reg) : ThirdForm (.rdtog a b c) true false a b c none
  | rdtogWithReport (a b c : Reg) (f : BitVec 8) : ThirdForm (.rdtogWithReport a b c f) true false a b c (some f.toNat)
  | rdtogx (a b c : Reg) : ThirdForm (.rdtogx a b c) true true a b c none
  | rdtogxWithReport (a b c : Reg) (f : BitVec 8) : ThirdForm (.rdtogxWithReport a b c f) true true a b c (some f.toNat)

/-- An instruction of process k of core g has completed in t: the process is q, with PC at a next head. -/
def State.Leaves (t : State) (g k : Nat) (q : Proc) : Prop := ∃ pc, t.procAt g k = { q with pc := pc, lastPc := q.pc, wait := .none }

/-- An instruction of process k of core g has blocked it in t: the process is q past that instruction, in a blocked state with what it waits for,
or dispatched again at once. -/
def State.Blocks (t : State) (g k : Nat) (q : Proc) (st : PState) (b : Blk) : Prop :=
  ∃ pc st' sl, t.procAt g k = { q with pc := pc, lastPc := q.pc, wait := .none, state := st', slice := sl, blk := b } ∧
    ((st' = st ∧ sl = q.slice) ∨ (t.coreAt g).run = some k)

/-- The sending forms with the registers they name, the handle's pair and the element kind (08 R299). -/
inductive SendForm : Instr → List Reg → Reg → BitVec 2 → Prop
  | send (a b : Reg) : SendForm (.send a b) [a, b, oddOf b] b 0
  | sendb (a b c : Reg) : SendForm (.sendb a b c) [a, c, b, oddOf b] b 1
  | sendt (a : BitVec 3) (b : Reg) : SendForm (.sendt a b) [b, oddOf b] b 2
  | sendh (a b : Reg) : SendForm (.sendh a b) [a, oddOf a, b, oddOf b] b 3

/-- The receiving forms (08 R302): the registers they name, destination, element kind, whether of an exit endpoint, whether with a deadline, and the registers
of endpoint, status and deadline. -/
inductive ReceiveForm : Instr → List Reg → Reg → BitVec 2 → Bool → Bool → Reg → Reg → Reg → Prop
  | recv (a b c d : Reg) (t : Bool) : ReceiveForm (.recv a t b c d) ([a, b, c] ++ if t then [d] else []) a 0 false t b c d
  | join (a b c d : Reg) (t : Bool) : ReceiveForm (.join a t b c d) ([a, b, c] ++ if t then [d] else []) a 0 true t b c d
  | recvb (a b c d : Reg) (t : Bool) : ReceiveForm (.recvb a t b c d) ([a, b, c] ++ if t then [d] else []) a 1 false t b c d
  | recvt (a : BitVec 3) (b c d : Reg) (t : Bool) : ReceiveForm (.recvt a t b c d) ([b, c] ++ if t then [d] else []) (a.setWidth 4) 2 false t b c d
  | recvh (a b c d : Reg) (t : Bool) : ReceiveForm (.recvh a t b c d) ([a, oddOf a, b, c] ++ if t then [d] else []) a 3 false t b c d

/-- A version's bytes are in canonical form. -/
def Ver.memOk (v : Ver) : Bool := Memory.wf v.data

/-- The versions of a line are in canonical form. -/
def Line.memOk (l : Line) : Bool := l.cur.memOk && l.pool.all Ver.memOk && l.tent.all fun e => e.2.memOk

/-- The memories of a tile unit are in canonical form. -/
def Tile.memOk (t : Tile) : Bool := (t.t.all fun e => Memory.wf e.2) && (t.sc.all fun e => Memory.wf e.2) && t.c.all fun e => Memory.wf e.2

/-- A core's memories are in canonical form. -/
def Core.memOk (c : Core) : Bool := Memory.wf c.lm && c.tile.memOk

/-- Every memory of the package is in its canonical form: addresses strictly rising, no byte listed that an unlisted one reads as. -/
def State.memOk (s : State) : Bool :=
  (s.cores.all fun e => e.2.memOk) && (s.clusters.all fun e => Memory.wf e.2.cm) && (s.dies.all fun e => Memory.wf e.2.dm) &&
    (s.hbm.all fun e => e.2.memOk) && (s.hbmIdle.all fun e => e.2.memOk) && (s.setLog.all fun x => x.base.memOk) && Memory.wf s.hostMem

/-- The run of `n` steps from a state never stops. -/
def State.safeRun (s : State) : Nat → Bool
  | 0 => true
  | n + 1 => match step s with | .next t => t.safeRun n | _ => false

end Sys2Proof.Machine
end

