-- ==== Sys2Proof/Certificates/Slice0/Obligations.lean ====
section
/-! DEFINITION. The statements for the provers, from the rules of spec/. `s.Runs g k p` says that process p runs in slot k of core g, whose
turn it is; `{ t with f := s.f } = s` says that t differs from s in field f alone. -/

section

open Sys2Proof Sys2Proof.Machine

/-! Integer, address and control instructions (06). -/

/-- 06 R225 with 04 R160: every two-source and one-source form writes wa := F(x, y)[63:0] and goes on; nothing else changes but what completing
does (`InstructionCompletes`). -/
def Obligations.IntegerResults : Prop :=
  ∀ (s : State) (g k : Nat) (p : Proc) (a b c : Reg), s.Runs g k p →
    let x := p.reg b
    let y := p.reg c
    let gives (i : Instr) (v : Word) : Prop := exec i s = .next (s.retire g k (p.setReg a v))
    (p.awaits [a, b, c] = false →
      gives (.add a b c) (x + y) ∧ gives (.sub a b c) (x - y) ∧ gives (.mul a b c) (BitVec.ofInt 64 (x.toInt * y.toInt)) ∧
      gives (.mulh a b c) ((x.signExtend 128 * y.signExtend 128).extractLsb' 64 64) ∧
      gives (.mulhu a b c) ((x.setWidth 128 * y.setWidth 128).extractLsb' 64 64) ∧
      gives (.mulhsu a b c) ((x.signExtend 128 * y.setWidth 128).extractLsb' 64 64) ∧
      gives (.div a b c) (if y = 0 then -1 else x.sdiv y) ∧ gives (.divu a b c) (if y = 0 then -1 else x / y) ∧
      gives (.rem a b c) (if y = 0 then x else x.srem y) ∧ gives (.remu a b c) (if y = 0 then x else x % y) ∧
      gives (.and a b c) (x &&& y) ∧ gives (.or a b c) (x ||| y) ∧ gives (.xor a b c) (x ^^^ y) ∧ gives (.andn a b c) (x &&& ~~~y) ∧
      gives (.shl a b c) (x <<< (y.extractLsb' 0 6).toNat) ∧ gives (.shr a b c) (x >>> (y.extractLsb' 0 6).toNat) ∧
      gives (.sar a b c) (x.sshiftRight (y.extractLsb' 0 6).toNat) ∧ gives (.ror a b c) (x.rotateRight (y.extractLsb' 0 6).toNat) ∧
      gives (.min a b c) (if x.toInt < y.toInt then x else y) ∧ gives (.minu a b c) (if x.toNat < y.toNat then x else y) ∧
      gives (.max a b c) (if x.toInt < y.toInt then y else x) ∧ gives (.maxu a b c) (if x.toNat < y.toNat then y else x)) ∧
    (p.awaits [a, b] = false →
      (∃ n ≤ 64, gives (.clz a b) (BitVec.ofNat 64 n) ∧ (∀ i, 64 - n ≤ i → x.getLsbD i = false) ∧ (n < 64 → x.getLsbD (63 - n) = true)) ∧
      (∃ n ≤ 64, gives (.ctz a b) (BitVec.ofNat 64 n) ∧ (∀ i < n, x.getLsbD i = false) ∧ (n < 64 → x.getLsbD n = true)) ∧
      gives (.popc a b) (BitVec.ofNat 64 ((List.range 64).countP fun i => x.getLsbD i)) ∧
      (∃ v, gives (.brev a b) v ∧ ∀ i < 64, v.getLsbD (63 - i) = x.getLsbD i) ∧
      gives (.sxb a b) ((x.extractLsb' 0 8).signExtend 64) ∧ gives (.sxh a b) ((x.extractLsb' 0 16).signExtend 64) ∧
      gives (.sxw a b) ((x.extractLsb' 0 32).signExtend 64) ∧ gives (.zxw a b) ((x.extractLsb' 0 32).setWidth 64))

/-- 06 R230, R231: the class I forms write G(W(b), k) with k := SignExtend(imm12), and MOVI writes its immediate. -/
def Obligations.ImmediateResults : Prop :=
  ∀ (s : State) (g k : Nat) (p : Proc) (a b : Reg), s.Runs g k p →
    let gives (i : Instr) (v : Word) : Prop := exec i s = .next (s.retire g k (p.setReg a v))
    (p.awaits [a, b] = false → ∀ (imm : BitVec 12) (n : BitVec 6),
      let x := p.reg b
      let c : Word := imm.signExtend 64
      gives (.addi a b imm) (x + c) ∧ gives (.andi a b imm) (x &&& c) ∧ gives (.ori a b imm) (x ||| c) ∧ gives (.xori a b imm) (x ^^^ c) ∧
      gives (.shli a b n) (x <<< n.toNat) ∧ gives (.shri a b n) (x >>> n.toNat) ∧ gives (.sari a b n) (x.sshiftRight n.toNat) ∧
      gives (.rori a b n) (x.rotateRight n.toNat) ∧
      gives (.seqi a b imm) (if x = c then 1 else 0) ∧ gives (.snei a b imm) (if x ≠ c then 1 else 0) ∧
      gives (.slti a b imm) (if x.toInt < c.toInt then 1 else 0) ∧ gives (.sltui a b imm) (if x.toNat < c.toNat then 1 else 0)) ∧
    (p.awaits [a] = false → ∀ (u : BitVec 16) (v : BitVec 32) (w : BitVec 64),
      gives (.moviU a u) (u.signExtend 64) ∧ gives (.moviUZero a u) (u.setWidth 64) ∧
      gives (.moviK a v) (v.signExtend 64) ∧ gives (.moviKZero a v) (v.setWidth 64) ∧ gives (.moviX a w) w)

/-- 06 R226, R228, R233, R234, R235, R247, R248: compare and select, address formation, bit fields (bit by bit), MOVP and NOP. -/
def Obligations.SelectAddressFieldResults : Prop :=
  ∀ (s : State) (g k : Nat) (p : Proc) (a b c d : Reg), s.Runs g k p →
    let x := p.reg b
    let y := p.reg c
    let gives (i : Instr) (v : Word) : Prop := exec i s = .next (s.retire g k (p.setReg a v))
    (p.awaits [a, b, c] = false →
      gives (.cset a b c 0) (if x = y then 1 else 0) ∧ gives (.cset a b c 1) (if x ≠ y then 1 else 0) ∧
      gives (.cset a b c 2) (if x.toInt < y.toInt then 1 else 0) ∧ gives (.cset a b c 3) (if y.toInt ≤ x.toInt then 1 else 0) ∧
      gives (.cset a b c 4) (if x.toNat < y.toNat then 1 else 0) ∧ gives (.cset a b c 5) (if y.toNat ≤ x.toNat then 1 else 0) ∧
      ∀ (sc : BitVec 3) (o : BitVec 20), gives (.lea a b c true sc o) (x + o.signExtend 64 + (y <<< sc.toNat))) ∧
    (p.awaits [a, b, c, d] = false → gives (.sel a b c d) (if p.reg d ≠ 0 then x else y)) ∧
    (p.awaits [a, b] = false →
      (∀ (o : BitVec 20), gives (.lea a b 0 false 0 o) (x + o.signExtend 64)) ∧
      ∀ (pos q : BitVec 6),
        (∃ v, gives (.bfx a b pos q) v ∧ ∀ i < 64, v.getLsbD i = (decide (i ≤ q.toNat) && x.getLsbD (pos.toNat + i))) ∧
        ∃ v, gives (.bfi a b pos q) v ∧ ∀ i < 64,
          v.getLsbD i = if pos.toNat ≤ i ∧ i ≤ pos.toNat + q.toNat then x.getLsbD (i - pos.toNat) else (p.reg a).getLsbD i) ∧
    (p.awaits [a] = false → ∀ (o : BitVec 26) (h : BitVec 6),
      gives (.leap a o h) (((p.pc.extractLsb' 6 46 + o.signExtend 46) ++ h).setWidth 64)) ∧
    (p.awaits [a, oddOf a, b, oddOf b] = false →
      exec (.movp a b) s = .next (s.retire g k (p.setPair a x (p.reg (oddOf b))
        (p.pairTag b && p.live.getLsbD b.toNat && p.live.getLsbD (oddOf b).toNat)))) ∧
    exec .nop s = .next (s.retire g k p)

/-- 06 R218 with 01 R18, R19: after a register write the register is live and holds the value, its pair's tag is clear, every other register
and tag is as before. -/
def Obligations.RegisterWrite : Prop :=
  ∀ (p : Proc) (a r : Reg) (v : Word),
    let q := p.setReg a v
    q.live.getLsbD a.toNat = true ∧ q.reg a = v ∧ q.pairTag a = false ∧
    (r ≠ a → q.reg r = p.reg r ∧ q.live.getLsbD r.toNat = p.live.getLsbD r.toNat) ∧
    (pairOf r ≠ pairOf a → q.pairTag r = p.pairTag r) ∧
    (p.live.getLsbD r.toNat = false → p.reg r = 0) ∧
    { q with regs := p.regs, live := p.live, tags := p.tags } = p

/-- 05 R189, R191, 06 R239: an instruction that does not transfer control continues at the next head of its line, or at head 1 of the next line after the
last; a completed transfer leaves its process at the target, to be entered next. Either changes nothing else but the process as the instruction leaves it, the fetch
state and the energy meters. The next PC is also what CALL and CALLR write to lk. -/
def Obligations.CompletionEffects : Prop :=
  ∀ (s : State) (g k : Nat) (p q : Proc) (target : Pc), s.Runs g k p → q.pc = p.pc → q.sb = p.sb →
    let n := (s.coreAt g).heads p
    let next : Pc := if p.pc.toNat % 64 < n then p.pc + 1 else BitVec.ofNat 52 (p.pc.toNat / 64 * 64 + 65)
    let moves (t : State) (to_ : Pc) : Prop :=
      t.procAt g k = { q with pc := to_, lastPc := p.pc, wait := .none } ∧
      (∀ j, j ≠ k → t.procAt g j = s.procAt g j) ∧ (∀ h, h ≠ g → t.coreAt h = s.coreAt h) ∧
      { t.coreAt g with procs := (s.coreAt g).procs, fb := (s.coreAt g).fb } = s.coreAt g ∧
      { t with cores := s.cores, madder := s.madder } = s
    s.next g p = next ∧ moves (s.retire g k q) next ∧ moves (s.jump g k q target) target ∧ ((s.jump g k q target).coreAt g).fb.entered = false ∧
    (p.awaits [15] = false → p.awaitsDead = false → ∀ (d : BitVec 26) (h : BitVec 6), ∃ t, exec (.call d h) s = .next t ∧ (t.procAt g k).reg 15 = next.setWidth 64) ∧
    ∀ a, p.awaits [a, 15] = false → p.awaitsDead = false → (p.reg a).toNat < 2 ^ 52 → ∃ t, exec (.callr a) s = .next t ∧ (t.procAt g k).reg 15 = next.setWidth 64

/-- 06 R237, R238 with 05 R190: a branch enters the target when its relation holds, LOOP when the counter it has decremented is not zero, BR always; else execution falls through to the next head. BRX, CALLR and RET take
their target from a register before lk is written and before the dead marking; a target above the 52-bit space traps SEGMENT at the transfer without effect; CALL and CALLR write the PC of the next head to lk; CALL, CALLR
and RET mark the registers of DMK dead. Model's choice: log entry 72 (INFO of the SEGMENT trap is the register's whole value). -/
def Obligations.ControlTransferResults : Prop :=
  (∀ (s : State) (g k : Nat) (p : Proc) (a b : Reg) (h : BitVec 6), s.Runs g k p →
     let target (d : BitVec 46) : Pc := (p.pc.extractLsb' 6 46 + d) ++ h
     (∀ d : BitVec 10, exec (.brJ d h) s = .next (s.jump g k p (target (d.signExtend 46)))) ∧
     (∀ d : BitVec 26, exec (.brL d h) s = .next (s.jump g k p (target (d.signExtend 46)))) ∧
     (p.awaits [a, b] = false → ∀ d : BitVec 22,
       let x := p.reg a
       let y := p.reg b
       let enters (i : Instr) (c : Bool) : Prop :=
         exec i s = .next (if c then s.jump g k p (target (d.signExtend 46)) else s.retire g k p)
       enters (.beq a b d h) (decide (x = y)) ∧ enters (.bne a b d h) (decide (x ≠ y)) ∧
       enters (.blt a b d h) (decide (x.toInt < y.toInt)) ∧ enters (.bge a b d h) (decide (y.toInt ≤ x.toInt)) ∧
       enters (.bltu a b d h) (decide (x.toNat < y.toNat)) ∧ enters (.bgeu a b d h) (decide (y.toNat ≤ x.toNat))) ∧
     (p.awaits [a] = false → ∀ d : BitVec 10,
       let x := p.reg a - 1
       exec (.loop a d h) s =
         .next (if x ≠ 0 then s.jump g k (p.setReg a x) (target (d.signExtend 46)) else s.retire g k (p.setReg a x)))) ∧
  (∀ (s : State) (g k : Nat) (p : Proc) (a : Reg), s.Runs g k p →
     let next : Word := (s.next g p).setWidth 64
     let leaves (t : Word) (i : Instr) (q : Proc) : Prop :=
       exec i s = .next (if t.extractLsb' 52 12 ≠ 0 then s.trap g k p .segment t else s.jump g k q (t.setWidth 52))
     (p.awaits [a] = false → leaves (p.reg a) (.brx a) p) ∧
     (p.awaits [a, 15] = false → p.awaitsDead = false → leaves (p.reg a) (.callr a) (p.setReg 15 next).markDead) ∧
     (p.awaits [15] = false → p.awaitsDead = false → leaves (p.reg 15) .ret p.markDead) ∧
     (p.awaits [15] = false → p.awaitsDead = false → ∀ (d : BitVec 26) (h : BitVec 6),
       exec (.call d h) s = .next (s.jump g k (p.setReg 15 next).markDead ((p.pc.extractLsb' 6 46 + d.signExtend 46) ++ h))) ∧
     p.markDead.live = p.live &&& ~~~(p.dmk &&& 0x3FFF) ∧
     (∀ r : Reg, p.markDead.pairTag r =
       (p.pairTag r && p.markDead.live.getLsbD (2 * (r.toNat / 2)) && p.markDead.live.getLsbD (2 * (r.toNat / 2) + 1))) ∧
     { p.markDead with live := p.live, tags := p.tags } = p)

/-- 06 R218-R220, R223, R225-R235, R247, R248: an instruction that only computes waits at its head, with no effect, while a register it names awaits split-phase data; else, of all registers, it
changes its destinations, and of the process besides only what completing changes; nothing else of the package but energy, and no byte of any memory. -/
def Obligations.ScalarFrame : Prop :=
  ∀ (s : State) (g k : Nat) (p : Proc) (i : Instr) (rs ds : List Reg), s.Runs g k p → ScalarForm i rs ds →
    (p.awaits rs = true → exec i s = .next s) ∧
    ∀ t, exec i s = .next t →
      (∀ r, r ∉ ds → (t.procAt g k).reg r = p.reg r) ∧
      (∃ q : Proc, t.procAt g k = q ∧
        { q with regs := p.regs, live := p.live, tags := p.tags, pc := p.pc, lastPc := p.lastPc, wait := p.wait } = p) ∧
      (∀ j, j ≠ k → t.procAt g j = s.procAt g j) ∧ (∀ h, h ≠ g → t.coreAt h = s.coreAt h) ∧
      { t with cores := s.cores, madder := s.madder } = s ∧ ∀ (l : Loc) (n : Nat), t.locRead l n = s.locRead l n

/-! Local memory (06 R241-R245). -/

/-- 06 R243, R245: LD reads its bytes in little-endian order and extends them; LDP and LDC read 16 bytes into a pair, whose tag LDP clears and LDC takes
from the granule. The read finds what the error-correcting code gives it (17 R516): where nothing strikes its bytes the state is as before; a double-bit error in them is a
pending POISON of the load, which completes and writes no register (07 R250). -/
def Obligations.LocalLoadResults : Prop :=
  ∀ (s : State) (g k : Nat) (p : Proc) (a b : Reg) (d : BitVec 20) (n : Nat), s.Runs g k p →
    let ea := p.reg b + d.signExtend 64
    let off := p.sb.toNat + ea.toNat
    Memory.wf (s.coreAt g).lm = true → ea.toNat % n = 0 → ea.toNat + n ≤ p.sl.toNat - p.sb.toNat →
    p.acquiring = false → s.localHeld g (Span.ofLen off n) Span.none = false →
    let u := s.lmFound g p.dye off n
    let done (q : Proc) : State := (u.retire g k q).charge g p.dye .lm 1
    let holds (v : Word) (at_ bytes : Nat) : Prop := ∀ i < bytes, v.extractLsb' (8 * i) 8 = Mem.byte (s.coreAt g).lm (at_ + i)
    let poisoned : State := done { p with faults := { seq := p.seq, cause := .poison, fpc := p.pc, info := ea } :: p.faults, seq := p.seq + 1 }
    (s.errAt (.lm g off) n = .clean → u = s) ∧
    (∀ (m : BitVec 2) (sx : Bool), n = 2 ^ m.toNat → p.awaits [a, b] = false → (u.coreAt g).lmBadHit off n = true → exec (.ld m sx a b d) s = .next poisoned) ∧
    (n = 16 → p.awaits [a, oddOf a, b] = false → (u.coreAt g).lmBadHit off n = true →
      exec (.ldp a b d) s = .next poisoned ∧ exec (.ldc a b d) s = .next poisoned) ∧
    (∀ (m : BitVec 2) (sx : Bool), n = 2 ^ m.toNat → p.awaits [a, b] = false → (u.coreAt g).lmBadHit off n = false →
      ∃ v, exec (.ld m sx a b d) s = .next (done (p.setReg a v)) ∧ holds v off n ∧
        ∀ i, 8 * n ≤ i → i < 64 → v.getLsbD i = (sx && v.getLsbD (8 * n - 1))) ∧
    (n = 16 → p.awaits [a, oddOf a, b] = false → (u.coreAt g).lmBadHit off n = false →
      ∃ lo hi, holds lo off 8 ∧ holds hi (off + 8) 8 ∧ exec (.ldp a b d) s = .next (done (p.setPair a lo hi false)) ∧
        exec (.ldc a b d) s = .next (done (p.setPair a lo hi ((s.coreAt g).lmTag off))))

/-- 06 R243, R245 with 02 R93: a store completes, and nothing but completing is added to its write (`CompletionEffects`): it writes its bytes in little-endian order at the computed address and no other byte; it clears the tags of
the granules it writes, but STC, which gives its granule the pair's tag; registers, flags and all else stay. -/
def Obligations.LocalStoreResults : Prop :=
  ∀ (s : State) (g k : Nat) (p : Proc) (a b : Reg) (d : BitVec 20) (n : Nat), s.Runs g k p →
    let ea := p.reg b + d.signExtend 64
    let off := p.sb.toNat + ea.toNat
    Memory.wf (s.coreAt g).lm = true → ea.toNat % n = 0 → ea.toNat + n ≤ p.sl.toNat - p.sb.toNat →
    p.acquiring = false → s.localHeld g Span.none (Span.ofLen off n) = false →
    let stores (i : Instr) (byte : Nat → Byte) (tag : Bool) : Prop :=
      let t := ((s.setCore g ((s.coreAt g).lmWriteCap off ((List.range n).map byte) tag)).retire g k p).charge g p.dye .lm 1
      exec i s = .next t ∧
        (∀ j, Mem.byte (t.coreAt g).lm j = if off ≤ j ∧ j < off + n then byte (j - off) else Mem.byte (s.coreAt g).lm j) ∧
        (t.coreAt g).lmTag off = tag ∧ (∀ j, overlaps (j / 16 * 16) 16 off n = false → (t.coreAt g).lmTag j = (s.coreAt g).lmTag j) ∧
        t.Leaves g k p ∧
        { t.coreAt g with procs := (s.coreAt g).procs, fb := (s.coreAt g).fb, lm := (s.coreAt g).lm, lmTags := (s.coreAt g).lmTags
                          lmDirty := (s.coreAt g).lmDirty, lmBad := (s.coreAt g).lmBad } = s.coreAt g ∧
        (∀ j, j ≠ k → t.procAt g j = s.procAt g j) ∧ (∀ h, h ≠ g → t.coreAt h = s.coreAt h) ∧
        { t with cores := s.cores, madder := s.madder } = s
    (∀ m : BitVec 2, n = 2 ^ m.toNat → p.awaits [a, b] = false →
      stores (.st m a b d) (fun i => (p.reg a).extractLsb' (8 * i) 8) false) ∧
    (n = 16 → p.awaits [a, oddOf a, b] = false →
      let byte (i : Nat) : Byte := (p.reg (oddOf a) ++ p.reg a).extractLsb' (8 * i) 8
      stores (.stp a b d) byte false ∧ stores (.stc a b d) byte (p.pairTag a))

/-- 06 R243, R244, R245: a local access whose address is not a multiple of its size traps ALIGN, and then one beyond the segment traps SEGMENT, each with
the address as INFO. -/
def Obligations.LocalAccessTraps : Prop :=
  ∀ (s : State) (g k : Nat) (p : Proc) (a b : Reg) (d : BitVec 20) (n : Nat) (i : Instr), s.Runs g k p →
    ((∃ m sx, i = .ld m sx a b d ∧ n = 2 ^ m.toNat) ∨ (∃ m, i = .st m a b d ∧ n = 2 ^ m.toNat) ∨
      ((i = .ldp a b d ∨ i = .stp a b d ∨ i = .ldc a b d ∨ i = .stc a b d) ∧ n = 16)) →
    p.awaits [a, oddOf a, b] = false → p.acquiring = false →
    let ea := p.reg b + d.signExtend 64
    (ea.toNat % n ≠ 0 → exec i s = .next (s.trap g k p .align ea)) ∧
    (ea.toNat % n = 0 → p.sl.toNat - p.sb.toNat < ea.toNat + n → exec i s = .next (s.trap g k p .segment ea))

/-! Global memory and atomics (07 R249-R266, 06 R246, 02 R101-R106). -/

/-- 07 R249, 03 R138, 06 R219, R246: a global access waits while a register it names awaits data or an acquire of its process has not returned. Then its issue checks
follow in their order: an address beyond 2^52 traps BOUNDS, one that is not a multiple of the size ALIGN, a window address that names no byte BOUNDS, a byte without the
right that the access needs RIGHTS. STCG of a tagged pair whose capability has its G right clear, or to a host address, then traps RIGHTS; the latter after the translation
that shows it, whose walk is charged (15 R461). -/
def Obligations.GlobalAccessChecks : Prop :=
  ∀ (s : State) (g k : Nat) (p : Proc) (i : Instr) (rs : List Reg) (b : Reg) (d : BitVec 20) (n : Nat) (need : Proc → Word → Nat),
    s.Runs g k p → GlobalForm i rs b d n need →
    (p.awaits rs = true ∨ p.acquiring = true → exec i s = .next s) ∧
    (p.awaits rs = false → p.acquiring = false →
      let ea := p.reg b + d.signExtend 64
      let high := 2 ^ 52 ≤ ea.toNat ∨ 2 ^ 52 < ea.toNat + n
      (high → exec i s = .next (s.trap g k p .bounds ea)) ∧
      (¬high → ea.toNat % n ≠ 0 → exec i s = .next (s.trap g k p .align ea)) ∧
      (¬high → ea.toNat % n = 0 → windowOk ea.toNat n = false → exec i s = .next (s.trap g k p .bounds ea)) ∧
      (¬high → ea.toNat % n = 0 → windowOk ea.toNat n = true → s.rangeHas p.part (need p ea) ea.toNat n = false →
        exec i s = .next (s.trap g k p .rights ea)) ∧
      (∀ a, i = .stcg a b d → s.issueCheck p.part (storeRight p ea) ea 16 = none →
        let cap := p.reg (oddOf a) ++ p.reg a
        (p.pairTag a = true → capG cap = false → exec i s = .next (s.trap g k p .rights ea)) ∧
        ∀ x, (p.pairTag a = true → capG cap = true) → (s.translate p.part (g / 16) p.dye ea.toNat).1 = .ok (.host x) →
          s.issueWaits g p ea.toNat 16 true = false → exec i s = .next ((s.translate p.part (g / 16) p.dye ea.toNat).2.trap g k p .rights ea)))

/-- 07 R257, R258, R288, 06 R246, 02 R85: a global read of this package that no queue entry forwards, whose walk meets no prepared line (02 R110, 15 R459) and whose bytes no engine
operation of its core holds (03 R133), completes at issue; its request goes to the home of its
address, and the operation stays outstanding with the registers it will write; no register, flag or byte of memory changes. -/
def Obligations.GlobalReadResults : Prop :=
  ∀ (s : State) (g k : Nat) (p : Proc) (a b : Reg) (d : BitVec 20) (n : Nat) (l : Loc), s.Runs g k p →
    let ea := p.reg b + d.signExtend 64
    p.acquiring = false → s.noticed g p = false → p.outs.length < 16 → s.issueCheck p.part rightR ea n = none → s.issueWaits g p ea.toNat n false = false →
    (State.translate { s with nextId := s.nextId + 1 } p.part (g / 16) p.dye ea.toNat).1 = .ok l → l.isFar = false →
    (l.isQueued = true → s.forwardOf (g / 16) l n = none) →
    let sends (i : Instr) (op : GOp) (dest : Dest) (acq : Bool) : Prop :=
      ∃ t r, exec i s = .next t ∧
        s.Issued (State.translate { s with nextId := s.nextId + 1 } p.part (g / 16) p.dye ea.toNat).2 t g k { p with
          outs := p.outs ++ [{ oid := s.nextId, seq := p.seq, pc := p.pc, ea := ea, len := n, dest := dest, acquire := acq
                               loc := some l, flags := false }], seq := p.seq + 1 }
          [{ src := .core g, dst := l.node, body := .req r }] ∧
        r.oid = s.nextId ∧ r.who = s.pref g k ∧ r.dye = p.dye ∧ r.loc = l ∧ r.op = op ∧ r.mode = p.readMode
    (∀ (m sc : BitVec 2) (acq sx : Bool), n = 2 ^ m.toNat → p.awaits [a, b] = false →
      sends (.ldg m sc acq sx a b d) (.read n) (.reg a n sx) acq) ∧
    (n = 16 → p.awaits [a, oddOf a, b] = false →
      (∀ (sc : BitVec 2) (acq : Bool), sends (.ldgp sc acq a b d) (.read 16) (.pair a false) acq) ∧
      sends (.ldcg a b d) (.readCap true) (.pair a true) false) ∧
    (n = 16 → p.awaits [a, b] = false → sends (.ldtag a b d) .readTags (.tags a) false)

/-- 07 R258, 06 R246, 02 R85, R89: a global store in this package completes at issue: to LM, CM or DM its request goes straight to the home, to a memory server or
the host its bytes join the cluster's write queue with their version tag; a release first performs its steps (q is the process as they leave it); no byte of memory
changes yet. -/
def Obligations.GlobalStoreResults : Prop :=
  ∀ (s : State) (g k : Nat) (p q : Proc) (a b : Reg) (d : BitVec 20) (n : Nat) (l : Loc) (rel : Bool) (sc : BitVec 2), s.Runs g k p →
    let ea := p.reg b + d.signExtend 64
    p.acquiring = false → s.issueCheck p.part (storeRight p ea) ea n = none → s.issueWaits g p ea.toNat n true = false →
    (s.translate p.part (g / 16) p.dye ea.toNat).1 = .ok l → l.isFar = false →
    (if rel then s.releaseSteps g p sc.toNat none = some (q, true) else q = p) →
    let stores (i : Instr) (byte : Nat → Byte) (cap isCap : Bool) : Prop :=
      let bytes := (List.range n).map byte
      ∃ t, exec i s = .next t ∧
        (l.isQueued = false → (q.stores.filter fun x => x.kind == .direct).length < 32 →
          ∃ r, s.Issued (s.translate p.part (g / 16) p.dye ea.toNat).2 t g k (q.addStore s.nextId ea n .direct) [{ src := .core g, dst := l.node, body := .req r }] ∧
            r.oid = s.nextId ∧ r.who = s.pref g k ∧ r.loc = l ∧ r.op = .write bytes cap none q.floor.toNat) ∧
        (l.isQueued = true → s.queueRoom g = true →
          (∃ e, (t.clusterAt (g / 16)).wq = (s.clusterAt (g / 16)).wq ++ [e] ∧ e.oid = s.nextId ∧ e.who = s.pref g k ∧ e.loc = l ∧ e.bytes = bytes ∧
            e.cap = cap ∧ e.isCap = isCap ∧ e.own = (if l.isHbm && q.txid != 0 then some (.tx q.txid.toNat) else none) ∧ e.floor = q.floor.toNat) ∧
          (∃ pc, t.procAt g k = { q.addStore s.nextId ea n .queued with pc := pc, lastPc := q.pc, wait := .none }) ∧
          t.net = s.net ∧ (q.txid = 0 → t.tss = s.tss) ∧ ∀ (x : Loc) (m : Nat), t.locRead x m = (s.translate p.part (g / 16) p.dye ea.toNat).2.locRead x m)
    (∀ m : BitVec 2, n = 2 ^ m.toNat → p.awaits [a, b] = false →
      stores (.stg m sc rel a b d) (fun i => (p.reg a).extractLsb' (8 * i) 8) false false) ∧
    (n = 16 → p.awaits [a, oddOf a, b] = false →
      let byte (i : Nat) : Byte := (p.reg (oddOf a) ++ p.reg a).extractLsb' (8 * i) 8
      stores (.stgp sc rel a b d) byte false false ∧
      (rel = false → (p.pairTag a = true → capG (p.reg (oddOf a) ++ p.reg a) = true) → (∀ x, l ≠ .host x) →
        stores (.stcg a b d) byte (p.pairTag a) true))

/-- 07 R261, R262, R266: an atomic or reduction in this package completes at issue, its operation on its way to the home of its address with the operands W(a) and W(c); an
atomic stays outstanding with wa to write, a reduction counts as an unacknowledged store. Model's choices: log entry 18 (reductions in the queue's count). -/
def Obligations.AtomicRequests : Prop :=
  ∀ (s : State) (g k : Nat) (p q : Proc) (i : Instr) (op : AtOp) (l : Loc), s.Runs g k p → p.acquiring = false → l.isFar = false →
    (∀ o : AtomOps, AtomicForm i op o → p.awaits [o.a, o.b, o.c] = false → p.outs.length < 16 →
      let ea := p.reg o.b + o.d.signExtend 64
      let n := 2 ^ o.m.toNat
      s.issueCheck p.part rightA ea n = none → s.issueWaits g p ea.toNat n true = false →
      (State.translate { s with nextId := s.nextId + 1 } p.part (g / 16) p.dye ea.toNat).1 = .ok l →
      (if o.ord.getLsbD 1 then s.releaseSteps g p o.sc.toNat none = some (q, true) else q = p) →
      ∃ t r, exec i s = .next t ∧
        s.Issued (State.translate { s with nextId := s.nextId + 1 } p.part (g / 16) p.dye ea.toNat).2 t g k { q with
          outs := p.outs ++ [{ oid := s.nextId, seq := p.seq, pc := p.pc, ea := ea, len := n
                               dest := .reg o.a n (op = .min ∨ op = .max), acquire := o.ord.getLsbD 0, loc := none, flags := op = .fadd }], seq := p.seq + 1 }
          [{ src := .core g, dst := l.node, body := .req r }] ∧
        r.oid = s.nextId ∧ r.who = s.pref g k ∧ r.loc = l ∧
        r.op = .atomic op n (op = .fadd && o.m = 1) (p.reg o.a) (p.reg o.c) q.floor.toNat true) ∧
    (∀ o : RedOps, ReductionForm i op o → p.awaits [o.b, o.c] = false → s.queueRoom g = true →
      (p.stores.filter fun x => x.kind == .direct).length < 32 →
      let ea := p.reg o.b + o.d.signExtend 64
      let n := 2 ^ o.m.toNat
      s.issueCheck p.part rightA ea n = none → s.issueWaits g p ea.toNat n true = false →
      (State.translate { s with nextId := s.nextId + 1 } p.part (g / 16) p.dye ea.toNat).1 = .ok l →
      (if o.rel then s.releaseSteps g p o.sc.toNat none = some (q, true) else q = p) →
      ∃ t r, exec i s = .next t ∧
        s.Issued (State.translate { s with nextId := s.nextId + 1 } p.part (g / 16) p.dye ea.toNat).2 t g k (q.addStore s.nextId ea n (if l.isQueued then .reduction else .direct)) [{ src := .core g, dst := l.node, body := .req r }] ∧
        r.oid = s.nextId ∧ r.who = s.pref g k ∧ r.loc = l ∧ r.op = .atomic op n (op = .fadd && o.m = 1) 0 (p.reg o.c) q.floor.toNat false)

/-- 02 R84, R101-R105, 03 R128, R145, 15 R479: a read that its home performs is answered with the bytes there: at LM, CM or DM the bytes held; in HBM, on a line that is not
prepared, those of the version its mode chooses, with that version's timestamp; the memory server's next turn follows the partition served. A free count chooses whether the directory cache misses (17
R509). -/
def Obligations.HomeReadResults : Prop :=
  ∀ (s : State) (n : Nat) (src dst : Node) (r : GReq) (len : Nat), s.Served n src dst r → r.op = .read len →
    let served (t : State) (v : Nat) : Prop :=
      { t with net := s.net, madder := s.madder, servers := s.servers, freeCtr := s.freeCtr } = s ∧ s.Turned t v r.part
    ∃ t, exec (.homeRead n .clean) s = .next t ∧
      (∀ c o, r.loc = .lm c o ∨ r.loc = .cm c o ∨ r.loc = .dm c o → s.locBad r.loc len = false →
        t.net = s.net.eraseIdx n ++ [{ src := r.loc.node, dst := .core r.who.g, body := .resp r (s.locRead r.loc len) 0 0 0 0 false false }] ∧
        { t with net := s.net, madder := s.madder } = s) ∧
      (∀ v dpa ts x, r.loc = .hbm v dpa → r.mode = .snapshot ts → (s.lineAt (dpa / 128)).snapshot ts = some x → x.poison = false →
        s.tss.revoked ts = false →
        t.net = s.net.eraseIdx n ++ [{ src := .server v, dst := .core r.who.g
                                       body := .resp r (Mem.read x.data (dpa % 128) len) 0 x.ts (s.serverAt v).v 0 false false }] ∧
        x.ts ≤ ts ∧ served t v) ∧
      (∀ v dpa w, r.loc = .hbm v dpa → r.mode = .current w → w ≤ (s.serverAt v).v → (s.lineAt (dpa / 128)).prep = none →
        let x := (s.lineAt (dpa / 128)).current (s.serverAt v).v
        x.poison = false →
        t.net = s.net.eraseIdx n ++ [{ src := .server v, dst := .core r.who.g
                                       body := .resp r (Mem.read x.data (dpa % 128) len) 0 x.ts (s.serverAt v).v 0 false false }] ∧
        served t v)

/-- 02 R93, R101, R110, R112, R119, 03 R128: a plain write that its home performs stores its bytes and no other, clears the tags of the granules it meets, and is acknowledged; the
host takes no capability (02 R94) and refuses a running interface without its IDE stream (16 R499). In HBM it makes
the in-place version, with timestamp max(Eh, floor), its writer's dye, and the poison kept unless the whole line is written; no other line changes, and the version replaced goes to the pool when
a live snapshot is at or above it (R112; stated where a slot is free, R117), else it is gone; a write to a prepared line is held there. -/
def Obligations.HomeWriteResults : Prop :=
  ∀ (s : State) (n : Nat) (src dst : Node) (r : GReq) (bytes : List Byte) (floor : Nat), s.Served n src dst r → r.op = .write bytes false none floor →
    s.memOk = true → 0 < bytes.length → r.bad.any id = false →
    let answers (t : State) (b : Body) : Prop := t.net = s.net.eraseIdx n ++ [{ src := r.loc.node, dst := .core r.who.g, body := b }]
    ∃ t, exec (.homeWrite n) s = .next t ∧
      ((∀ v dpa, r.loc ≠ .hbm v dpa) → (∀ a, r.loc = .host a → s.hostRefused r.part = false ∧ r.cap = false) →
        (∀ i, t.locRead (r.loc.at_ i) 1 =
          if r.loc.off ≤ i ∧ i < r.loc.off + bytes.length then [bytes.getD (i - r.loc.off) 0] else s.locRead (r.loc.at_ i) 1) ∧
        (∀ i, t.locTag (r.loc.at_ i) = (s.locTag (r.loc.at_ i) && !overlaps (i / 16 * 16) 16 r.loc.off bytes.length)) ∧
        answers t (.ack r none 0) ∧ s.OnlyAt t r.loc) ∧
      (∀ a, r.loc = .host a → s.hostRefused r.part = true ∨ r.cap = true →
        answers t (.err r .rights) ∧ { t with net := s.net, madder := s.madder } = s) ∧
      (∀ v dpa, r.loc = .hbm v dpa → dpa % 128 + bytes.length ≤ 128 →
        let line := dpa / 128
        let old := s.lineAt line
        let stamp := max (s.serverAt v).eh floor
        let x := (t.lineAt line).cur
        let becomes (l : Line) : Prop :=
          t.lineAt line = l ∧ (∀ j, j ≠ line → t.lineAt j = s.lineAt j) ∧ answers t (.ack r (some stamp) 0) ∧ s.Turned t v r.part ∧
          { t with net := s.net, madder := s.madder, servers := s.servers, hbm := s.hbm, freeCtr := s.freeCtr } = s
        (old.prep = none →
          (∀ i, Mem.byte x.data i = if dpa % 128 ≤ i ∧ i < dpa % 128 + bytes.length then bytes.getD (i - dpa % 128) 0 else Mem.byte old.cur.data i) ∧
          (∀ i < 8, x.tags.getLsbD i = (old.cur.tags.getLsbD i && !overlaps (16 * i) 16 (dpa % 128) bytes.length)) ∧
          x.ts = stamp ∧ x.dye = r.dye ∧ x.poison = (old.cur.poison && bytes.length != 128) ∧ x.plain = true ∧
          { src := .server v, dst := .core r.who.g, body := .ack r (some stamp) 0 } ∈ t.net ∧
          ((∀ m, (s.serverAt v).newest = some m → m < old.cur.ts) → becomes { old with cur := x }) ∧
          (∀ m, (s.serverAt v).newest = some m → old.cur.ts ≤ m → s.lineFull line = false → s.poolUsed v < poolSize (s.serverAt v).poolCfg →
            becomes { old with cur := x, pool := old.cur :: old.pool })) ∧
        (old.prep ≠ none → t.lineAt line = { old with held := old.held ++ [(r, .clean)] } ∧ t.net = s.net.eraseIdx n))

/-- 07 R261-R266, 02 R93, R101, 17 R510: an atomic or reduction that its home performs writes the value of its operation and returns the old one; ACAS writes only when the old value is
the expected one; AFADD rounds the sum once to its format and raises its flags. On the chip and at the host it is performed as it is taken up; the host performs the operations of R265 alone. In HBM it takes a
handler thread of the server and is performed on the in-place version as it leaves the thread, committing singly (R263); on a prepared line it is held. Model's choices: log entries 99 (the threads) and 59 (a step that is not due changes nothing). -/
def Obligations.HomeAtomicResults : Prop :=
  ∀ (s : State) (n : Nat) (src dst : Node) (r : GReq) (op : AtOp) (w : Nat) (half : Bool) (x v : Word) (floor : Nat) (ret : Bool),
    r.op = .atomic op w half x v floor ret → s.memOk = true → (if op = .fadd then w = (if half then 2 else 4) else w = 4 ∨ w = 8) →
    let m := 2 ^ (8 * w)
    let y := v.toNat % m
    let signed (z : Nat) : Int := if 2 * z < m then z else (z : Int) - m
    let sum (old : Nat) : Nat × BitVec 5 :=
      let f := if half then bf16 else fp32
      let exact := FV.add 0 (f.value old) (f.value y)
      let q := f.round 0 false 0 exact.1
      (q.1 % m, exact.2 ||| q.2)
    let new (old : Nat) : Nat := match op with
      | .add => (old + y) % m
      | .and => old &&& y
      | .or => old ||| y
      | .xor => old ^^^ y
      | .min => if signed y < signed old then y else old
      | .minu => if y < old then y else old
      | .max => if signed old < signed y then y else old
      | .maxu => if old < y then y else old
      | .xchg => y
      | .cas => if old = x.toNat % m then y else old
      | .fadd => (sum old).1
    let flags (old : Nat) : BitVec 5 := if op = .fadd then (sum old).2 else 0
    let answers (t : State) (b : Body) : Prop := t.net = s.net.eraseIdx n ++ [{ src := r.loc.node, dst := .core r.who.g, body := b }]
    let performed (t : State) : Prop :=
      let old := bytesNat (s.locRead r.loc w)
      bytesNat (t.locRead r.loc w) = new old ∧ (∀ i, i < r.loc.off ∨ r.loc.off + w ≤ i → t.locRead (r.loc.at_ i) 1 = s.locRead (r.loc.at_ i) 1) ∧
        answers t (if ret then .resp { r with stamp := none } (natBytes w old) 0 0 0 (flags old) false false else .ack r none (flags old)) ∧ s.OnlyAt t r.loc
    (s.Served n src dst r →
      ((∀ u dpa, r.loc ≠ .hbm u dpa) → (∀ a, r.loc ≠ .host a) → s.locBad r.loc w = false → ∃ t, exec (.homeAtomic n .clean) s = .next t ∧ performed t) ∧
      (∀ a, r.loc = .host a → s.hostRefused r.part = false →
        if (w = 4 ∨ w = 8) ∧ (op = .add ∨ ret = true ∧ (op = .xchg ∨ op = .cas)) then ∃ t, exec (.homeAtomic n .clean) s = .next t ∧ performed t
        else ∃ t, exec (.homeAtomic n .clean) s = .next t ∧ answers t (.err r .rights) ∧ { t with net := s.net, madder := s.madder } = s) ∧
      (∀ u dpa, r.loc = .hbm u dpa → s.threaded r = false → (s.lineAt (dpa / 128)).prep = none →
        if bufferRoom 1 8 ((s.serverAt u).threads.map (·.2.2)) r.part then
          ∃ t, exec (.homeAtomic n .clean) s = .next t ∧ t.threaded r = true ∧ { t with servers := s.servers } = s ∧
            s.Turned (t.setServer u { t.serverAt u with threads := (s.serverAt u).threads }) u r.part
        else exec (.homeAtomic n .clean) s = .next s) ∧
      (∀ u dpa, r.loc = .hbm u dpa → s.threaded r = false → (s.lineAt (dpa / 128)).prep ≠ none →
        ∃ t, exec (.homeAtomic n .clean) s = .next t ∧ t.net = s.net.eraseIdx n ∧
          t.lineAt (dpa / 128) = { s.lineAt (dpa / 128) with held := (s.lineAt (dpa / 128)).held ++ [(r, .clean)] })) ∧
    (∀ u dpa, s.net[n]? = some { src := src, dst := dst, body := .req r } → deliverable s.net n = true → r.who.g < 1024 → r.remote = none →
      r.loc = .hbm u dpa → s.threaded r = true → (s.lineAt (dpa / 128)).prep = none → (s.lineAt (dpa / 128)).cur.poison = false → dpa % 128 + w ≤ 128 →
      let z := (s.lineAt (dpa / 128)).cur
      let old := bytesNat (Mem.read z.data (dpa % 128) w)
      let stamp := max (s.serverAt u).eh floor
      let writes : Prop := op = .cas → old = x.toNat % m
      ∃ t, exec (.homeAtomic n .clean) s = .next t ∧ t.threaded r = false ∧
        (writes →
          let z' := (t.lineAt (dpa / 128)).cur
          bytesNat (Mem.read z'.data (dpa % 128) w) = new old ∧ (∀ i, i < dpa % 128 ∨ dpa % 128 + w ≤ i → Mem.byte z'.data i = Mem.byte z.data i) ∧
          z'.ts = stamp ∧ z'.dye = r.dye ∧ z'.plain = true ∧
          { src := .server u, dst := .core r.who.g
            body := if ret then .resp { r with stamp := some stamp } (natBytes w old) 0 z.ts (s.serverAt u).v (flags old) false false
              else .ack r (some stamp) (flags old) } ∈ t.net) ∧
        (¬writes → t.hbm = s.hbm ∧
          answers t (if ret then .resp { r with stamp := none } (natBytes w old) 0 z.ts (s.serverAt u).v 0 false false else .ack r none 0)))

/-- 02 R85, R102, 03 R145, 07 R258, R264: data that comes back is deposited into the registers of its operation, zero- or sign-extended, with floor and VSEEN raised and the flags joined; the
operation is outstanding no longer; the process's other registers stay. Model's choices: log entry 56 (the stamp of an atomic). -/
def Obligations.DataArrivalResults : Prop :=
  ∀ (s : State) (n g k : Nat) (src : Node) (r : GReq) (bytes : List Byte) (tags : BitVec 8) (ts v : Nat) (flags : BitVec 5) (fixed bad : Bool) (p : Proc) (o : Out),
    s.net[n]? = some { src := src, dst := .core g, body := .resp r bytes tags ts v flags fixed bad } → deliverable s.net n = true →
    r.who = s.pref g k → (s.coreAt g).holdsProc k = true → p = s.procAt g k → (p.outs.find? fun x => x.oid == r.oid) = some o →
    ∃ t, exec (.loadDataArrival n) s = .next t ∧ t.net = s.net.eraseIdx n ∧
      let q := t.procAt g k
      (∀ a len sx, o.dest = .reg a len sx → q.reg a = extend len sx bytes ∧ ∀ x, x ≠ a → q.reg x = p.reg x) ∧
      (∀ a cap, o.dest = .pair a cap → a.getLsbD 0 = false → q.reg a = bytesWord (bytes.take 8) ∧ q.reg (oddOf a) = bytesWord ((bytes.drop 8).take 8) ∧
        q.pairTag a = (cap && tags.getLsbD 0)) ∧
      (∀ a len sx, o.dest = .reg a len sx → q.outs = p.outs.filter (fun x => x.oid != o.oid) ∧ q.flags = p.flags ||| flags ∧
        q.floor = BitVec.ofNat 64 (max p.floor.toNat ts) ∧ q.vseen = BitVec.ofNat 64 (max p.vseen.toNat v) ∧ q.pc = p.pc)

/-- 07 R250, R251, 03 R139: an error response leaves a deferred fault pending with the place, address and cause of its access, and no register written; an
acknowledgement ends its store and keeps the largest stamp, and a stamp above the floor with its bytes, for a fence of a range (03 R143). -/
def Obligations.ErrorAndAcknowledgementResults : Prop :=
  ∀ (s : State) (n g k : Nat) (src : Node) (r : GReq) (p : Proc), deliverable s.net n = true → r.who = s.pref g k →
    (s.coreAt g).holdsProc k = true → p = s.procAt g k →
    (∀ (c : Cause) (o : Out), s.net[n]? = some { src := src, dst := .core g, body := .err r c } →
      (p.outs.find? fun x => x.oid == r.oid) = some o → (∀ i, o.dest ≠ .desc i) →
      ∃ t, exec (.errorResponse n) s = .next t ∧ t.net = s.net.eraseIdx n ∧
        t.procAt g k = { p with outs := p.outs.filter (fun x => x.oid != r.oid)
                                faults := p.faults ++ [{ seq := o.seq, cause := c, fpc := o.pc, info := o.ea }] }) ∧
    (∀ (stamp : Option Nat) (flags : BitVec 5), s.net[n]? = some { src := src, dst := .core g, body := .ack r stamp flags } →
      ∃ t, exec (.storeAcknowledgement n) s = .next t ∧ t.net = s.net.eraseIdx n ∧
        t.procAt g k = { p with flags := p.flags ||| flags, stores := p.stores.filter (fun x => x.oid != r.oid)
                                ackMax := max p.ackMax (stamp.getD 0)
                                acks := (p.acks.filter fun a => decide (p.floor.toNat < a.2.2)) ++
                                  ((p.stores.filter fun x => x.oid == r.oid && decide (p.floor.toNat < stamp.getD 0)).map fun x =>
                                    (x.ea.toNat, x.len, stamp.getD 0)) })

/-- 02 R90, R92: the oldest entry for a home leaves its cluster's queue when the home takes it (15 R478, R479), and its home performs it; a write to another package goes on into
the egress queue when that has room. 15 R459, R461, R484: a translation
walk goes on from the deepest cached pointer, its reads charged to the access's dye, and brings pointers and leaf into the cluster's caches; nothing else changes where no read meets an error. 15 R467: a PLB miss brings the domain entry in. 02 R86, 17 R510: an atomic in a handler thread that the watchdog
abandons changes no memory, leaves its thread and answers WATCHDOG. Model's choices: log entries 20 and 57 (the name of the egress queue, what the PLB caches) and 86 (whose dye an early walk takes). -/
def Obligations.QueueAndCacheSteps : Prop :=
  ∀ (s : State) (c k g : Nat),
    (∀ e, c < 64 → ((s.clusterAt c).wq.find? fun e => e.seq == k) = some e → ((s.clusterAt c).wq.any fun x => x.loc.sameHome e.loc && decide (x.seq < k)) = false →
      s.olderRequest e = false → s.mayAccept e.loc e.part = true → (e.loc.isFar = true → s.egressRoom e.part = true) →
      ∃ t, exec (.writeQueueDrain c k) s = .next t ∧
        let s1 := s.setCluster c { s.clusterAt c with wq := (s.clusterAt c).wq.filter fun x => x.seq != k }
        (e.loc.isFar = true → t = { s1 with egress := s.egress ++ [{ e with seq := s.egressSeq }], egressSeq := s.egressSeq + 1 }) ∧
        (e.loc.isFar = false → t = e.request.answer ((s1.turned e.loc e.part).perform e.request .clean))) ∧
    (∀ dva : BitVec 52,
      let dye := s.walkDye c
      let part := (dye.extractLsb' 12 4).toNat
      let start := (s.clusterAt c).walkStart s.ptroot dva.toNat
      let reads := (s.walkSteps dva.toNat start.1 start.2).foldl (fun st x => st.walkRead part c dye x.2.1) s
      isWindow dva.toNat = false → s.walkWaits part c dva.toNat = false → (s.clusterAt c).cachedLeaf dva.toNat = none →
      ∃ t, exec (.translationWalk c dva) s = .next t ∧
        (t.clusterAt c).cachedLeaf dva.toNat = s.walkFrom dva.toNat start.1 start.2 ∧
        { t with clusters := s.clusters } = { reads with clusters := s.clusters } ∧
        (∀ j, { t.clusterAt j with tc := (s.clusterAt j).tc, tp := (s.clusterAt j).tp } = s.clusterAt j) ∧ (∀ j, j ≠ c → t.clusterAt j = s.clusterAt j) ∧
        (s.upsets = [] → { t with clusters := s.clusters, madder := s.madder, freeCtr := s.freeCtr } = s)) ∧
    (∀ (dva : BitVec 52) (p : Nat) (e : Nat × Word), s.partOfCore g = some p →
      ((s.partAt p).domains.find? fun e => match domainEntry e.2 with | some (b, n, _) => decide (b ≤ dva.toNat) && decide (dva.toNat < b + n) | none => false) = some e →
      (s.coreAt g).plb.contains e.1 = false →
      ∃ t, exec (.plbMiss g dva) s = .next t ∧ (t.coreAt g).plb.head? = some e.1 ∧
        { t.coreAt g with plb := (s.coreAt g).plb } = s.coreAt g ∧ (∀ h, h ≠ g → t.coreAt h = s.coreAt h) ∧ { t with cores := s.cores, madder := s.madder } = s) ∧
    (∀ (n v dpa : Nat) (src dst : Node) (r : GReq) (op : AtOp) (w : Nat) (h : Bool) (x y : Word) (fl : Nat) (ret : Bool),
      s.net[n]? = some { src := src, dst := dst, body := .req r } → deliverable s.net n = true → r.op = .atomic op w h x y fl ret → r.loc = .hbm v dpa →
      s.threaded r = true → (s.lineAt (dpa / 128)).prep = none → r.remote = none → r.who.g < 1024 →
      ∃ t, exec (.atomicWatchdog n) s = .next t ∧ t.net = s.net.eraseIdx n ++ [{ src := .server v, dst := .core r.who.g, body := .err r .watchdog }] ∧
        t.hbm = s.hbm ∧ t.threaded r = false)


/-! Fences, snapshots, transactions, publishing and third-party reads (07 R267-R288, 03 R139-R143, 02 R97-R126). -/

/-- 03 R139, R142, R143, 07 R267, R268: a fence completes when the earlier loads have returned, the earlier writes are visible at its scope, V has reached VSEEN and, from
.PKG up, every entry older than its marker has left the cluster's queue, and wider still the egress queue; it then raises the floor to the largest stamp acknowledged of the writes
it waits for. While they are not, it waits, and from .PKG up it first places its markers, a FENCER only where an entry meets its range. FENCER bears on its range alone, and on none when it is empty. Model's choices: log entry 56 (what FENCER compares). -/
def Obligations.FenceResults : Prop :=
  ∀ (s : State) (g k : Nat) (p : Proc) (b c : Reg), s.Runs g k p →
    let wq := (s.clusterAt (g / 16)).wq
    let place (q : List WqE) (next : Nat) (range : Option (Nat × Nat)) : Nat :=
      if range.isSome ∧ ∀ x ∈ q, inRange range x.ea x.bytes.length = false then 0 else next
    let waits (w : Nat) (e : Option Nat) : Proc := { p with wait := .marks p.pc w e }
    let raised (range : Option (Nat × Nat)) : Proc := { p with floor := BitVec.ofNat 64 (max p.floor.toNat (p.ackedIn range)) }
    let base := p.reg b
    let len := (p.reg c).toNat
    let clear (m : BitVec 2) (range : Option (Nat × Nat)) : Prop :=
      (∀ o ∈ p.outs, inRange range o.ea.toNat o.len = false) ∧
      ∀ x ∈ p.stores, inRange range x.ea.toNat x.len = false ∨ x.kind = .far ∨ (x.kind = .queued ∧ m = 0)
    let runs (i : BitVec 2 → Instr) (range : Option (Nat × Nat)) : Prop :=
      (∀ m, ¬clear m range → exec (i m) s = .next s) ∧
      (clear 0 range → p.vseen.toNat ≤ (s.coreAt g).vheld → exec (i 0) s = .next (s.retire g k p)) ∧
      (∀ m, m ≠ 0 → clear m range → (∀ pc w e, p.wait ≠ .marks pc w e) → exec (i m) s = .next (s.setProc g k (waits (place wq (s.clusterAt (g / 16)).wqSeq range) none))) ∧
      (∀ w e, clear 1 range → p.wait = .marks p.pc w e → (∀ x ∈ wq, w ≤ x.seq ∨ inRange range x.ea x.bytes.length = false) →
        p.vseen.toNat ≤ (s.coreAt g).vheld → exec (i 1) s = .next (s.retire g k (raised range))) ∧
      (∀ m w, 1 < m.toNat → clear m range → p.wait = .marks p.pc w none → (∀ x ∈ wq, w ≤ x.seq ∨ inRange range x.ea x.bytes.length = false) →
        exec (i m) s = .next (s.setProc g k (waits w (some (place s.egress s.egressSeq range))))) ∧
      (∀ m w e, 1 < m.toNat → clear m range → p.wait = .marks p.pc w (some e) →
        (∀ x ∈ wq, w ≤ x.seq ∨ inRange range x.ea x.bytes.length = false) → (∀ x ∈ s.egress, e ≤ x.seq ∨ inRange range x.ea x.bytes.length = false) →
        p.vseen.toNat ≤ (s.coreAt g).vheld → exec (i m) s = .next (s.retire g k (raised range))) ∧
      p.ackedIn none = p.ackMax ∧
      ∀ r, p.ackedIn (some r) = ((p.acks.filter fun a => inRange (some r) a.1 a.2.1).map (·.2.2)).foldl max 0
    runs .fence none ∧
    (p.awaits [b, c] = false → p.acquiring = false →
      (base.toNat < 2 ^ 52 → 0 < len → base.toNat + len ≤ 2 ^ 52 → runs (fun m => .fencer m b c) (some (base.toNat, len))) ∧
      (∀ m, base.toNat < 2 ^ 52 → len = 0 → exec (.fencer m b c) s = .next (s.retire g k p)) ∧
      (∀ m, 2 ^ 52 ≤ base.toNat ∨ (0 < len ∧ 2 ^ 52 < base.toNat + len) → exec (.fencer m b c) s = .next (s.trap g k p .bounds base)))

/-- 07 R270-R272: SNAPSET drops its process's snapshot, asks the service for a new one, and ends with its timestamp in wa, snapshot mode set and the floor raised; in a
transaction it writes 0. SNAPREG joins a live snapshot (0), or writes 1 when there is none and 2 in a transaction. SNAPREL drops the hold. -/
def Obligations.SnapshotResults : Prop :=
  ∀ (s : State) (g k : Nat) (p : Proc) (a : Reg), s.Runs g k p → p.acquiring = false →
    let live (ts : Nat) : Bool := s.tss.live.any fun x => x.ts == ts && !x.tx && !x.harvest
    let ends (i : Instr) (q : Proc) : Prop := ∃ t, exec i s = .next t ∧ t.Leaves g k q ∧ { t with cores := s.cores, madder := s.madder } = s
    let asked : SnapReq := { k := s.nextId, for_ := .set (s.pref g k), ts := 0, issued := false, marks := [], acks := [], replied := false, g := g, dye := p.dye }
    (p.awaits [a] = false →
      (p.txid ≠ 0 → exec (.snapset a) s = .next (s.retire g k (p.setReg a 0)) ∧ exec (.snapreg a) s = .next (s.retire g k (p.setReg a 2))) ∧
      (p.txid = 0 → p.snap = 0 → p.wait = .none → s.ownQueued (s.pref g k) = false →
        ∃ t, exec (.snapset a) s = .next t ∧ t.procAt g k = { p with wait := .snap p.pc s.nextId } ∧
          t.tss = { s.tss with reqs := s.tss.reqs ++ [asked] }) ∧
      (p.txid = 0 → p.snap ≠ 0 → p.wait = .none → s.ownQueued (s.pref g k) = false →
        ∃ t, exec (.snapset a) s = .next t ∧ t.procAt g k = { p with snap := 0, sm := false, wait := .snap p.pc s.nextId } ∧
          t.tss = { s.tss.drop p.snap.toNat false with reqs := s.tss.reqs ++ [asked] }) ∧
      (∀ n r, p.txid = 0 → p.wait = .snap p.pc n → s.snapReq n = some r → r.replied = true →
        ∃ t, exec (.snapset a) s = .next t ∧ t.tss.snaps = s.tss.snaps ∧ (t.snapReq n) = none ∧
          ∃ pc, t.procAt g k = { ({ p with snap := BitVec.ofNat 64 r.ts, sm := true, floor := BitVec.ofNat 64 (max p.floor.toNat r.ts) } : Proc).setReg a
            (BitVec.ofNat 64 r.ts) with pc := pc, lastPc := p.pc, wait := .none }) ∧
      (p.txid = 0 → live (p.reg a).toNat = false → ends (.snapreg a) (p.setReg a 1)) ∧
      (p.txid = 0 → live (p.reg a).toNat = true → p.snap = 0 → p.sm = false →
        ∃ t, exec (.snapreg a) s = .next t ∧
          (∃ pc, t.procAt g k = { ({ p with snap := p.reg a, sm := true, floor := BitVec.ofNat 64 (max p.floor.toNat (p.reg a).toNat) } : Proc).setReg a 0 with
            pc := pc, lastPc := p.pc, wait := .none }) ∧
          t.tss.snaps = s.tss.snaps.map fun (x : Snap) =>
            if x.ts == (p.reg a).toNat && !x.tx && !x.harvest then { x with holders := x.holders + 1 } else x) ∧
      (p.txid = 0 → live (p.reg a).toNat = true → p.snap = p.reg a → p.sm = true → ends (.snapreg a) (p.setReg a 0))) ∧
    (p.txid = 0 → p.snap ≠ 0 →
      ∃ t, exec .snaprel s = .next t ∧ t.tss = s.tss.drop p.snap.toNat false ∧
        ∃ pc, t.procAt g k = { p with snap := 0, sm := false, pc := pc, lastPc := p.pc, wait := .none }) ∧
    (p.txid ≠ 0 ∨ p.snap = 0 → ends .snaprel p)

/-- 07 R275-R280: TXB ends with a free TXID and its snapshot; TXC writes status and timestamp to its pair when its homes have applied or it has aborted, and 0, 0 outside a
transaction; TXA ends it without a result; PUB writes 2 for an id out of range, 1 when the set has no version, and 0 with its timestamp when every home has applied it. Model's choices: log entries 16 and 56 (the free choice of the TXID, far stores). -/
def Obligations.TransactionResults : Prop :=
  ∀ (s : State) (g k : Nat) (p : Proc) (a : Reg), s.Runs g k p → p.acquiring = false →
    let none_ : Proc := { p with txid := 0, snap := 0, sm := false }
    let seen (ts : Nat) (q : Proc) : Proc :=
      { q with vseen := BitVec.ofNat 64 (max p.vseen.toNat ts), floor := BitVec.ofNat 64 (max p.floor.toNat ts) }
    let ends (i : Instr) (q : Proc) : Prop :=
      ∃ t, exec i s = .next t ∧ ∃ pc, t.procAt g k = { q with pc := pc, lastPc := p.pc, wait := .none }
    (p.awaits [a] = false → p.txid ≠ 0 → ends (.txb a) (p.setReg a 0)) ∧
    (∀ n r w x, p.awaits [a] = false → p.txid = 0 → p.wait = .snap p.pc n → s.snapReq n = some r → r.for_ = .tx w x → r.replied = true →
      ends (.txb a) (({ p with txid := BitVec.ofNat 13 x, snap := BitVec.ofNat 64 r.ts
                               floor := BitVec.ofNat 64 (max p.floor.toNat r.ts) } : Proc).setReg a (BitVec.ofNat 64 r.ts))) ∧
    (p.awaits [a, oddOf a] = false →
      (p.txid = 0 → ends (.txc a) (p.setPair a 0 0 false)) ∧
      (∀ x pc, p.txid ≠ 0 → Tbl.find s.tss.txs p.txid.toNat = some x → p.wait = .txc pc →
        (∀ st c, x.phase = .ended st c → st ≠ 0 → ends (.txc a) (none_.setPair a (BitVec.ofNat 64 st) (BitVec.ofNat 64 c) false)) ∧
        (∀ c, x.phase = .applying c → (∀ h ∈ x.homes, h ∈ x.applied) → c ≤ s.tss.v →
          ends (.txc a) ((seen c none_).setPair a 0 (BitVec.ofNat 64 c) false)) ∧
        (x.phase = .preparing → exec (.txc a) s = .next s)) ∧
      (((p.reg a).toNat = 0 ∨ 4095 < (p.reg a).toNat) → ends (.pub a) (p.setPair a 2 0 false)) ∧
      (∀ cs, 0 < (p.reg a).toNat → (p.reg a).toNat ≤ 4095 → p.wait = .pubCopies p.pc cs → (∀ c ∈ s.setCopies p.launch (p.reg a).toNat, c ∉ cs) →
        (∀ x ∈ s.tss.pubs, x.launch = p.launch → x.id = (p.reg a).toNat → x.homes = []) → s.setHomes (.set p.launch (p.reg a).toNat) = [] →
        ends (.pub a) (p.setPair a 1 0 false)) ∧
      (∀ ts x, 0 < (p.reg a).toNat → (p.reg a).toNat ≤ 4095 → p.wait = .pub p.pc ts → (s.tss.pubs.find? fun x => x.ts == ts) = some x → x.homes = [] →
        ts ≤ s.tss.v → ends (.pub a) ((seen ts p).setPair a 0 (BitVec.ofNat 64 ts) false))) ∧
    (p.txid ≠ 0 → ends .txa none_) ∧ (p.txid = 0 → exec .txa s = .next (s.retire g k p))

/-- 07 R281, R282: a third-party read whose checks pass is in flight once it has issued, with its source, recipients and report, and its process goes on with no register changed;
an untagged handle traps CAPTAG, and a handle without T, or of another kind, RIGHTS. -/
def Obligations.ThirdPartyRequests : Prop :=
  ∀ (s : State) (g k : Nat) (p : Proc) (i : Instr) (group far : Bool) (a b c : Reg) (report : Option Nat), s.Runs g k p →
    ThirdForm i group far a b c report → p.awaits [a, oddOf a, b, c, oddOf b] = false → p.acquiring = false →
    let h := p.reg (oddOf a) ++ p.reg a
    let kind := (h.extractLsb' 124 4).toNat
    (p.pairTag a = false → exec i s = .next (s.trap g k p .captag 0)) ∧
    (p.pairTag a = true → (if group then kind ≠ 2 ∨ groupT h = false else kind ≠ 1 ∨ hT h = false) →
      exec i s = .next (s.trap g k p .rights 0)) ∧
    (∀ src fp ms shared, p.pairTag a = true → (group = true → kind = 2 ∧ groupT h = true ∧ ∃ got f, p.wait = .desc p.pc got f) →
      (group = false → kind = 1 ∧ hT h = true) →
      s.tprSource g p far b c = .ok (src, fp) → p.tprMembers group h = some (.ok ms) → s.reportCheck g k report = none → s.heldBack g p = false →
      s.relayFit g (bitsOf (p.reg c).toNat 12 0) = some shared →
      ∃ t r, exec i s = .next t ∧ t.tprs = (s.tprs.filter fun x => !x.ended) ++ [r] ∧ r.k = s.nextId ∧ r.who = s.pref g k ∧ r.src = src ∧ r.far = fp ∧
        r.len = bitsOf (p.reg c).toNat 12 0 ∧ r.members.map (·.handle) = ms ∧ r.report = report ∧ r.shared = shared ∧ r.data = none ∧ r.fault = none ∧
        (∃ pc, t.procAt g k = { p with seq := p.seq + 1, rseq := if report.isSome then p.rseq + 1 else p.rseq
                                       pc := pc, lastPc := p.pc, wait := .none }) ∧
        ∀ (x : Loc) (n : Nat), t.locRead x n = s.locRead x n)

/-- 02 R98-R100, R115, 03 R146: the service gives a snapshot the next timestamp, keeps it live and has a marker for every ready server; a marker raises its server's store epoch above the
snapshot and awaits an acknowledgement; the reply comes when every marker is acknowledged and V is at the snapshot less 1, and waits before; a value of V reaches servers and, once all have
acknowledged it, cores, and falls at neither; the firn line and newest live snapshot reach servers. A reply not yet due, and a value not yet acknowledged, change nothing: the model's choice, log entry 59. Further
choices: log entries 56 (what the marker brings) and 83 (the dye of the broadcasts). -/
def Obligations.SnapshotSteps : Prop :=
  ∀ (s : State) (k srv g v : Nat) (r : SnapReq),
    (s.snapReq k = some r → s.tss.ready = true → r.issued = false → (s.tss.live.filter fun x => !x.tx).length < 4096 →
      ∃ t r', exec (.snapshotRequest k) s = .next t ∧ t.tss.last = s.tss.last + 1 ∧ s.tss.v ≤ t.tss.v ∧ t.snapReq k = some r' ∧ r'.issued = true ∧
        r'.ts = s.tss.last + 1 ∧ (∀ x, x ∈ r'.marks ↔ ∃ y, (x, y) ∈ s.servers ∧ y.ready = true) ∧
        ∃ x ∈ t.tss.snaps, x.ts = s.tss.last + 1 ∧ x.holders = 1 ∧ x.revoked = false ∧ x.part = (s.snapOwner r.for_).1 ∧ x.launch = (s.snapOwner r.for_).2) ∧
    (s.snapReq k = some r → srv ∈ r.marks →
      ∃ t r', exec (.epochMarker k srv) s = .next t ∧ (t.serverAt srv).eh = max (s.serverAt srv).eh (r.ts + 1) ∧ (t.serverAt srv).firn = s.tss.firn ∧
        (t.serverAt srv).newest = s.tss.newest ∧ t.snapReq k = some r' ∧ srv ∉ r'.marks ∧ srv ∈ r'.acks) ∧
    (s.snapReq k = some r → ∃ t, exec (.epochMarkerAcknowledgement k srv) s = .next t ∧ t.snapReq k = some { r with acks := r.acks.filter (· != srv) }) ∧
    (∀ w, s.snapReq k = some r → r.for_ = .set w → r.issued = true → r.marks = [] → r.acks = [] → r.ts ≤ s.tss.v + 1 →
      ∃ t, exec (.snapshotReply k) s = .next t ∧ t.snapReq k = some { r with replied := true } ∧ { t with tss := s.tss, madder := s.madder } = s) ∧
    (s.snapReq k = some r → r.issued = false ∨ r.marks ≠ [] ∨ r.acks ≠ [] ∨ s.tss.v + 1 < r.ts → exec (.snapshotReply k) s = .next s) ∧
    ((s.serverAt srv).ready = true → v ≤ s.tss.v →
      ∃ t, exec (.watermarkBroadcast srv v) s = .next t ∧ (t.serverAt srv).v = max (s.serverAt srv).v v ∧
        Tbl.get 0 t.tss.acked srv = max (Tbl.get 0 s.tss.acked srv) v) ∧
    (v ≤ s.heldV → ∃ t, exec (.vheldBroadcast g v) s = .next t ∧ (t.coreAt g).vheld = max (s.coreAt g).vheld v ∧
      { t.coreAt g with vheld := (s.coreAt g).vheld } = s.coreAt g ∧ (∀ h, h ≠ g → t.coreAt h = s.coreAt h) ∧ { t with cores := s.cores, madder := s.madder } = s) ∧
    (s.heldV < v → exec (.vheldBroadcast g v) s = .next s) ∧
    ((s.serverAt srv).ready = true →
      ∃ t, exec (.firnLineBroadcast srv) s = .next t ∧ (t.serverAt srv).firn = s.tss.firn ∧ (t.serverAt srv).newest = s.tss.newest ∧
        { t with servers := s.servers, madder := s.madder } = s)

/-- 02 R107-R110, R114, 10 R383: a home asked to prepare votes once, REVOKED (2) when the snapshot is revoked, else CONFLICT (1) when a line that the transaction wrote there has a committed version above
the snapshot, another owner's version or another transaction's mark, else YES (0), and on YES marks the transaction's lines; the last vote to arrive commits the transaction at the next
timestamp, or aborts it with the largest code; a
home that applies a commit raises its store epoch to it and, where no operation is held, puts the transaction's version in place and the replaced one in the pool; ABORT discards the
versions and clears the marks; the TXID is free when all have acknowledged; a publish is applied home by home, at lines without a mark. Model's choices: log entries 87 (a publish while a later copy of the set
is incomplete: what the completed ones have written) and 92 (the meters). -/
def Obligations.CommitSteps : Prop :=
  ∀ (s : State) (x srv : Nat) (y : Tx), Tbl.find s.tss.txs x = some y → (s.tss.txs.map (·.1)).Pairwise (· < ·) → (s.hbm.map (·.1)).Pairwise (· < ·) →
    let quiet : Prop := (∀ e ∈ s.linesOf srv, e.2.held = []) ∧ s.devHeld = []
    let inPlace (l : Line) (w : Ver) (c : Nat) (o : Owner) : Line :=
      { l with cur := { w with ts := c, plain := false, holdV := 0 }, pool := { l.cur with holdV := c } :: l.pool
               tent := l.tent.filter fun e => e.1 != o, prep := match o with | .tx n => if l.prep = some n then none else l.prep | _ => l.prep }
    let revoked : Prop := ∃ z ∈ s.tss.snaps, z.ts = y.snap ∧ z.tx = true ∧ z.revoked = true
    let conflict : Prop := ∃ e ∈ s.linesOf srv, (e.2.tentOf (.tx x)).isSome = true ∧
      ((∃ w ∈ e.2.cur :: e.2.pool, y.snap < w.ts) ∨ (∃ w ∈ e.2.tent, w.1 ≠ .tx x) ∨ ∃ n, e.2.prep = some n ∧ n ≠ x)
    (∀ code, (revoked → code = 2) → (¬revoked → conflict → code = 1) → (¬revoked → ¬conflict → code = 0) → y.phase = .preparing → srv ∈ y.asked →
      ∃ t, exec (.prepare x srv) s = .next t ∧
        Tbl.find t.tss.txs x = some { y with asked := y.asked.filter (· != srv), votes := y.votes ++ [(srv, code, false)] } ∧
        ∀ e ∈ s.linesOf srv, t.lineAt e.1 = if code = 0 ∧ (e.2.tentOf (.tx x)).isSome then { e.2 with prep := some x } else e.2) ∧
    (∀ before after code, y.phase = .preparing → y.asked = [] → y.votes = before ++ (srv, code, false) :: after → (∀ w ∈ before ++ after, w.2.2 = true ∧ w.1 ≠ srv) →
      ∃ t z, exec (.vote x srv) s = .next t ∧ Tbl.find t.tss.txs x = some z ∧
        ((∀ w ∈ y.votes, w.2.1 = 0) → z.phase = .applying (s.tss.last + 1) ∧ t.tss.last = s.tss.last + 1) ∧
        ((∃ w ∈ y.votes, w.2.1 ≠ 0) →
          (∃ c, z.phase = .ended c 0 ∧ (∃ w ∈ y.votes, w.2.1 = c) ∧ ∀ w ∈ y.votes, w.2.1 ≤ c) ∧ z.toAbort = y.homes)) ∧
    (∀ c, y.phase = .applying c → srv ∈ y.homes → srv ∉ y.applied →
      ∃ t z, exec (.apply x srv) s = .next t ∧ Tbl.find t.tss.txs x = some z ∧ z.applied = srv :: y.applied ∧ z.phase = y.phase ∧ z.homes = y.homes ∧
        (t.serverAt srv).eh = max (s.serverAt srv).eh c ∧
        (quiet → ∀ e ∈ s.linesOf srv, ∀ w, e.2.tentOf (.tx x) = some w → t.lineAt e.1 = inPlace e.2 w c (.tx x))) ∧
    (srv ∈ y.toAbort → s.txQueued x srv = false →
      ∃ t z, exec (.abortTxid x srv) s = .next t ∧ Tbl.find t.tss.txs x = some z ∧ z.toAbort = y.toAbort.filter (· != srv) ∧ z.aborted = srv :: y.aborted ∧
        z.phase = y.phase ∧
        (quiet → ∀ e ∈ s.linesOf srv, t.lineAt e.1 =
          { e.2 with tent := e.2.tent.filter fun w => w.1 != .tx x, prep := if e.2.prep = some x then none else e.2.prep })) ∧
    (y.closed = true → y.toAbort = [] → y.aborted = [srv] → ∃ t, exec (.abortAcknowledgement x srv) s = .next t ∧ Tbl.find t.tss.txs x = none) ∧
    (∀ k z, (s.tss.pubs.find? fun x => x.k == k) = some z → srv ∈ z.homes →
      let o : Owner := .set z.launch z.id
      let ended (l : SetLine) := l.writes.filter fun w => !s.pendingCopies.contains w.1
      let pending (l : SetLine) := l.writes.filter fun w => s.pendingCopies.contains w.1
      ((s.linesOf srv).any fun e => s.publishable e.1 o && e.2.prep.isSome) = false →
      ∃ t, exec (.publishApply k srv) s = .next t ∧ z.ts ≤ (t.serverAt srv).eh ∧
        (t.tss.pubs.find? fun x => x.k == k) = some { z with homes := z.homes.filter (· != srv) } ∧
        ∀ e ∈ s.linesOf srv, ∀ w, e.2.tentOf o = some w →
          (s.setLineOf e.1 o = none → t.lineAt e.1 = inPlace e.2 w z.ts o) ∧
          ∀ l, s.setLineOf e.1 o = some l →
            (ended l = [] → t.lineAt e.1 = e.2) ∧
            (ended l ≠ [] → pending l = [] → t.lineAt e.1 = inPlace e.2 w z.ts o) ∧
            (ended l ≠ [] → pending l ≠ [] →
              let u := SetLine.version { l with writes := ended l }
              t.lineAt e.1 = { e.2 with
                cur := { u with ts := z.ts, plain := false, holdV := 0 }
                pool := { e.2.cur with holdV := z.ts } :: e.2.pool
                tent := e.2.tent.map fun y => if y.1 == o then (o, SetLine.version { l with base := u, writes := pending l }) else y }))

/-- 02 R116, R117, 07 R273: a server with no free slot for a write that waits reports the oldest snapshot in the way, which is revoked with a notice on its way to the cores of its holders; the notice tells
its core; a version that nothing can read any more is reclaimed while Ablation runs (17 R511): no request for 64 cycles, or the pool more than seven-eighths full, and then one slot of every four. A step that
nothing calls for changes nothing: the model's choice, log entry 59. -/
def Obligations.RevocationSteps : Prop :=
  ∀ (s : State) (line v g : Nat), s.hbmHome (line * 128) = some v →
    let full := s.lineFull line
    (s.slotWanted v line full = false → exec (.revocation line) s = .next s) ∧
    (∀ o, full = true ∨ poolSize (s.serverAt v).poolCfg ≤ s.poolUsed v → s.slotWanted v line full = true →
      ((s.candidates v line full).any fun c =>
        reclaimable (s.serverAt v).firn (s.serverAt v).v ((s.lineAt c.1).successorTs c.2) || (s.readers c).isEmpty) = false →
      ((s.candidates v line full).flatMap s.readers).min? = some o →
      ∃ t, exec (.revocation line) s = .next t ∧ (∀ x ∈ t.tss.snaps, x.ts = o → x.revoked = true) ∧
        (∀ c ∈ s.holderCores o, { src := .tss, dst := .core c, body := .notice o } ∈ t.net) ∧
        (t.serverAt v).revokes = min ((s.serverAt v).revokes + 1) 65535) ∧
    (∀ ts n, s.net[n]? = some { src := .tss, dst := .core g, body := .notice ts } → deliverable s.net n = true →
      (∀ j < n, ∀ m, s.net[j]? = some m → ¬(m.dst = .core g ∧ m.body = .notice ts)) →
      ∃ t, exec (.revocationNotice g ts) s = .next t ∧ ts ∈ (t.coreAt g).notices ∧ t.net = s.net.eraseIdx n) ∧
    (∀ ts, s.ablationMay v = false → exec (.ablationReclaim line ts) s = .next s) ∧
    (s.ablationMay v = true ↔
      ((s.serverQueue v = [] ∧ (s.serverAt v).lastReq + 64 ≤ s.cycle) ∨ 7 * poolSize (s.serverAt v).poolCfg < 8 * s.poolUsed v) ∧
        (s.serverQueue v = [] ∨ 3 ≤ (s.serverAt v).since)) ∧
    (∀ ts x, s.ablationMay v = true → (s.lineAt line).pool = [x] → x.ts = ts → (line, s.lineAt line) ∈ s.hbm → (s.hbm.map (·.1)).Pairwise (· < ·) → x.holdV = 0 →
      reclaimable (s.serverAt v).firn (s.serverAt v).v (s.lineAt line).cur.ts = true →
      (∀ c ∈ s.candidates v line false, reclaimable (s.serverAt v).firn (s.serverAt v).v ((s.lineAt c.1).successorTs c.2) = true →
        ts ≤ (((s.lineAt c.1).pool).getD c.2 Ver.zero).ts) →
      ∃ t, exec (.ablationReclaim line ts) s = .next t ∧ t.lineAt line = { s.lineAt line with pool := [] } ∧
        (∀ j, j ≠ line → t.lineAt j = s.lineAt j) ∧ (t.serverAt v).since = 0)

/-! Channels and third-party reads (08 R289-R306, 01 R26-R46, 02 R120-R125). -/

/-- 08 R295-R297, 01 R26, R30: CHOPEN checks its descriptor and ring, then opens the lowest closed endpoint and writes its tagged handle, or an untagged zero when none is
closed; CHCLOSE checks its endpoint, waits for a granted transfer, then closes it, its generation raised and every queued sender answered. Model's choices: log entry 24 (the lowest closed endpoint). -/
def Obligations.EndpointOpenAndClose : Prop :=
  ∀ (s : State) (g k : Nat) (p : Proc) (a b c : Reg), s.Runs g k p → p.acquiring = false →
    let d := (p.reg b).toNat
    let esz := bitsOf d 11 0
    let ek := bitsOf d 13 12
    let mode := (p.reg b).getLsbD 14
    let depth := bitsOf d 19 15
    let ro := (p.reg c).toNat
    let sound : Prop := bitsOf d 63 40 = 0 ∧ (p.reg b).getLsbD 23 = false ∧ (ek = 0 → esz = 7) ∧ (ek = 3 → esz = 15) ∧ (ek = 2 → esz ≤ 3071) ∧
      (mode = false → depth = 0)
    let fits : Prop := mode = true → ro % 64 = 0 ∧ ro + (depth + 1) * roundUp (esz + 1) 64 ≤ p.segLen
    (p.awaits [a, oddOf a, b, c] = false →
      (¬sound → exec (.chopen a b c) s = .next (s.trap g k p .bounds 0)) ∧
      (sound → mode = true → ro % 64 ≠ 0 → exec (.chopen a b c) s = .next (s.trap g k p .align (p.reg c))) ∧
      (sound → mode = true → ro % 64 = 0 → p.segLen < ro + (depth + 1) * roundUp (esz + 1) 64 →
        exec (.chopen a b c) s = .next (s.trap g k p .segment (p.reg c))) ∧
      (sound → fits → (∀ e < 256, (s.epAt g e).st ≠ .closed) → exec (.chopen a b c) s = .next (s.retire g k (p.setPair a 0 0 false))) ∧
      ∀ e < 256, sound → fits → (s.epAt g e).st = .closed → (∀ x < e, (s.epAt g x).st ≠ .closed) →
        ∃ t h, exec (.chopen a b c) s = .next t ∧ t.Leaves g k (p.setPair a (h.setWidth 64) (h.extractLsb' 64 64) true) ∧
          hCk h = 1 ∧ (h.extractLsb' 120 4).toNat = p.part % 16 ∧ hPkg h = s.bring.pkgid.toNat ∧ hExt h = false ∧ hLoc h = g % 1024 ∧ hIdx h = e ∧
          (hEk h).toNat = ek ∧ hEsz h = esz ∧ hMode h = mode ∧ hS h = (p.reg b).getLsbD 20 ∧ capG h = (p.reg b).getLsbD 21 ∧
          hT h = (p.reg b).getLsbD 22 ∧ hGen h = (s.epAt g e).gen ∧
          (let x := t.epAt g e
           x.st = (if mode then .buffered else .empty) ∧ x.owner = k ∧ x.gen = (s.epAt g e).gen ∧ x.ek.toNat = ek ∧ x.esz.toNat = esz ∧ x.mode = mode ∧
             x.depth.toNat = depth ∧ x.hq = [] ∧ x.slots = [] ∧ x.exit = false ∧
             ∀ i < 16, x.acc.getLsbD i = ((p.reg b).getLsbD (24 + i) || decide (i = p.part))) ∧
          ∀ x, x ≠ e → t.epAt g x = s.epAt g x) ∧
    (p.awaits [a] = false →
      let e := (p.reg a).toNat % 256
      let x := s.epAt g e
      let gone : Prop := x.st = .closed ∨ x.st = .forwarding
      (gone → exec (.chclose a) s = .next (s.trap g k p .closed 0)) ∧
      (¬gone → x.owner ≠ k → exec (.chclose a) s = .next (s.trap g k p .rights 0)) ∧
      (¬gone → x.owner = k → x.exit = true → exec (.chclose a) s = .next (s.trap g k p .type 0)) ∧
      (¬gone → x.owner = k → x.exit = false → x.busy = true → exec (.chclose a) s = .next s) ∧
      (¬gone → x.owner = k → x.exit = false → x.busy = false →
        ∃ t, exec (.chclose a) s = .next t ∧ t.Leaves g k p ∧ t.epAt g e = { Endp.zero with gen := x.gen + 1 } ∧
          ∀ h ∈ x.hq, ∀ r, h.from_ = .proc r → { src := .core g, dst := .core r.g, body := .refuse h .closed } ∈ t.net))

/-- 08 R299-R301, R292: a sending form checks its handle (CAPTAG, RIGHTS, TYPE) and its source, waits for the process's own commits to be seen, then posts a header and blocks
its process in state chan: the word, the LM block, the tile image or the tagged pair is what it sends. Model's choices: log entries 22 and 23 (counting, handles of other units). -/
def Obligations.SendResults : Prop :=
  ∀ (s : State) (g k : Nat) (p : Proc) (b : Reg), s.Runs g k p → p.acquiring = false →
    let h := p.pair b
    let good : Prop := p.pairTag b = true ∧ hCk h = 1 ∧ hS h = true
    let sends (i : Instr) (ek : BitVec 2) (a : Reg) (addr len : Nat) (bytes : List Byte) (tag : Bool) : Prop :=
      ∃ t d, exec i s = .next t ∧ t.Blocks g k p .chan (.send p.pc d.hid ek a addr len) ∧ d.from_ = .proc (s.pref g k) ∧ d.part = p.part ∧
        d.dye = p.dye ∧ d.gen = hGen h ∧ d.ek = ek ∧ d.len = len ∧ d.bytes = bytes ∧ d.tag = tag ∧ d.failed = false ∧ d.launch = p.launch ∧
        (hPkg h = s.bring.pkgid.toNat → hExt h = false → t.net = s.net ++ [{ src := .core g, dst := .core (hLoc h), body := .header (hIdx h) d }]) ∧
        (hPkg h ≠ s.bring.pkgid.toNat → hExt h = false →
          t.net = s.net ++ [{ src := .core g, dst := .egress, body := .farHeader (hPkg h) (hLoc h) (hIdx h) d }])
    (∀ i rs ek, SendForm i rs b ek → p.awaits rs = false →
      (p.pairTag b = false → exec i s = .next (s.trap g k p .captag 0)) ∧
      (p.pairTag b = true → (hCk h ≠ 1 ∨ hS h = false) → exec i s = .next (s.trap g k p .rights 0)) ∧
      (good → hEk h ≠ ek → exec i s = .next (s.trap g k p .type 0))) ∧
    (∀ a, p.awaits [a, b, oddOf b] = false → good → hEk h = 0 →
      ((s.coreAt g).vheld < p.vseen.toNat → exec (.send a b) s = .next s) ∧
      (p.vseen.toNat ≤ (s.coreAt g).vheld → sends (.send a b) 0 a 0 8 (wordBytes 8 (p.reg a)) false)) ∧
    (∀ a c, p.awaits [a, c, b, oddOf b] = false → good → hEk h = 1 →
      let ea := p.reg a
      let n := (p.reg c).toNat
      (ea.toNat % 16 ≠ 0 → exec (.sendb a b c) s = .next (s.trap g k p .align ea)) ∧
      (ea.toNat % 16 = 0 → p.segLen < ea.toNat + n → exec (.sendb a b c) s = .next (s.trap g k p .segment ea)) ∧
      (ea.toNat % 16 = 0 → ea.toNat + n ≤ p.segLen → n ≠ hEsz h + 1 → exec (.sendb a b c) s = .next (s.trap g k p .type 0)) ∧
      (ea.toNat % 16 = 0 → ea.toNat + n ≤ p.segLen → n = hEsz h + 1 → p.vseen.toNat ≤ (s.coreAt g).vheld →
        sends (.sendb a b c) 1 a ea.toNat n (if hMode h then s.lmRead g (p.sb.toNat + ea.toNat) n else []) false)) ∧
    (∀ a : BitVec 3, p.awaits [b, oddOf b] = false → good → hEk h = 2 → (s.tileAt g).owner = some k →
      let sh := (s.tileAt g).shape a.toNat
      (shapeSends sh = false → exec (.sendt a b) s = .next (s.trap g k p .type 0)) ∧
      (shapeSends sh = true → shapeRows sh * shapeBpr sh = hEsz h + 1 → p.vseen.toNat ≤ (s.coreAt g).vheld → s.tilePending (s.pref g k) = false →
        sends (.sendt a b) 2 (a.setWidth 4) a.toNat (shapeRows sh * shapeBpr sh) (if hMode h then (s.tileAt g).image a.toNat sh else []) false)) ∧
    (∀ a, p.awaits [a, oddOf a, b, oddOf b] = false → good → hEk h = 3 →
      (p.pairTag a = false → exec (.sendh a b) s = .next (s.trap g k p .captag 0)) ∧
      (p.pairTag a = true → capG (p.pair a) = false → exec (.sendh a b) s = .next (s.trap g k p .rights 0)) ∧
      (p.pairTag a = true → capG (p.pair a) = true → p.vseen.toNat ≤ (s.coreAt g).vheld → sends (.sendh a b) 3 a 0 16 (p.pairBytes a) true))

/-- 08 R302-R304, 01 R36, R38, R44: a receiving form checks its endpoint, then completes with status 0 and the element of a waiting message (in its register, pair, segment or
tile register), 3 for a failed void delivery, 1 when nothing waits and its deadline has passed; else its process blocks until one of these. Model's choices: log entry 15 (the tag RECVH delivers). -/
def Obligations.ReceiveResults : Prop :=
  ∀ (s : State) (g k : Nat) (p : Proc) (i : Instr) (rs : List Reg) (a : Reg) (ek : BitVec 2) (join t : Bool) (b c d : Reg), s.Runs g k p →
    ReceiveForm i rs a ek join t b c d → p.awaits rs = false → p.acquiring = false →
    let e := (p.reg b).toNat % 256
    let x := s.epAt g e
    let gone : Prop := x.st = .closed ∨ x.st = .forwarding
    let sh := (s.tileAt g).shape a.toNat
    let placed : Prop := (ek = 1 → (p.reg a).toNat % 16 = 0 ∧ (p.reg a).toNat + x.esz.toNat + 1 ≤ p.segLen) ∧
      (ek = 2 → (s.tileAt g).owner = some k ∧ shapeRows sh * shapeBpr sh = x.esz.toNat + 1 ∧ shapeSends sh = true ∧ s.tilePending (s.pref g k) = false)
    let addr := if ek = 1 then (p.reg a).toNat else if ek = 2 then a.toNat else 0
    let dl := if t then p.reg d else Config.never
    let got (t : State) (bytes : List Byte) (tag : Bool) : Prop :=
      (ek = 0 → t.Leaves g k ((p.setReg a (bytesWord bytes)).setReg c 0)) ∧
      (ek = 3 → t.Leaves g k ((p.setPair a (bytesWord (bytes.take 8)) (bytesWord ((bytes.drop 8).take 8)) tag).setReg c 0)) ∧
      (ek = 1 → t.Leaves g k (p.setReg c 0) ∧ (t.coreAt g).lm = Mem.write (s.coreAt g).lm (p.sb.toNat + addr) bytes) ∧
      (ek = 2 → t.Leaves g k (p.setReg c 0) ∧ t.tileAt g = (s.tileAt g).setImage a.toNat sh bytes)
    (gone → exec i s = .next (s.trap g k p .closed 0)) ∧
    (¬gone → x.owner ≠ k → exec i s = .next (s.trap g k p .rights 0)) ∧
    (¬gone → x.owner = k → (x.ek ≠ ek ∨ x.exit ≠ join) → exec i s = .next (s.trap g k p .type 0)) ∧
    (¬gone → x.owner = k → x.ek = ek → x.exit = join → placed →
      ((x.mode = true → x.headFilled = false) → (x.mode = false → x.hq = []) →
        (dl ≤ s.time → exec i s = .next (s.retire g k (p.setReg c 1))) ∧
        (s.time < dl → ∃ t, exec i s = .next t ∧ t.Blocks g k { p with deadline := dl } .chan (.recv p.pc e ek a c addr join) ∧
          (x.mode = false → t.epAt g e = { x with st := .waitr, grant := none, hq := [] }))) ∧
      (∀ y rest, x.mode = true → x.slots = y :: rest → y.filled = true → x.hq = [] → x.closing = false → p.blk = .none → p.state = .running →
        ∃ t, exec i s = .next t ∧ (y.failed = true → t.Leaves g k (p.setReg c 3)) ∧
          (y.failed = false → got t (s.slotData g x 0).1 (s.slotData g x 0).2) ∧
          t.epAt g e = (if join then { Endp.zero with gen := x.gen + 1 } else { x with slots := rest, hs := (x.hs + 1) % x.size })) ∧
      (∀ h rest, x.mode = false → x.hq = h :: rest → h.failed = false → join = false →
        let y : Endp := { x with hq := rest, st := if rest.isEmpty then .empty else .pend }
        (h.carried = true → ∃ t, exec i s = .next t ∧ got t h.bytes h.tag ∧ t.epAt g e = y ∧
          ∀ r, h.from_ = .proc r → ∃ n, { src := .core g, dst := .core r.g, body := .done h n } ∈ t.net) ∧
        (h.carried = false → ∃ t, exec i s = .next t ∧ t.Blocks g k { p with deadline := dl } .chan (.recv p.pc e ek a c addr join) ∧
          t.epAt g e = { x with st := .xfer, grant := some h, hq := rest } ∧
          t.net = s.net ++ [{ src := .core g, dst := s.replyTo g h, body := .grant g e h addr false }])))

/-- 01 R45, R46, 08 R306: ALT completes with the number of its first enabled guard that has data (ALTF from its rotating start), 16 when its deadline has passed, 17 when no guard is enabled
and it has none; else it blocks with its guards marked. A guard that is closed, or not its process's own, traps first (08 R306). Reading the list is charged to its process (15 R481). -/
def Obligations.AlternativeResults : Prop :=
  ∀ (s : State) (g k : Nat) (p : Proc) (fair t : Bool) (a b c d : Reg) (n : BitVec 4), s.Runs g k p →
    p.awaits ([a, b, c] ++ if t then [d] else []) = false → p.acquiring = false →
    let i : Instr := if fair then .altf a t b c d n else .altp a t b c d n
    let count := n.toNat + 1
    let base := p.reg b
    let e (j : Nat) : Nat := ((s.lmRead g (p.phys base) count).getD j 0).toNat
    let on (j : Nat) : Prop := j < count ∧ (p.reg c).getLsbD j = true
    let ready (j : Nat) : Prop := on j ∧ (s.epAt g (e j)).ready = true
    let start := if fair then p.rot.toNat % count else 0
    let q : Proc := { p with blk := .none, deadline := Config.never, rot := if fair then BitVec.ofNat 4 ((start + 1) % count) else p.rot }
    let paid := s.lmCharge g p.dye count
    let gone (j : Nat) : Prop := (s.epAt g (e j)).st = .closed ∨ (s.epAt g (e j)).st = .forwarding
    (p.segLen < base.toNat + count → exec i s = .next (s.trap g k p .segment base)) ∧
    (base.toNat + count ≤ p.segLen → s.localHeld g (Span.ofLen (p.phys base) count) Span.none = false →
      ∀ j, on j → (∀ l < j, on l → ¬gone l ∧ (s.epAt g (e l)).owner = k) →
        (gone j → exec i s = .next (paid.trap g k p .closed 0)) ∧ (¬gone j → (s.epAt g (e j)).owner ≠ k → exec i s = .next (paid.trap g k p .rights 0))) ∧
    (base.toNat + count ≤ p.segLen → s.localHeld g (Span.ofLen (p.phys base) count) Span.none = false →
      (∀ j, on j → (s.epAt g (e j)).st ≠ .closed ∧ (s.epAt g (e j)).st ≠ .forwarding ∧ (s.epAt g (e j)).owner = k) →
      ∀ dl, ((∃ gs, p.blk = .alt p.pc gs) → dl = p.deadline) → ((∀ gs, p.blk ≠ .alt p.pc gs) → dl = if t then p.reg d else Config.never) →
        (∀ m < count, ready ((start + m) % count) → (∀ l < m, ¬ready ((start + l) % count)) →
          exec i s = .next (paid.retire g k (q.setReg a (BitVec.ofNat 64 ((start + m) % count))))) ∧
        ((∀ j, ¬ready j) → t = true → dl ≤ s.time → exec i s = .next (paid.retire g k (q.setReg a 16))) ∧
        ((∀ j, ¬on j) → t = false → exec i s = .next (paid.retire g k ({ q with rot := p.rot }.setReg a 17))) ∧
        ((∀ j, ¬ready j) → (∃ j, on j) → (t = true → s.time < dl) →
          ∃ u gs, exec i s = .next u ∧ (u.procAt g k).blk = .alt p.pc gs ∧ (u.procAt g k).pc = p.pc ∧ (∀ x, x ∈ gs ↔ ∃ j, on j ∧ x = e j) ∧
            (u.procAt g k).deadline = (if t then dl else Config.never) ∧
            ∀ j, on j → (u.epAt g (e j)).st = (if (s.epAt g (e j)).st = .empty then .guard else (s.epAt g (e j)).st)))

/-- 01 R30, R35-R39, 14 R442, R445: a header meets its endpoint (refused when it is closed, queued at a rendezvous, filling a slot of a buffered one); a grant moves the sender's
data; a header or message that found no room is sent again a microsecond later, a barrier's release then taken or caught at once (R453, 08 R293); the last byte makes the receiver ready and tells the sender; done, acceptance and closed reply end the sender's wait, the last with a trap to come. That a grant reads the whole source in one step is the model's choice (log
entry 73). Further choices: log entries 21, 22 and 59 (spill sizes, counting, a step that is not due). -/
def Obligations.ChannelSteps : Prop :=
  ∀ (s : State) (n g : Nat) (src : Node),
    let comes (b : Body) : Prop := s.net[n]? = some { src := src, dst := .core g, body := b } ∧ deliverable s.net n = true
    (∀ e h r, comes (.header e h) → s.spills g = false → h.from_ = .proc r → h.failed = false → h.third = false →
      let x := s.epAt g e
      ((x.st = .closed ∨ (x.st ≠ .forwarding ∧ x.gen ≠ h.gen)) → ∃ t, exec (.channelHeaderArrival n) s = .next t ∧
        t.net = s.net.eraseIdx n ++ [{ src := .core g, dst := .core r.g, body := .refuse h .closed }] ∧ { t with net := s.net, madder := s.madder } = s) ∧
      (x.st ≠ .closed → x.st ≠ .forwarding → x.gen = h.gen → x.acc.getLsbD h.part = false → ∃ t, exec (.channelHeaderArrival n) s = .next t ∧
        t.net = s.net.eraseIdx n ++ [{ src := .core g, dst := .core r.g, body := .refuse h .rights }] ∧ { t with net := s.net, madder := s.madder } = s) ∧
      (x.st = .empty → x.mode = false → x.gen = h.gen → x.acc.getLsbD h.part = true → x.hq = [] → (s.coreAt g).storeUse < 1024 →
        ∃ t m, exec (.channelHeaderArrival n) s = .next t ∧ t.epAt g e = { x with st := .pend, hq := [m] } ∧ m.hid = h.hid ∧ m.from_ = h.from_ ∧
          t.net = s.net.eraseIdx n) ∧
      (x.st = .buffered → x.mode = true → x.gen = h.gen → x.acc.getLsbD h.part = true → x.hq = [] → x.slots.length < x.size → x.closing = false →
        (s.procAt g x.owner).blk = .none →
        ∃ t f, exec (.channelHeaderArrival n) s = .next t ∧
          (t.epAt g e).slots = x.slots ++ [{ filled := true, failed := false, hid := h.hid }] ∧
          { src := .core g, dst := .core r.g, body := .accept { h with ek := x.ek } f } ∈ t.net ∧
          (x.exit = false →
            (t.coreAt g).lm = Mem.write (s.coreAt g).lm ((s.coreAt g).slotAt x x.slots.length) h.bytes))) ∧
    (∀ r e h due, comes (.returned r e h due) →
      (s.cycle < due → exec (.headerResend n) s = .next s) ∧
      (due ≤ s.cycle → ∃ t m, exec (.headerResend n) s = .next t ∧
        t.net = s.net.eraseIdx n ++ [{ src := .core g, dst := .core r, body := .header e { h with bytes := m } }] ∧ { t with net := s.net, madder := s.madder } = s)) ∧
    (∀ r b due, comes (.bounced r b due) →
      (s.cycle < due → exec (.headerResend n) s = .next s) ∧
      (∀ w sc phase p pc a, b = .release w sc phase → due ≤ s.cycle → s.spills r = false → s.find w = some p → p.blk = .barrier pc a sc → p.arrPhase = phase →
        p.state = .barrier → ∃ t, exec (.headerResend n) s = .next t ∧ t.net = s.net.eraseIdx n ∧ (t.procAt w.g w.slot).blk = .none ∧
          (t.procAt w.g w.slot).ap = false ∧ (t.procAt w.g w.slot).reg a = 0) ∧
      (∀ w sc phase, b = .release w sc phase → due ≤ s.cycle → s.spills r = true → s.spillRoom r ⟨.core g, .core r, b⟩ = true → ∃ t, exec (.headerResend n) s = .next t ∧
        t.spilled = s.spilled ++ [⟨.core g, .core r, b⟩] ∧ { t with net := s.net, madder := s.madder, spilled := s.spilled } = s) ∧
      ((∀ w sc phase, b ≠ .release w sc phase) → due ≤ s.cycle → ∃ t, exec (.headerResend n) s = .next t ∧
        t.net = s.net.eraseIdx n ++ [{ src := .core g, dst := .core r, body := b }] ∧ { t with net := s.net, madder := s.madder } = s)) ∧
    (∀ o e h addr slot r p pc a from_ len, comes (.grant o e h addr slot) → h.from_ = .proc r → s.find r = some p → s.farHdrs = [] →
      p.blk = .send pc h.hid 1 a from_ len → ∃ t, exec (.transferGrant n) s = .next t ∧
        t.net = s.net.eraseIdx n ++ [{ src := .core g, dst := .core o, body := .data e h (s.lmRead r.g (p.sb.toNat + from_) len) addr slot }]) ∧
    (∀ e h h' r bytes addr x p pc a c to_ join, comes (.data e h bytes addr false) → x = s.epAt g e → x.st = .xfer → x.grant = some h' → h'.hid = h.hid →
      h.from_ = .proc r → h.failed = false → x.closing = false → p = s.procAt g x.owner → p.blk = .recv pc e 1 a c to_ join →
      ∃ t f, exec (.transferDone n) s = .next t ∧ t.epAt g e = { x with grant := none, st := if x.hq.isEmpty then .empty else .pend } ∧
        (t.procAt g x.owner).blk = .none ∧ (t.procAt g x.owner).state = .ready ∧ (t.procAt g x.owner).reg c = 0 ∧
        (t.coreAt g).lm = Mem.write (s.coreAt g).lm (p.sb.toNat + addr) bytes ∧
        { src := .core g, dst := .core r.g, body := .done h f } ∈ t.net) ∧
    (∀ e h r bytes addr x i y, comes (.data e h bytes addr true) → x = s.epAt g e → x.st = .buffered → x.mode = true → x.hq = [] → x.closing = false →
      x.slots[i]? = some y → y.hid = h.hid → y.filled = false → (∀ j < i, ∀ z, x.slots[j]? = some z → z.hid ≠ h.hid) → h.from_ = .proc r → h.failed = false →
      (s.procAt g x.owner).blk = .none →
      ∃ t f, exec (.grantedDataArrival n) s = .next t ∧ (t.epAt g e).slots = x.slots.set i { y with filled := true } ∧
        { src := .core g, dst := .core r.g, body := .accept h f } ∈ t.net) ∧
    (∀ i h f r p pc ek a addr len, ((i = .doneMessage n ∧ comes (.done h f)) ∨ (i = .acceptance n ∧ comes (.accept h f))) → s.spills g = false →
      h.from_ = .proc r → s.find r = some p → p.blk = .send pc h.hid ek a addr len →
      ∃ t, exec i s = .next t ∧ (t.procAt r.g r.slot).blk = .none ∧ (t.procAt r.g r.slot).state = .ready ∧ t.net = s.net.eraseIdx n ∧
        (p.pkt = false → r.slot ∈ (t.coreAt r.g).rq p.pri)) ∧
    ∀ h cause r p pc ek a addr len, comes (.refuse h cause) → s.spills g = false → h.from_ = .proc r → s.find r = some p →
      p.blk = .send pc h.hid ek a addr len →
      ∃ t, exec (.closedReply n) s = .next t ∧ (t.procAt r.g r.slot).blk = .replyTrap pc cause ∧ (t.procAt r.g r.slot).pc = pc ∧
        (t.procAt r.g r.slot).state = .ready ∧ t.net = s.net.eraseIdx n

/-- 02 R103-R104, R120-R124, 03 R145, 07 R283-R286: a part of a third-party source is read at its home, on the chip, at the host or at a memory server, there in the read's mode and raising the requester's VSEEN; a fault there
faults the read. The data then goes to each member, a void delivery after a source-side fault; without a report the fault is deferred to
the requester, with one the report word goes to its endpoint once every member has answered. Model's choices: log entries 72 (the INFO of an X form's fault is the source operand too), 88 (VSEEN) and 59 (a step that is not due). -/
def Obligations.ThirdPartySteps : Prop :=
  ∀ (s : State) (k i u : Nat) (r : Tpr) (m : Member), (s.tprs.find? fun x => x.k == k) = some r →
    (r.fault = none → r.data = none → u < r.count → (∀ x ∈ r.parts, x.1 ≠ u) → (∀ x ∈ r.asked, x.2 ≠ u) → r.behind = [] → r.behindEq = [] → r.far = none →
      let a := (r.part_ u).1
      let n := (r.part_ u).2
      let w := (s.translate r.part (r.who.g / 16) r.dye a).2
      let becomes (z : Tpr) (v : Nat) : Prop := ∃ t, exec (.sourceRead k u .clean) s = .next t ∧ (t.tprs.find? fun x => x.k == k) = some z ∧
        ∀ p, s.find r.who = some p → t.procAt r.who.g r.who.slot = { p with vseen := BitVec.ofNat 64 (max p.vseen.toNat v) }
      s.walkWaits r.part (r.who.g / 16) a = false →
      (∀ c, (s.translate r.part (r.who.g / 16) r.dye a).1 = .error c → becomes (r.faulted c) 0) ∧
      ∀ l, (s.translate r.part (r.who.g / 16) r.dye a).1 = .ok l → l.isFar = false → w.mayAccept l r.part = true → s.sourceBlocked r l n = false →
        ((∀ v dpa, l ≠ .hbm v dpa) → (∀ x, l ≠ .host x) → becomes (if w.locBad l n then r.faulted .poison else r.gotPart u (w.locRead l n)) 0) ∧
        (∀ x, l = .host x → becomes (if w.hostRefused r.part then r.faulted .rights else r.gotPart u (w.locRead l n)) 0) ∧
        (∀ v dpa ts, l = .hbm v dpa → r.mode = .snapshot ts →
          (w.tss.revoked ts = true ∨ (w.lineAt (dpa / 128)).snapshot ts = none → becomes (r.faulted .revoked) 0) ∧
          ∀ x, w.tss.revoked ts = false → (w.lineAt (dpa / 128)).snapshot ts = some x →
            if x.poison then becomes (r.faulted .poison) 0 else becomes (r.gotPart u (Mem.read x.data (dpa % 128) n)) (w.serverAt v).v) ∧
        (∀ v dpa low, l = .hbm v dpa → r.mode = .current low → low ≤ (w.serverAt v).v →
          ((w.lineAt (dpa / 128)).prep ≠ none → exec (.sourceRead k u .clean) s = .next s) ∧
          let x := (w.lineAt (dpa / 128)).current (w.serverAt v).v
          ((w.lineAt (dpa / 128)).prep = none →
            if x.poison then becomes (r.faulted .poison) 0 else becomes (r.gotPart u (Mem.read x.data (dpa % 128) n)) (w.serverAt v).v))) ∧
    (r.members[i]? = some m → m.sent = false → hPkg m.handle = s.bring.pkgid.toNat → hExt m.handle = false →
      let posts (x : Instr) (void : Bool) : Prop := ∃ t d, exec x s = .next t ∧
        t.net = s.net ++ [{ src := .core r.who.g, dst := .core (hLoc m.handle), body := .header (hIdx m.handle) d }] ∧ d.from_ = .third r.k i ∧
        d.failed = void ∧ d.part = r.part ∧ d.len = r.len ∧ d.gen = hGen m.handle ∧
        d.bytes = if void = false ∧ (hEk m.handle = 0 ∨ hMode m.handle = true) then r.data.getD [] else []
      (r.fault = none → r.data.isSome = true → posts (.thirdPartyDelivery k i) false) ∧
      (r.fault.isSome = true → posts (.failedVoidDelivery k i) true)) ∧
    (∀ c p, r.report = none → r.reported = false → r.fault = some c → s.find r.who = some p →
      ∃ t, exec (.errorCompletion k) s = .next t ∧
        t.procAt r.who.g r.who.slot = { p with faults := p.faults ++ [{ seq := r.seq, cause := c, fpc := r.pc, info := r.src }] }) ∧
    ∀ f, r.report = some f → r.reported = false →
      (r.fault = none → (∃ x ∈ r.members, x.answered = false) → exec (.report k) s = .next s) ∧
      ((r.fault.isSome = true ∨ ∀ x ∈ r.members, x.answered = true) → ∃ t d, exec (.report k) s = .next t ∧
        t.net = s.net ++ [{ src := .core r.who.g, dst := .core r.who.g, body := .header f d }] ∧ d.from_ = .report k ∧ d.gen = r.rgen ∧
        d.bytes = wordBytes 8 r.reportWord ∧
        r.reportWord.toNat % 65536 = r.rseq.toNat ∧
        (r.reportWord.toNat / 2 ^ 60 = if r.fault.isSome then 2 else if ∃ x ∈ r.members, x.refused.isSome then 1 else 0))

/-! Processes, barriers and the scheduler (08 R307-R319, 01 R20-R25, R44, R47-R49, R58-R62). -/

/-- 08 R307-R312, R314: SPAWN checks priority, entry and segment, then makes its child ready in the lowest free slot with its argument in r0 and an exit endpoint, or writes -1; STOP waits for its
process's work, then posts r0 as the exit word and stops; YIELD and SETPRI let the core dispatch; TWAIT blocks until its deadline. Model's choices: log entry 24 (the lowest free slot). -/
def Obligations.ProcessResults : Prop :=
  ∀ (s : State) (g k : Nat) (p : Proc) (a b c : Reg) (pri : BitVec 2), s.Runs g k p → (s.coreAt g).holdsProc k = true →
    let ent := p.reg b
    let sd := (p.reg c).toNat
    let base := sd % 2 ^ 32
    let len := if sd = 0 then p.segLen else sd / 2 ^ 32
    let i : Instr := .spawn a b c pri
    (p.awaits [a, b, c] = false → p.acquiring = false →
      (pri < p.pceil → exec i s = .next (s.trap g k p .rights 0)) ∧
      (p.pceil ≤ pri → 2 ^ 52 ≤ ent.toNat → exec i s = .next (s.trap g k p .segment ent)) ∧
      (p.pceil ≤ pri → ent.toNat < 2 ^ 52 → sd ≠ 0 → (base % 64 ≠ 0 ∨ len % 64 ≠ 0 ∨ len = 0) →
        exec i s = .next (s.trap g k p .align (BitVec.ofNat 64 base))) ∧
      (p.pceil ≤ pri → ent.toNat < 2 ^ 52 → sd ≠ 0 → base % 64 = 0 → len % 64 = 0 → len ≠ 0 → p.segLen < base + len →
        exec i s = .next (s.trap g k p .segment (BitVec.ofNat 64 base))) ∧
      (p.pceil ≤ pri → ent.toNat < 2 ^ 52 → (sd ≠ 0 → base % 64 = 0 ∧ len % 64 = 0 ∧ len ≠ 0 ∧ base + len ≤ p.segLen) →
        ((∀ j < 64, (s.coreAt g).holdsProc j = true) → exec i s = .next (s.retire g k (p.setReg a (-1)))) ∧
        ∀ j < 64, ∀ x < 256, (s.coreAt g).holdsProc j = false → (∀ y < j, (s.coreAt g).holdsProc y = true) →
          (s.epAt g x).st = .closed → (∀ y < x, (s.epAt g y).st ≠ .closed) →
          ∃ t, exec i s = .next t ∧ t.Leaves g k (p.setReg a (BitVec.ofNat 64 x)) ∧
            (let q := t.procAt g j
             q.pc = (ent - BitVec.ofNat 64 base).setWidth 52 ∧ q.reg 0 = p.reg a ∧ (∀ r, r ≠ 0 → q.reg r = 0) ∧ q.pri = pri ∧ q.pceil = p.pceil ∧ q.dye = p.dye ∧
               q.vseen = p.vseen ∧ q.repl = p.repl ∧ q.xv = true ∧ q.xidx.toNat = x ∧ q.sb = BitVec.ofNat 19 (p.sb.toNat + base) ∧
               q.sl = BitVec.ofNat 19 (p.sb.toNat + base + len) ∧ q.stw = p.stw ∧ q.mode = p.stw ∧ q.lid = p.lid ∧ q.state = .ready ∧
               j ∈ (t.coreAt g).rq pri) ∧
            (let y := t.epAt g x
             y.st = .buffered ∧ y.exit = true ∧ y.owner = k ∧ y.ek = 0 ∧ y.esz = 7 ∧ y.mode = true ∧ y.depth = 0 ∧ y.gen = (s.epAt g x).gen ∧
               y.child = some j ∧ y.hq = [] ∧ y.slots = []))) ∧
    (let stays : Prop := (s.coreAt g).vheld < p.vseen.toNat ∨ p.outs ≠ [] ∨ (∃ x ∈ p.stores, x.kind = .direct ∨ x.kind = .reduction) ∨
       s.engineBusy (s.pref g k) = true ∨ ∃ e ∈ (s.coreAt g).owned k, (s.epAt g e).busy = true
     (stays → exec .stop s = .next s) ∧
     (¬stays → p.blk = .none → p.state = .running → (∀ q, k ∉ (s.coreAt g).rq q) → p.xv = true → (s.epAt g p.xidx.toNat).exit = true →
       (s.epAt g p.xidx.toNat).child = some k → p.xidx.toNat ∉ (s.coreAt g).owned k →
       ∃ t h, exec .stop s = .next t ∧ (t.procAt g k).state = .stopped ∧ (t.coreAt g).run ≠ some k ∧
         { src := .core g, dst := .core g, body := .header p.xidx.toNat h } ∈ t.net ∧ h.bytes = wordBytes 8 (p.reg 0) ∧ h.failed = false ∧
         h.from_ = .exit (s.pref g k))) ∧
    (∀ j rest, j ≠ k → (s.coreAt g).rq p.pri = j :: rest → j ∉ rest → (s.procAt g j).pkh = false → (∀ q, q < p.pri → (s.coreAt g).rq q = []) →
      ∃ t, exec .yield s = .next t ∧ (t.coreAt g).run = some j ∧ (t.procAt g j).state = .running ∧ (t.coreAt g).rq p.pri = rest ++ [k] ∧
        (t.procAt g k).state = .ready ∧ ∀ r, (t.procAt g k).reg r = p.reg r) ∧
    ((∀ q, (s.coreAt g).rq q = []) → p.pkh = false → ∃ t, exec .yield s = .next t ∧ (t.coreAt g).run = some k ∧ (t.procAt g k).state = .running) ∧
    (p.awaits [a] = false →
      let v := p.reg a
      let q : Proc := { p with pri := v.setWidth 2 }
      (3 < v.toNat → exec (.setpri a) s = .next (s.trap g k p .bounds 0)) ∧
      (v.toNat ≤ 3 → v.setWidth 2 < p.pceil → exec (.setpri a) s = .next (s.trap g k p .rights 0)) ∧
      (v.toNat ≤ 3 → p.pceil ≤ v.setWidth 2 → (∀ x : BitVec 2, x < v.setWidth 2 → ∀ j ∈ (s.coreAt g).rq x, (s.procAt g j).pkh = true) →
        exec (.setpri a) s = .next (s.retire g k q)) ∧
      (∀ x j, v.toNat ≤ 3 → p.pceil ≤ v.setWidth 2 → x < v.setWidth 2 → j ∈ (s.coreAt g).rq x → (s.procAt g j).pkh = false → j ≠ k → p.pkh = false →
        (∀ y, k ∉ (s.coreAt g).rq y) →
        ∃ t, exec (.setpri a) s = .next t ∧ (t.procAt g k).pri = v.setWidth 2 ∧ (t.procAt g k).state = .ready ∧ (t.coreAt g).run ≠ some k ∧
          k ∈ (t.coreAt g).rq (v.setWidth 2)) ∧
      (v ≤ s.time → exec (.twait a) s = .next (s.retire g k p)) ∧
      (s.time < v → ∃ t, exec (.twait a) s = .next t ∧ t.Blocks g k { p with deadline := v } .timer (.timer p.pc)))

/-- 01 R59-R62, 08 R316, R317: BARA announces its process's arrival once; BARW waits for the release of that phase and answers 0, 1 at its deadline, 4 with no arrival; BARX does both; an arrival
reaches its network, and when every member has arrived the release begins the next phase and ends the wait of every member that waits, where a hold's spill ring does not catch it, or
return it to be sent again (08 R293, 01 R71, 14 R453). -/
def Obligations.BarrierResults : Prop :=
  ∀ (s : State) (g k : Nat) (p : Proc) (a b : Reg) (t : Bool) (sc : BitVec 3), s.Runs g k p →
    let dl := if t then p.reg b else Config.never
    let wait (i : Instr) : Prop :=
      (p.aps ≠ sc → exec i s = .next (s.retire g k (p.setReg a 4))) ∧
      (p.aps = sc → s.barReleased g k p = true → exec i s = .next (s.retire g k ({ p with ap := false }.setReg a 0))) ∧
      (p.aps = sc → s.barReleased g k p = false → dl ≤ s.time → exec i s = .next (s.retire g k (p.setReg a 1))) ∧
      (p.aps = sc → s.barReleased g k p = false → s.time < dl →
        ∃ u, exec i s = .next u ∧ u.Blocks g k { p with deadline := dl } .barrier (.barrier p.pc a sc.toNat))
    let arrives (q : Proc) : Prop := q = { p with ap := true, aps := sc, arrPhase := q.arrPhase } ∧
      ∀ x, s.barrierOf (s.pref g k) p.launch sc.toNat = some x → q.arrPhase = x.phase
    let joins (u : State) : Prop := ∀ l x, (s.launches.find? fun z => z.ref == p.launch) = some l → x ∈ l.bars → x.sc = sc.toNat → s.pref g k ∈ x.members →
      ∃ m, (u.launches.find? fun z => z.ref == p.launch) = some m ∧ { x with pending := x.pending ++ [s.pref g k] } ∈ m.bars
    (p.acquiring = false →
      (p.bars.getLsbD sc.toNat = false → exec (.bara sc) s = .next (s.trap g k p .rights 0)) ∧
      (p.bars.getLsbD sc.toNat = true →
        (p.ap = true → exec (.bara sc) s = .next (s.retire g k p)) ∧
        (p.ap = false → (s.coreAt g).vheld < p.vseen.toNat → exec (.bara sc) s = .next s) ∧
        (p.ap = false → p.vseen.toNat ≤ (s.coreAt g).vheld →
          ∃ u q, exec (.bara sc) s = .next u ∧ arrives q ∧ u.Leaves g k q ∧ joins u))) ∧
    (p.acquiring = false → p.awaits (if t then [a, b] else [a]) = false →
      (p.bars.getLsbD sc.toNat = false → exec (.barw a t b sc) s = .next (s.trap g k p .rights 0) ∧ exec (.barx a t b sc) s = .next (s.trap g k p .rights 0)) ∧
      (p.bars.getLsbD sc.toNat = true →
        (p.ap = false → exec (.barw a t b sc) s = .next (s.retire g k (p.setReg a 4))) ∧
        (p.ap = true → wait (.barw a t b sc) ∧ wait (.barx a t b sc)) ∧
        (p.ap = false → p.vseen.toNat ≤ (s.coreAt g).vheld → s.time < dl →
          ∃ u q, exec (.barx a t b sc) s = .next u ∧ arrives q ∧ u.Blocks g k { q with deadline := dl } .barrier (.barrier p.pc a sc.toNat) ∧ joins u))) ∧
    (∀ l x, (s.launches.find? fun z => z.ref == p.launch) = some l → x ∈ l.bars → s.pref g k ∈ x.pending →
      ∃ u m, exec (.barrierArrival g k) s = .next u ∧ (u.launches.find? fun z => z.ref == p.launch) = some m ∧
        { x with pending := x.pending.filter (· != s.pref g k), arrived := x.arrived ++ [s.pref g k] } ∈ m.bars) ∧
    ∀ l x part lid c unit, (s.launches.find? fun z => z.ref == ({ fn := part, lid := lid } : LRef)) = some l →
      (l.bars.find? fun z => z.sc == c && z.unit == unit) = some x → x.members ≠ [] →
      (∀ m ∈ x.members, m ∈ x.arrived) →
      ∃ u m, exec (.barrierRelease part lid c unit) s = .next u ∧ (u.launches.find? fun z => z.ref == ({ fn := part, lid := lid } : LRef)) = some m ∧
        { x with phase := x.phase + 1, arrived := [] } ∈ m.bars ∧
        (∀ r ∈ x.members, s.spills r.g = true →
          { src := .core r.g, dst := .core r.g, body := .release r c x.phase } ∈ u.spilled ∨
            { src := .core r.g, dst := .core r.g, body := .bounced r.g (.release r c x.phase) (s.cycle + microsecond) } ∈ u.net) ∧
        (∀ r, x.members = [r] → s.spills r.g = true →
          let release : Msg := { src := .core r.g, dst := .core r.g, body := .release r c x.phase }
          s.spillRoom r.g release = true → u.spilled = s.spilled ++ [release] ∧ u.cores = s.cores) ∧
        ∀ r ∈ x.members, ∀ q pc d, s.spills r.g = false → s.find r = some q → q.blk = .barrier pc d c → q.arrPhase = x.phase → q.state = .barrier →
          (u.procAt r.g r.slot).blk = .none ∧ (u.procAt r.g r.slot).ap = false ∧ (u.procAt r.g r.slot).reg d = 0 ∧ (u.procAt r.g r.slot).state = .ready

/-- 01 R21, R44, R48, 05 R194, 07 R251: after 4,096 cycles the running process goes to the tail of its queue; a ready process of priority 0 puts it at the head of its queue; a passed deadline ends a wait;
a prefetched line is ready three cycles on; the oldest deferred fault traps at its boundary, what its process waited for withdrawn. At one boundary a trap comes before a pre-emption, a pre-emption
before the end of the slice (01 R23). A deadline is compared for every process of the core, whatever runs there. A step that is not due changes nothing: the model's choice, log entry 59. -/
def Obligations.SchedulerSteps : Prop :=
  (∀ (s : State) (g : Nat),
    let c := s.coreAt g
    (c.procs.map (·.1)).Pairwise (· < ·) →
    ((∀ x ∈ c.procs, s.time < x.2.deadline ∨ x.2.deadline = Config.never ∨ x.2.pkh = true ∨ x.2.pkt = true) → exec (.deadlineComparison g) s = .next s) ∧
    ∃ t, exec (.deadlineComparison g) s = .next t ∧ (t.coreAt g).run = c.run ∧ ∀ j q, (j, q) ∈ c.procs →
      (s.time < q.deadline → ∃ n, t.procAt g j = { q with nextSlot := n }) ∧
      (q.deadline ≤ s.time → q.deadline ≠ Config.never → q.pkh = false → q.pkt = false →
        (∀ pc, q.state = .timer → q.blk = .timer pc → (t.procAt g j).state = .ready ∧ (t.procAt g j).blk = .none ∧ j ∈ (t.coreAt g).rq q.pri) ∧
        (∀ pc e ek a d addr join, q.state = .chan → q.blk = .recv pc e ek a d addr join →
          ((s.epAt g e).grant.isSome = true → ∃ n, t.procAt g j = { q with nextSlot := n }) ∧
          ((s.epAt g e).grant = none → (t.procAt g j).state = .ready ∧ (t.procAt g j).reg d = 1 ∧ (t.procAt g j).blk = .none ∧ j ∈ (t.coreAt g).rq q.pri ∧
            ((s.epAt g e).st = .waitr → (t.epAt g e).st = .empty))) ∧
        (∀ pc gs, q.state = .chan → q.blk = .alt pc gs → (t.procAt g j).state = .ready ∧ (t.procAt g j).blk = .alt pc gs ∧ j ∈ (t.coreAt g).rq q.pri ∧
          ∀ e ∈ gs, (s.epAt g e).st = .guard → (t.epAt g e).st = .empty) ∧
        ∀ pc a n, q.state = .barrier → q.blk = .barrier pc a n →
          (t.procAt g j).state = .ready ∧ (t.procAt g j).reg a = 1 ∧ (t.procAt g j).blk = .none ∧ j ∈ (t.coreAt g).rq q.pri)) ∧
  ∀ (s : State) (g k : Nat) (p : Proc), (s.coreAt g).run = some k → s.procAt g k = p →
    let c := s.coreAt g
    (c.sliceCnt < 4096 → exec (.sliceEnd g) s = .next s) ∧
    (s.actedOn g = true → exec (.sliceEnd g) s = .next s ∧ exec (.priority0Preemption g) s = .next s) ∧
    (∀ j ∈ c.rq0, p.pri ≠ 0 → (s.procAt g j).pkh = false → exec (.sliceEnd g) s = .next s) ∧
    (4096 ≤ c.sliceCnt → s.actedOn g = false → (p.pri = 0 ∨ ∀ j ∈ c.rq0, (s.procAt g j).pkh = true) → (∀ q, k ∉ c.rq q) → (∃ q j, q ≤ p.pri ∧ j ∈ c.rq q ∧ (s.procAt g j).pkh = false) →
      ∃ t j, exec (.sliceEnd g) s = .next t ∧ j ≠ k ∧ (t.coreAt g).run = some j ∧ (t.coreAt g).rq p.pri = (c.rq p.pri).filter (· != j) ++ [k] ∧
        (t.procAt g k).state = .ready ∧ (t.procAt g k).pc = p.pc) ∧
    ((p.pri = 0 ∨ ∀ j ∈ c.rq0, (s.procAt g j).pkh = true) → exec (.priority0Preemption g) s = .next s) ∧
    (∀ j rest, s.actedOn g = false → p.pri ≠ 0 → c.rq0 = j :: rest → (s.procAt g j).pkh = false → j ≠ k → (∀ q, k ∉ c.rq q) → j ∉ c.rq p.pri →
      ∃ t, exec (.priority0Preemption g) s = .next t ∧ (t.coreAt g).run = some j ∧ (t.coreAt g).rq p.pri = k :: c.rq p.pri ∧ (t.procAt g k).state = .ready ∧
        (t.procAt g k).slice = c.sliceCnt ∧ (t.procAt g j).state = .running) ∧
    (∀ la due, c.fb.prefetch = some (la, due) →
      (s.cycle < due → exec (.linePrefetch g) s = .next s) ∧
      (due ≤ s.cycle → ∃ t, exec (.linePrefetch g) s = .next t ∧ (t.coreAt g).fb.other = some (la, s.lmRead g (p.sb.toNat + la) 64) ∧
        (t.coreAt g).fb.prefetch = none ∧ { t.coreAt g with fb := c.fb } = c)) ∧
    (p.faults = [] → exec (.deferredFaultTrap g) s = .next s) ∧
    (p.committed = true → exec (.deferredFaultTrap g) s = .next s) ∧
    ∀ f, f ∈ p.faults → (∀ x ∈ p.faults, x ≠ f → f.seq < x.seq) → p.committed = false → (∀ pc cause, p.blk ≠ .replyTrap pc cause) →
      exec (.deferredFaultTrap g) s = .next ((s.cancelWait p).deliver g k { p with faults := p.faults.filter fun x => x.seq != f.seq }
        { cause := f.cause, rpc := p.pc, fpc := f.fpc, info := f.info, code := 0, deferred := true, entry := false })

/-! Vector instructions (09 R321-R353, 04 R159, R160). -/

/-- 09 R322, R328, R329, R333, R335, R349: VSETL sets VL and the types; VFLG reads, clears or writes the flags; a vector instruction waits for its registers, traps by the checks of R328 without effect,
and else completes: its flags joined, its incremented pointer past its elements, nothing but LM, its process and the meters changed; one element group leaves its place in VRC and its scoreboard entry (10 R373), unless an event acts on its process at this boundary (R333). A group that reads a word with a double-bit error leaves a deferred POISON and writes nothing (17 R516). The vector instructions of vecOf, to each of which the completion applies (gather and scatter: VectorMoveResults), are vadd, vsub, vmul, vdiv, vfma, vmin, vmax, vabs, vneg, vcmp, vsel, vand, vor, vxor, vnot, vshl, vshr, vsar,
vcvt, vexp2, vlog2, vrcp, vrsq, vtanh, vsqrt, vred, vscan, vbcast, vperm, vgather, vscatter, vrand, vmov, vsadd, vssub, vmulh.
The model's choice: the INFO of the ALIGN and SEGMENT checks and of that POISON (log entry 72), the extents of MX streams (75), the entry kept at a group boundary (81), no-op events (59). -/
def Obligations.VectorCompletion : Prop :=
  ∀ (s : State) (g k : Nat) (p : Proc) (a b : Reg) (ty : BitVec 8), s.Runs g k p →
    (p.awaits [a, b] = false → let n := min (p.reg b).toNat 65536
      exec (.vsetl a b ty) s = .next (s.retire g k ({ p with vl := BitVec.ofNat 17 n, vty := ty }.setReg a (BitVec.ofNat 64 n)))) ∧
    (p.awaits [a] = true ∨ s.tilePending (s.pref g k) = true ∨ (∃ x ∈ p.outs, x.flags = true) → ∀ m, exec (.vflg a m) s = .next s) ∧
    (p.awaits [a] = false → s.tilePending (s.pref g k) = false → (∀ x ∈ p.outs, x.flags = false) →
      exec (.vflg a 0) s = .next (s.retire g k (p.setReg a (p.flags.setWidth 64))) ∧
      exec (.vflg a 1) s = .next (s.retire g k ({ p with flags := 0 }.setReg a (p.flags.setWidth 64))) ∧
      exec (.vflg a 2) s = .next (s.retire g k { p with flags := (p.reg a).setWidth 5 })) ∧
    ∀ i c o, vecOf i = some (c, o) →
      let v : Vec := { c := c, o := o, g := g, p := p, id := s.nextId, elem := none }
      (p.awaits v.names = true ∨ p.acquiring = true → exec i s = .next s) ∧
      (p.awaits v.names = false → p.acquiring = false →
        (c ∈ [.shl, .shr, .sar, .sadd, .ssub, .mulh] → 8 ≤ v.et → exec i s = .next (s.trap g k p .illegal 0)) ∧
        (c ∈ [.exp2, .log2, .rcp, .rsq, .tanh, .sqrt] → v.et < 8 ∨ 12 < v.et → exec i s = .next (s.trap g k p .illegal 0)) ∧
        (c ≠ .cvt → 12 < v.et → exec i s = .next (s.trap g k p .illegal 0)) ∧
        (∀ l x r, v.accepts = true → 0 < v.n → v.streams = l ++ x :: r → (∀ y ∈ l, y.aligned = true) → x.aligned = false →
          exec i s = .next (s.trap g k p .align x.p)) ∧
        (∀ l x r, v.accepts = true → 0 < v.n → v.streams = l ++ x :: r → (∀ y ∈ v.streams, y.aligned = true) → (∀ y ∈ l, y.inside v.n p.segLen = true) →
          x.inside v.n p.segLen = false → exec i s = .next (s.trap g k p .segment x.p)) ∧
        (∀ x, v.check = none → s.LmFree g → s.upsets = [] → p.vrpc ≠ p.pc → v.total = 1 → v.poisoned s (v.run s 0) = some x →
          ∃ t, exec i s = .next t ∧
            t.Leaves g k (v.finish { p with faults := p.faults ++ [{ seq := p.seq, cause := .poison, fpc := p.pc, info := x }], seq := p.seq + 1 }) ∧
            { t with cores := s.cores, madder := s.madder } = s ∧ ∀ j, Mem.byte (t.coreAt g).lm j = Mem.byte (s.coreAt g).lm j) ∧
        (v.check = none → s.LmFree g → (s.coreAt g).lmBad = [] → s.upsets = [] → p.vrpc ≠ p.pc → c ≠ .gather → c ≠ .scatter →
          (∃ t f, exec i s = .next t ∧ t.Leaves g k (v.finish { p with flags := p.flags ||| f }) ∧ (∀ j, j ≠ k → t.procAt g j = s.procAt g j) ∧
            (∀ h, h ≠ g → t.coreAt h = s.coreAt h) ∧ { t with cores := s.cores, madder := s.madder } = s ∧
            (let x := t.coreAt g
             let y := s.coreAt g
             { x with procs := y.procs, fb := y.fb, lm := y.lm, lmTags := y.lmTags, lmDirty := y.lmDirty } = y) ∧
            (o.inc = 0 → t.Leaves g k { p with flags := p.flags ||| f }) ∧
            (o.inc = 4 → o.str = 0 → c ∈ [.add, .sub, .mul, .min, .max, .and, .or, .xor, .not, .mov, .abs, .neg, .sel] →
              t.Leaves g k ({ p with flags := p.flags ||| f }.setReg o.a (p.reg o.a + BitVec.ofNat 64 (v.n * v.size))))) ∧
          ((s.coreAt g).fb.entered = true → s.fetch g p = .ok i → 1 < v.total → s.actedOn g = false → (s.coreAt g).sliceCnt < 4096 →
            (p.pri = 0 ∨ ∀ j ∈ (s.coreAt g).rq0, (s.procAt g j).pkh = true) →
            ∃ t f, exec (.elementGroup g) s = .next t ∧
              t.procAt g k = { p with flags := p.flags ||| f, vrc := 1, vrpc := p.pc, wait := .vec p.pc s.nextId v.readSpan v.writeSpan (v.kept s).elem }) ∧
          ((s.actedOn g = true ∨ 4096 ≤ (s.coreAt g).sliceCnt) → exec (.elementGroup g) s = .next s)))

/-- 09 R325, R329-R331, R336-R342, R352 with 04 R159, R160, R168, R175-R178: an elementwise vector instruction, and VCVT between types that are not MX, writes at each place of stream a the result element
that the table gives from the elements (or the scalar) as they were before, on integer and on float types, at any VL, increment and stride, where no two places of a overlap and no group writes what
another group reads; its flags are those of all its elements, and no other byte of LM changes. The exact value of an approximated function and its free choice within the bound stand in `Fun.apply`
(log entry 10, the model's choice). -/
def Obligations.VectorResults : Prop :=
  ∀ (s : State) (g k : Nat) (p : Proc) (i : Instr) (c : VCode) (o : VOps), s.Runs g k p → s.memOk = true → vecOf i = some (c, o) →
    c ∈ [.add, .sub, .mul, .div, .fma, .min, .max, .abs, .neg, .cmp, .sel, .and, .or, .xor, .not, .shl, .shr, .sar, .mov, .sadd, .ssub, .mulh,
      .exp2, .log2, .rcp, .rsq, .tanh, .sqrt, .cvt] →
    let v : Vec := { c := c, o := o, g := g, p := p, id := s.nextId, elem := none }
    v.mx = false → v.check = none → p.awaits v.names = false → p.acquiring = false → p.vrpc ≠ p.pc → s.LmFree g → (s.coreAt g).lmBad = [] → s.upsets = [] →
    ∀ ty dty : Ty, Ty.ofCode (p.vty.toNat % 16) = some ty → Ty.ofCode (if c = .cvt then p.vty.toNat / 16 else p.vty.toNat % 16) = some dty →
    let n := p.vl.toNat
    let size := ty.bits / 8
    let dsize := dty.bits / 8
    let group := 64 / max size dsize
    let m := 2 ^ ty.bits
    let mode := o.rnd.toNat
    let place (r : Reg) (bit w j : Nat) : Nat :=
      ((p.sb.toNat : Int) + (p.reg r).toNat + (if o.str.getLsbD bit then (p.reg o.e).toInt else (w : Int)) * j).toNat
    let el (u : State) (q w : Nat) : Nat := bytesNat (u.lmRead g q w)
    let dst (j : Nat) : Nat := place o.a 2 dsize j
    let x (j : Nat) : Nat := el s (place o.b 1 size j) size
    let y (j : Nat) : Nat := if o.scalar then (p.reg o.c).toNat % m else el s (place o.c 0 size j) size
    let z (j : Nat) : Nat := el s (dst j) size
    let apart (q w q' w' : Nat) : Prop := q + w ≤ q' ∨ q' + w' ≤ q
    (∀ j < n, ∀ l < n, j ≠ l → apart (dst j) dsize (dst l) dsize) →
    (∀ j < n, ∀ l < n, j / group ≠ l / group →
      apart (dst j) dsize (place o.b 1 size l) size ∧ (o.scalar = false → c ∉ [.cvt, .abs, .neg, .not, .mov, .exp2, .log2, .rcp, .rsq, .tanh, .sqrt] →
        apart (dst j) dsize (place o.c 0 size l) size)) →
    let random (j : Nat) : Nat := if o.rnd = 4 then gen (p.reg o.e) (p.reg (oddOf o.e) + BitVec.ofNat 64 j) else 0
    let holds (a b : Int) : Bool :=
      match o.x10.toNat % 8 with
      | 0 => decide (a = b)
      | 1 => decide (a ≠ b)
      | 2 => decide (a < b)
      | 3 => decide (b ≤ a)
      | 4 => decide (a ≤ b)
      | _ => decide (b < a)
    let integer (b : Nat) (sg : Bool) (x y z : Nat) : Nat :=
      let val (x : Nat) : Int := if sg ∧ m ≤ 2 * x then (x : Int) - m else x
      let low (x : Int) : Nat := (x % m).toNat
      let least : Int := if sg then -(m / 2 : Nat) else 0
      let most : Int := if sg then (m / 2 : Nat) - 1 else (m : Int) - 1
      let clamp (x : Int) : Int := if x < least then least else if most < x then most else x
      match c with
      | .add => (x + y) % m
      | .sub => low ((x : Int) - y)
      | .mul => x * y % m
      | .div => if y = 0 then m - 1 else low ((val x).tdiv (val y))
      | .fma => (x * y + z) % m
      | .min => if val x ≤ val y then x else y
      | .max => if val x ≤ val y then y else x
      | .abs => (val x).natAbs % m
      | .neg => low (-(x : Int))
      | .cmp => if holds (val x) (val y) = true then m - 1 else 0
      | .shl => x * 2 ^ (y % b) % m
      | .shr => x / 2 ^ (y % b)
      | .sar => low ((if m ≤ 2 * x then (x : Int) - m else x) / 2 ^ (y % b))
      | .sadd => low (clamp (val x + val y))
      | .ssub => low (clamp (val x - val y))
      | _ => low (val x * val y / m)
    let float (f : Fmt) (r : Nat) (x y z : Nat) : Nat × BitVec 5 :=
      let vx := f.value x
      let vy := f.value y
      let nans : Bool := vx.isNan || vy.isNan
      let nv : BitVec 5 := if vx.isSnan || vy.isSnan then fNV else 0
      let rounded (e : FV × BitVec 5) : Nat × BitVec 5 := ((f.round mode false r e.1).1, (f.round mode false r e.1).2 ||| e.2)
      match c with
      | .add => rounded (FV.add mode vx vy)
      | .sub => rounded (FV.add mode vx vy.neg)
      | .mul => rounded (FV.mul vx vy)
      | .div => f.roundAny mode r (FV.div vx vy)
      | .fma => rounded ((FV.add mode (FV.mul vx vy).1 (f.value z)).1, (FV.mul vx vy).2 ||| (FV.add mode (FV.mul vx vy).1 (f.value z)).2)
      | .min => if nans then (f.nan, nv) else (if f.rank x ≤ f.rank y then x else y, 0)
      | .max => if nans then (f.nan, nv) else (if f.rank x ≤ f.rank y then y else x, 0)
      | .abs => if vx.isNan then (f.nan, if vx.isSnan then fNV else 0) else (x % (m / 2), 0)
      | .neg => if vx.isNan then (f.nan, if vx.isSnan then fNV else 0) else ((x + m / 2) % m, 0)
      | .cmp =>
        if nans then (if o.x10.toNat % 8 = 1 ∨ o.x10.toNat % 8 = 6 then m - 1 else 0, nv)
        else (if o.x10.toNat % 8 = 7 ∨ (o.x10.toNat % 8 < 6 ∧ holds (f.order x) (f.order y) = true) then m - 1 else 0, 0)
      | .exp2 => Fun.exp2.apply f mode r x
      | .log2 => Fun.log2.apply f mode r x
      | .rcp => Fun.rcp.apply f mode r x
      | .rsq => Fun.rsq.apply f mode r x
      | .tanh => Fun.tanh.apply f mode r x
      | _ => Fun.sqrt.apply f mode r x
    let want (j : Nat) : Nat × BitVec 5 :=
      match c with
      | .sel => (if z j ≠ 0 then x j else y j, 0)
      | .and => (x j &&& y j, 0)
      | .or => (x j ||| y j, 0)
      | .xor => (x j ^^^ y j, 0)
      | .not => (m - 1 - x j, 0)
      | .mov => (x j, 0)
      | .cvt => convert ty dty mode o.sat (random j) (x j)
      | _ =>
        match ty with
        | .int b sg => (integer b sg (x j) (y j) (z j), 0)
        | .flt f => float f (random j) (x j) (y j) (z j)
    ∃ t, exec i s = .next t ∧ t.Leaves g k (v.finish { p with flags := (List.range n).foldl (fun f j => f ||| (want j).2) p.flags }) ∧
      (∀ j < n, el t (dst j) dsize = (want j).1) ∧
      ∀ q, (∀ j < n, q < dst j ∨ dst j + dsize ≤ q) → Mem.byte (t.coreAt g).lm q = Mem.byte (s.coreAt g).lm q

/-- 09 R342-R348, R350 with 04 R165-R167, R175, R181, R182: at any VL, increment and stride, where no two places written overlap and no group writes what another group reads, VRED leaves at the head of stream a
the value of the tree over all elements, or the identity; VSCAN its running values; VBCAST the scalar or the element; VPERM the permuted elements; VRAND the generator's; VGATHER and VSCATTER move the
elements their indices name, the highest index last, and VCVT to and from MX converts block by block. The first index outside the segment, in index order, traps SEGMENT at its group, before which earlier
groups stand; that its address is the INFO is the model's choice (log entry 57), and the room of an MX stream too (75). -/
def Obligations.VectorMoveResults : Prop :=
  ∀ (s : State) (g k : Nat) (p : Proc) (o : VOps) (ty : Ty), s.Runs g k p → s.memOk = true → p.acquiring = false → p.vrpc ≠ p.pc → s.LmFree g → (s.coreAt g).lmBad = [] →
    s.upsets = [] →
    let vec (c : VCode) : Vec := { c := c, o := o, g := g, p := p, id := s.nextId, elem := none }
    let ready (c : VCode) : Prop := (vec c).check = none ∧ p.awaits (vec c).names = false
    let n := p.vl.toNat
    let mode := o.rnd.toNat
    let place (r : Reg) (bit w j : Nat) : Nat :=
      ((p.sb.toNat : Int) + (p.reg r).toNat + (if o.str.getLsbD bit then (p.reg o.e).toInt else (w : Int)) * j).toNat
    let el (u : State) (q w : Nat) : Nat := bytesNat (u.lmRead g q w)
    let apart (q w q' w' : Nat) : Prop := q + w ≤ q' ∨ q' + w' ≤ q
    let random (j : Nat) : Nat := if o.rnd = 4 then gen (p.reg o.e) (p.reg (oddOf o.e) + BitVec.ofNat 64 j) else 0
    let only (t : State) (q : Nat → Prop) : Prop := ∀ j, ¬q j → Mem.byte (t.coreAt g).lm j = Mem.byte (s.coreAt g).lm j
    let all (m : Nat) (fl : Nat → BitVec 5) : BitVec 5 := (List.range m).foldl (fun f j => f ||| fl j) p.flags
    (Ty.ofCode (p.vty.toNat % 16) = some ty →
      let size := ty.bits / 8
      let m := 2 ^ ty.bits
      let group := 64 / size
      let dst (j : Nat) : Nat := place o.a 2 size j
      let src (j : Nat) : Nat := place o.b 1 size j
      let x (j : Nat) : Nat := el s (src j) size
      let spread : Prop := ∀ j < n, ∀ l < n, j ≠ l → apart (dst j) size (dst l) size
      let clear (gr : Nat) (from_ : Nat → Nat) (w : Nat) : Prop := ∀ j < n, ∀ l < n, j / gr ≠ l / gr → apart (dst j) size (from_ l) w
      let writes (i : Instr) (c : VCode) (fl : Nat → BitVec 5) (want : State → Nat → Nat) : Prop :=
        ∃ t, exec i s = .next t ∧ t.Leaves g k ((vec c).finish { p with flags := all n fl }) ∧ (∀ j < n, el t (dst j) size = want t j) ∧
          only t fun q => ∃ j < n, dst j ≤ q ∧ q < dst j + size
      let op (x y : Nat) : Nat × BitVec 5 :=
        match o.x10.toNat % 8, ty with
        | 0, .int b _ => ((x + y) % 2 ^ b, 0)
        | 0, .flt f => let r := FV.add mode (f.value x) (f.value y); ((f.round mode false 0 r.1).1, (f.round mode false 0 r.1).2 ||| r.2)
        | 1, .int b sg => (if intVal b sg x ≤ intVal b sg y then x else y, 0)
        | 2, .int b sg => (if intVal b sg y ≤ intVal b sg x then x else y, 0)
        | 1, .flt f => f.pick true x y
        | 2, .flt f => f.pick false x y
        | 3, _ => (x &&& y, 0)
        | 4, _ => (x ||| y, 0)
        | _, _ => (x ^^^ y, 0)
      let identity : Nat :=
        match o.x10.toNat % 8, ty with
        | 1, .int b sg => if sg then 2 ^ (b - 1) - 1 else 2 ^ b - 1
        | 2, .int b sg => if sg then 2 ^ (b - 1) else 0
        | 1, .flt f => if f.infs then f.inf false else f.maxBits
        | 2, .flt f => if f.infs then f.inf true else f.sign true + f.maxBits
        | 3, _ => 2 ^ ty.bits - 1
        | _, _ => 0
      (ready .red → o.x10.toNat % 8 < 6 → o.str.getLsbD 2 = false →
        let len := max 1 ((n + group - 1) / group)
        (n ≤ group ∨ ∀ j < len, ∀ l < n, apart (dst j) size (src l) size) →
        let r := tree op 20 ((List.range n).map x)
        ∃ t, exec (.vred o) s = .next t ∧ t.Leaves g k ((vec .red).finish { p with flags := p.flags ||| (if n = 0 then 0 else r.2) }) ∧
          el t (dst 0) size = (if n = 0 then identity else r.1) ∧ only t fun q => dst 0 ≤ q ∧ q < dst 0 + len * size) ∧
      (ready .scan → o.x10.toNat % 8 < 6 → spread → clear group src size →
        let val (j : Nat) : Nat × BitVec 5 := scanPrefix op ((List.range (j % 8 + 1)).map fun l => x (8 * (j / 8) + l)) (j % 8 + 1)
        ∃ t, exec (.vscan o) s = .next t ∧
          let step (j : Nat) : Nat × BitVec 5 :=
            if j < 8 then val j else let r := op (el t (dst (8 * (j / 8) - 1)) size) (val j).1; (r.1, (val j).2 ||| r.2)
          t.Leaves g k ((vec .scan).finish { p with flags := all n fun j => (step j).2 }) ∧ (∀ j < n, el t (dst j) size = (step j).1) ∧
            only t fun q => ∃ j < n, dst j ≤ q ∧ q < dst j + size) ∧
      (ready .bcast → spread → (o.m = 0 → writes (.vbcast o) .bcast (fun _ => 0) fun _ _ => (p.reg o.c).toNat % m) ∧
        (o.m = 1 → writes (.vbcast o) .bcast (fun _ => 0) fun _ _ => x 0)) ∧
      (ready .perm → spread → clear group src size → writes (.vperm o) .perm (fun _ => 0) fun _ j =>
        let q := 8 * (j / 8) + (p.reg o.c).toNat / 8 ^ (j % 8) % 8
        if q < n then x q else 0) ∧
      (ready .rand → spread → writes (.vrand o) .rand (fun _ => 0) fun _ j =>
        let r := gen (p.reg o.b) (p.reg o.c + BitVec.ofNat 64 j)
        if ty = .flt fp32 then (fp32.round 0 false 0 (.fin false (r / 256) (-24))).1 else r) ∧
      (let gr := 64 / max size 4
       let slot (j : Nat) : Nat := place o.c 0 4 j
       let index (j : Nat) : Nat := el s (slot j) 4
       let past (base : Reg) (j : Nat) : Prop := p.segLen < (p.reg base).toNat + index j * size + size
       (ready .gather → spread → clear gr slot 4 →
         let far (j : Nat) : Nat := p.sb.toNat + (p.reg o.b).toNat + index j * size
         ((∀ j < n, ¬past o.b j) → clear gr far size → writes (.vgather o) .gather (fun _ => 0) fun _ j => el s (far j) size) ∧
         (∀ j < n, (∀ l < j, ¬past o.b l) → past o.b j →
           (∀ l < j, ∀ i < j, l / gr ≠ i / gr → apart (dst l) size (far i) size) →
           ∃ u : State, exec (.vgather o) s =
               .next (u.trap g k { p with vrc := BitVec.ofNat 20 (j / gr), vrpc := p.pc } .segment (BitVec.ofNat 64 ((p.reg o.b).toNat + index j * size))) ∧
             (∀ l < j / gr * gr, el u (dst l) size = el s (far l) size) ∧ (only u fun q => ∃ l < j / gr * gr, dst l ≤ q ∧ q < dst l + size) ∧
             (∀ i, u.procAt g i = s.procAt g i) ∧ { u with cores := s.cores, madder := s.madder } = s)) ∧
       (ready .scatter →
         let far (j : Nat) : Nat := p.sb.toNat + (p.reg o.a).toNat + index j * size
         (∀ j < n, ∀ l < n, j / gr ≠ l / gr → apart (far j) size (slot l) 4 ∧ apart (far j) size (src l) size) →
         ((∀ j < n, ¬past o.a j) →
           ∃ t, exec (.vscatter o) s = .next t ∧ t.Leaves g k ((vec .scatter).finish p) ∧
             (∀ j < n, (∀ l < n, j < l → index l ≠ index j) → el t (far j) size = x j) ∧
             only t fun q => ∃ j < n, far j ≤ q ∧ q < far j + size) ∧
         (∀ j < n, (∀ l < j, ¬past o.a l) → past o.a j →
           ∃ u : State, exec (.vscatter o) s =
               .next (u.trap g k { p with vrc := BitVec.ofNat 20 (j / gr), vrpc := p.pc } .segment (BitVec.ofNat 64 ((p.reg o.a).toNat + index j * size))) ∧
             (∀ i < j / gr * gr, (∀ l < j / gr * gr, i < l → index l ≠ index i) → el u (far i) size = x i) ∧
             (only u fun q => ∃ l < j / gr * gr, far l ≤ q ∧ q < far l + size) ∧ (∀ i, u.procAt g i = s.procAt g i) ∧
             { u with cores := s.cores, madder := s.madder } = s)))) ∧
    (∀ f : Fmt, ready .cvt →
      let scale (j : Nat) : Nat := p.sb.toNat + (p.reg o.c).toNat + j
      let block (r : Reg) (j : Nat) : Nat := p.sb.toNat + (p.reg r).toNat + 4 * f.width * j
      (mxFmt (p.vty.toNat / 16) = some f → Ty.ofCode (p.vty.toNat % 16) = some ty →
        let size := ty.bits / 8
        let src (j : Nat) : Nat := place o.b 1 size j
        (∀ j < n / 32, ∀ l < n / 32, apart (block o.a j) (4 * f.width) (scale l) 1) →
        (∀ j < n / 32, ∀ l < n, j ≠ l / 32 → apart (block o.a j) (4 * f.width) (src l) size ∧ apart (scale j) 1 (src l) size) →
        let want (j : Nat) : Nat × List Nat × BitVec 5 :=
          toMx f mode (fun i => random (32 * j + i)) ((List.range 32).map fun i => ty.value (el s (src (32 * j + i)) size))
        ∃ t, exec (.vcvt o) s = .next t ∧ t.Leaves g k ((vec .cvt).finish { p with flags := all (n / 32) fun j => (want j).2.2 }) ∧
          (∀ j < n / 32, el t (scale j) 1 = (want j).1 ∧ el t (block o.a j) (4 * f.width) = packElems f.width (want j).2.1) ∧
          only t fun q => ∃ j < n / 32, q = scale j ∨ (block o.a j ≤ q ∧ q < block o.a j + 4 * f.width)) ∧
      (mxFmt (p.vty.toNat % 16) = some f → Ty.ofCode (p.vty.toNat / 16) = some ty →
        let size := ty.bits / 8
        let dst (j : Nat) : Nat := place o.a 2 size j
        (∀ j < n, ∀ l < n, j ≠ l → apart (dst j) size (dst l) size) →
        (∀ j < n, ∀ l < n / 32, j / 32 ≠ l → apart (dst j) size (block o.b l) (4 * f.width) ∧ apart (dst j) size (scale l) 1) →
        let want (j : Nat) : Nat × BitVec 5 :=
          ty.ofValue mode o.sat (random j)
            (mxValue f (el s (scale (j / 32)) 1) (el s (block o.b (j / 32)) (4 * f.width) / 2 ^ (f.width * (j % 32)) % 2 ^ f.width))
        ∃ t, exec (.vcvt o) s = .next t ∧ t.Leaves g k ((vec .cvt).finish { p with flags := all n fun j => (want j).2 }) ∧
          (∀ j < n, el t (dst j) size = (want j).1) ∧ only t fun q => ∃ j < n, dst j ≤ q ∧ q < dst j + size))


/-! The tile unit and the copy engine (10 R354-R396). -/

/-- 10 R358-R372: an instruction of the tile unit acquires it, or yields while another process owns it; TREL gives it up, TSET writes a valid shape; the commands check shapes and addresses, stall on a full
queue, and else join it with the operands they captured. -/
def Obligations.TileResults : Prop :=
  ∀ (s : State) (g k : Nat) (p : Proc) (a b c : BitVec 3) (rb rc : Reg) (d : BitVec 20), s.Runs g k p → p.acquiring = false →
    let u := s.tileAt g
    let sh := u.shape a.toNat
    let x := u.shape b.toNat
    let y := u.shape c.toNat
    let queues (i : Instr) (cmd : TCmd) (after : Tile) : Prop :=
      (8 ≤ u.queue.length → exec i s = .next s) ∧
      (u.queue.length < 8 → s.sbFull g = false → ∃ t e, exec i s = .next t ∧ t.Leaves g k p ∧ t.tileAt g = { after with queue := u.queue ++ [e] } ∧
        e.cmd = cmd ∧ e.who = s.pref g k ∧ e.dye = p.dye ∧ e.sb = p.sb.toNat ∧ ∀ (l : Loc) (n : Nat), t.locRead l n = s.locRead l n)
    (∀ o, u.owner = some o → o ≠ k → ∀ i ∈ [Instr.tacq, .tzcC a, .tzcT a, .tmmaI8 a b c, .ttran a b], ∃ t, exec i s = .next t ∧
      t.tileAt g = u ∧ (t.procAt g k).pc = p.pc) ∧
    (u.owner = none → ∃ t, exec .tacq s = .next t ∧ t.Leaves g k p ∧ t.tileAt g = { u with owner := some k }) ∧
    (u.owner = some k → exec .tacq s = .next (s.retire g k p) ∧ ∃ t, exec .trel s = .next t ∧ t.Leaves g k p ∧ t.tileAt g = { u with owner := none }) ∧
    (u.owner ≠ some k → exec .trel s = .next (s.retire g k p)) ∧
    (u.owner = some k → p.awaits [rb] = false →
      (shapeValid (p.reg rb) = false → exec (.tset a rb) s = .next (s.trap g k p .bounds 0)) ∧
      (shapeValid (p.reg rb) = true → ∃ t, exec (.tset a rb) s = .next t ∧ t.Leaves g k p ∧ t.tileAt g = u.setShape a.toNat (p.reg rb) ∧
        (t.tileAt g).shape a.toNat = p.reg rb)) ∧
    (u.owner = some k →
      queues (.tzcC a) (.zeroC a.toNat) u ∧ queues (.tzcT a) (.zeroT a.toNat) u ∧
      (let of (i : Instr) (ec : Nat) : Prop :=
         (shapeEc x ≠ ec ∨ shapeEc y ≠ ec ∨ shapeRows x ≠ 16 ∨ shapeRows y ≠ 12 ∨ shapeCols x ≠ shapeCols y → exec i s = .next (s.trap g k p .type 0)) ∧
         (shapeEc x = ec → shapeEc y = ec → shapeRows x = 16 → shapeRows y = 12 → shapeCols x = shapeCols y →
           queues i (.mma a.toNat b.toNat c.toNat ec (shapeCols x)) u)
       of (.tmmaI8 a b c) 0 ∧ of (.tmmaBf16 a b c) 9 ∧ of (.tmmaF16 a b c) 10 ∧ of (.tmmaE4m3 a b c) 11 ∧ of (.tmmaE5m2 a b c) 12 ∧ of (.tmmaMxf8 a b c) 13 ∧
         of (.tmmaMxf6 a b c) 14 ∧ of (.tmmaMxf4 a b c) 15) ∧
      (shapeRows x = 0 ∨ isMx (shapeEc x) = true ∨ 16 < shapeCols x ∨ 192 < shapeRows x * (codeBits (shapeEc x) / 8) →
        exec (.ttran a b) s = .next (s.trap g k p .type 0)) ∧
      (shapeRows x ≠ 0 → isMx (shapeEc x) = false → shapeCols x ≤ 16 → shapeRows x * (codeBits (shapeEc x) / 8) ≤ 192 →
        queues (.ttran a b) (.tran a.toNat b.toNat x) (u.setShape a.toNat (BitVec.ofNat 64 (shapeEc x + shapeCols x * 16 + shapeRows x * 1024)))) ∧
      (∀ i32 r sat, (r = 4 → p.awaits [rc, oddOf rc] = false) →
        (shapeRows sh ≠ 16 ∨ shapeCols sh ≠ 12 ∨ isMx (shapeEc sh) = true → exec (.tcvt a b rc i32 r sat) s = .next (s.trap g k p .type 0)) ∧
        (shapeRows sh = 16 → shapeCols sh = 12 → isMx (shapeEc sh) = false → queues (.tcvt a b rc i32 r sat)
          (.cvt a.toNat b.toNat i32 (shapeEc sh) r sat (if r = 4 then p.reg rc else 0) (if r = 4 then p.reg (oddOf rc) else 0)) u)) ∧
      (p.awaits [rb, rc] = false →
        let ea := p.reg rb + d.signExtend 64
        let st := p.reg rc
        (shapeRows sh = 0 ∨ isMx (shapeEc sh) = true → exec (.tld a rb rc false d) s = .next (s.trap g k p .type 0) ∧
          exec (.tst a rb rc false d) s = .next (s.trap g k p .type 0)) ∧
        (shapeRows sh ≠ 0 → isMx (shapeEc sh) = false → ea.toNat % 16 ≠ 0 ∨ st.toNat % 16 ≠ 0 →
          exec (.tld a rb rc false d) s = .next (s.trap g k p .align ea) ∧ exec (.tst a rb rc false d) s = .next (s.trap g k p .align ea)) ∧
        (ea.toNat % 16 = 0 → st.toNat % 16 = 0 →
          (shapeRows sh ≠ 0 → isMx (shapeEc sh) = false → (∀ r < shapeRows sh, (ea + st * BitVec.ofNat 64 r).toNat + shapeBpr sh ≤ p.segLen) →
            queues (.tld a rb rc false d) (.tld a.toNat sh ea.toNat st.toNat 0 false) u ∧
            queues (.tst a rb rc false d) (.tst a.toNat sh ea.toNat st.toNat 0 false) u) ∧
          ((∀ r < 16, (ea + st * BitVec.ofNat 64 r).toNat + 48 ≤ p.segLen) →
            queues (.tldc a rb rc d) (.tldc a.toNat ea.toNat st.toNat) u ∧ queues (.tstc a rb rc d) (.tstc a.toNat ea.toNat st.toNat) u))))

/-- 10 R362, R363, R366-R372, R375 with 04 R165, R175, R179, R180: the oldest command of an idle tile unit starts unless earlier accesses hold it; complete, it leaves the queue with its whole effect, and its
flags reach its issuer: a load brings rows of LM and their scales, a store writes them and no other byte, a zeroing clears, TMMA adds the dot products of rows to each accumulator element (exact sums, one
rounding, the rules of NaN and infinity; in I8 the integers), TCVT writes each element converted, TTRAN the image transposed. That a start or completion that is not due leaves the state as it is is log
entry 59, the model's choice. -/
def Obligations.TileSteps : Prop :=
  ∀ (s : State) (g : Nat) (e : TEntry) (rest : List TEntry), (s.tileAt g).queue = e :: rest → s.memOk = true →
    let u := s.tileAt g
    ((u.busy = true ∨ s.tileHeld g e = true) → exec (.tileCommandStart g) s = .next s) ∧
    (u.busy = false → s.tileHeld g e = false → ∃ t, exec (.tileCommandStart g) s = .next t ∧ t.tileAt g = { u with busy := true } ∧ { t with cores := s.cores } = s) ∧
    (u.busy = false → exec (.tileCommandComplete g) s = .next s) ∧
    (u.busy = true → ∃ t, exec (.tileCommandComplete g) s = .next t ∧ (t.tileAt g).queue = rest ∧ (t.tileAt g).busy = false ∧ (t.tileAt g).owner = u.owner ∧
      (t.tileAt g).shapes = u.shapes ∧ (s.upsets = [] → { t with cores := s.cores, madder := s.madder } = s) ∧
      (let byteT (x : Tile) (c q : Nat) : Byte := Mem.byte (x.reg c) q
       let v := t.tileAt g
       let apart (q w q' w' : Nat) : Prop := q + w ≤ q' ∨ q' + w' ≤ q
       let row (ea st r : Nat) : Nat := e.sb + (BitVec.ofNat 64 ea + BitVec.ofNat 64 st * BitVec.ofNat 64 r).toNat
       let lm (q : Nat) : Byte := Mem.byte (s.coreAt g).lm q
       let lm1 (q : Nat) : Byte := Mem.byte (t.coreAt g).lm q
       let raised (fl : BitVec 5) : Prop := ∀ p, s.find e.who = some p → (t.procAt e.who.g e.who.slot).flags = p.flags ||| fl
       let elem (m : Mem) (q w : Nat) : Nat := bytesNat (Mem.read m q w)
       let still (c : Nat) (inside : Nat → Prop) : Prop := (∀ q, ¬inside q → byteT v c q = byteT u c q) ∧ ∀ j, j ≠ c → v.reg j = u.reg j
       (∀ c, e.cmd = .zeroC c → raised 0 ∧ (∀ q, Mem.byte (v.acc c) q = 0) ∧ v.t = u.t ∧ ∀ j, j ≠ c → v.acc j = u.acc j) ∧
       (∀ c, e.cmd = .zeroT c → raised 0 ∧ (∀ q, byteT v c q = 0 ∧ Mem.byte (v.scale c) q = 0) ∧ v.c = u.c ∧ ∀ j, j ≠ c → v.reg j = u.reg j ∧ v.scale j = u.scale j) ∧
       (∀ c ea st, e.cmd = .tldc c ea st → raised 0 ∧ (∀ r < 16, ∀ q < 48, Mem.byte (v.acc c) (48 * r + q) = lm (row ea st r + q)) ∧
         (∀ j, j ≠ c → v.acc j = u.acc j) ∧ v.t = u.t ∧ ∀ q, lm1 q = lm q) ∧
       (∀ c sh ea st sb mx, e.cmd = .tld c sh ea st sb mx → shapeBpr sh ≤ 192 → shapeSpr sh ≤ 12 → raised 0 ∧
         (∀ r < shapeRows sh, ∀ q < shapeBpr sh, byteT v c (192 * r + q) = lm (row ea st r + q)) ∧
         (mx = true → ∀ r < shapeRows sh, ∀ q < shapeSpr sh, Mem.byte (v.scale c) (12 * r + q) = lm (e.sb + sb + r * shapeSpr sh + q)) ∧
         (mx = false → v.sc = u.sc) ∧ (∀ j, j ≠ c → v.scale j = u.scale j) ∧ still c (fun q => ∃ r < shapeRows sh, 192 * r ≤ q ∧ q < 192 * r + shapeBpr sh) ∧ v.c = u.c ∧ ∀ q, lm1 q = lm q) ∧
       (∀ c ea st, e.cmd = .tstc c ea st → (∀ r < 16, ∀ l < 16, r ≠ l → apart (row ea st r) 48 (row ea st l) 48) → raised 0 ∧
         (∀ r < 16, ∀ q < 48, lm1 (row ea st r + q) = Mem.byte (u.acc c) (48 * r + q)) ∧
         (∀ q, (∀ r < 16, q < row ea st r ∨ row ea st r + 48 ≤ q) → lm1 q = lm q) ∧ v = { u with queue := rest, busy := false }) ∧
       (∀ c sh ea st sb mx, e.cmd = .tst c sh ea st sb mx →
         let rows := shapeRows sh
         let n := shapeBpr sh
         let m := if mx then shapeSpr sh else 0
         (∀ r < rows, ∀ l < rows, r ≠ l → apart (row ea st r) n (row ea st l) n) → (mx = true → ∀ r < rows, apart (row ea st r) n (e.sb + sb) (rows * m)) → raised 0 ∧
         (∀ r < rows, ∀ q < n, lm1 (row ea st r + q) = byteT u c (192 * r + q)) ∧
         (∀ r < rows, ∀ q < m, lm1 (e.sb + sb + r * m + q) = Mem.byte (u.scale c) (12 * r + q)) ∧
         (∀ q, (∀ r < rows, q < row ea st r ∨ row ea st r + n ≤ q) → q < e.sb + sb ∨ e.sb + sb + rows * m ≤ q → lm1 q = lm q) ∧
         v = { u with queue := rest, busy := false }) ∧
       (∀ c a b ec n, e.cmd = .mma c a b ec n →
         let old (i j : Nat) : Nat := elem (u.acc c) (48 * i + 4 * j) 4
         let now (i j : Nat) : Nat := elem (v.acc c) (48 * i + 4 * j) 4
         let x (y i l : Nat) : FV :=
           let raw (w : Nat) : Nat := elem (u.reg y) (192 * i) (n * w / 8) / 2 ^ (w * l) % 2 ^ w
           match mxFmt ec, Ty.ofCode ec with
           | some f, _ => mxValue f (Mem.byte (u.scale y) (12 * i + l / 32)).toNat (raw f.width)
           | none, some ty => ty.value (raw ty.bits)
           | none, none => .nan false
         let want (i j : Nat) : Nat × BitVec 5 :=
           let products := (List.range n).map fun l => FV.mul (x a i l) (x b j l)
           let terms := fp32.value (old i j) :: products.map (·.1)
           let mixed : Bool := terms.contains (.inf false) && terms.contains (.inf true)
           let nv : BitVec 5 := (if (fp32.value (old i j)).isSnan then fNV else 0) ||| products.foldl (fun f z => f ||| z.2) 0 ||| (if mixed then fNV else 0)
           let sum := fp32.round 0 false 0 (products.foldl (fun z w => (FV.add 0 z w.1).1) (fp32.value (old i j)))
           if terms.any FV.isNan || mixed then (fp32.nan, nv)
           else if terms.contains (.inf false) then (fp32.inf false, nv)
           else if terms.contains (.inf true) then (fp32.inf true, nv)
           else (sum.1, nv ||| sum.2)
         (∀ j, j ≠ c → v.acc j = u.acc j) ∧ v.t = u.t ∧ v.sc = u.sc ∧ (t.coreAt g).lm = (s.coreAt g).lm ∧
         (ec = 0 → raised 0 ∧ ∀ i < 16, ∀ j < 12, (now i j : Int) =
           ((old i j : Int) + ((List.range n).map fun l => (Mem.byte (u.reg a) (192 * i + l)).toInt * (Mem.byte (u.reg b) (192 * j + l)).toInt).sum) % 2 ^ 32) ∧
         (ec ∈ [9, 10, 11, 12, 13, 14, 15] → (isMx ec = true → n % 32 = 0) → (∀ i < 16, ∀ j < 12, now i j = (want i j).1) ∧
           raised ((List.range 192).foldl (fun f q => f ||| (want (q / 12) (q % 12)).2) 0))) ∧
       (∀ c a i32 ec r sat key ctr ty, e.cmd = .cvt c a i32 ec r sat key ctr → Ty.ofCode ec = some ty →
         let w := ty.bits / 8
         let want (q : Nat) : Nat × BitVec 5 :=
           convert (if i32 then .int 32 true else .flt fp32) ty r.toNat sat (if r = 4 then gen key (ctr + BitVec.ofNat 64 q) else 0) (elem (u.acc a) (4 * q) 4)
         raised ((List.range 192).foldl (fun f q => f ||| (want q).2) 0) ∧
         (∀ i < 16, ∀ j < 12, elem (v.reg c) (192 * i + w * j) w = (want (12 * i + j)).1) ∧
         still c (fun q => ∃ i < 16, 192 * i ≤ q ∧ q < 192 * i + 12 * w) ∧ v.c = u.c ∧ v.sc = u.sc) ∧
       ∀ c b sh, e.cmd = .tran c b sh →
         let w := codeBits (shapeEc sh) / 8
         shapeRows sh * w ≤ 192 → raised 0 ∧
         (∀ i < shapeRows sh, ∀ j < shapeCols sh, ∀ q < w, byteT v c (192 * j + w * i + q) = byteT u b (192 * i + w * j + q)) ∧
         still c (fun q => ∃ j < shapeCols sh, 192 * j ≤ q ∧ q < 192 * j + w * shapeRows sh) ∧ v.c = u.c ∧ v.sc = u.sc))

/-- 10 R376-R379, R384, R388, R391-R396: CPSET stages a field; CPGO checks the fields, the key and its descriptor, the ring, the extents and the bitmap in that order, each failure a trap, answers 0 for a full ring,
waits while there is no room, registers a tagged copy, and else numbers its copy, puts it in the journal and raises SENT and IP; its LM reads are its process's to pay; CPWAIT answers a status, 4 or 5, or waits;
RGWAIT and RGREL check the ring, take and give back its oldest complete slot; SCRUB asks the home of each line, which answers what it corrected and what it could not, and its pair gets both masks.
The model's choices: one SCRUB, one operation (log entry 57), the INFO of the checks on extents (72), MX arrays off their boundary (69), the ring's place (89). -/
def Obligations.CopyResults : Prop :=
  (∀ (s : State) (g k : Nat) (p : Proc) (a b c : Reg), s.Runs g k p → Memory.wf (s.coreAt g).lm = true →
    (∀ f : BitVec 4, p.awaits [b] = false → ∃ t, exec (.cpset b f) s = .next t ∧ t.Leaves g k { p with staging := p.staging.setIfInBounds f.toNat (p.reg b) } ∧
      (∀ i, Mem.byte (t.coreAt g).lm i = Mem.byte (s.coreAt g).lm i) ∧ { t with cores := s.cores, madder := s.madder } = s) ∧
    (p.acquiring = false → p.awaits [a] = false → s.LmFree g →
      let x := p.staging
      let fd (n : Nat) : Nat := (stg x n).toNat
      let len := fd 2
      let rows := fd 3
      let sec := fd 6 % 16
      let dec := fd 6 / 16 % 16
      let en : Prop := fd 6 / 4096 % 2 = 1
      let wsid := fd 8 % 4096
      let key := fd 9 % 64
      let ringOn : Prop := fd 11 % 2 = 1
      let ra : Word := BitVec.ofNat 64 (fd 11 / 64 % 2 ^ 46 * 64)
      let elems := len * 8 / codeBits sec
      let dl := if en then elems * codeBits dec / 8 else len
      let pays (n : Nat) : State := s.payReads g p n
      let traps (n : Nat) (e : Cause) (v : Word) : Prop := exec (.cpgo a) s = .next ((pays n).trap g k p e v)
      let fieldsOk : Prop := 1 ≤ len ∧ len < 2 ^ 32 ∧ 1 ≤ rows ∧ rows ≤ 65536 ∧ fd 6 < 2 ^ 13 ∧ (¬en → fd 6 = 0) ∧ fd 6 / 256 % 8 ≤ 3 ∧
        (en → ¬(13 ≤ sec ∧ 13 ≤ dec) ∧ len * 8 % codeBits sec = 0 ∧ (13 ≤ sec ∨ 13 ≤ dec → elems % 32 = 0)) ∧ fd 8 ≤ 4095 ∧ fd 9 < 64 ∧
        fd 11 / 2 ^ 52 = 0 ∧ fd 11 / 2 % 32 = 0 ∧ fd 12 / 2 ^ 52 = 0 ∧ fd 12 / 2 % 4 = 0
      let keyForm : Prop := ¬en ∧ wsid ≠ 0 ∧ len * rows ≤ 2 ^ 32
      let keyHeld : Prop := ∃ z, Tbl.find s.keys key = some z ∧ z.part = p.part
      let keyOk : Prop := key = 0 ∨ (keyForm ∧ keyHeld ∧ fd 10 % 32 = 0 ∧ fd 10 + 32 ≤ p.segLen)
      let desc : List Byte := if key = 0 then [] else s.lmRead g (p.sb.toNat + fd 10) 32
      let one : Nat := if key = 0 then 0 else 1
      let descOk : Prop := field desc 12 4 = 0
      let span (lo hi base stride : Int) (n : Nat) : Prop :=
        (∀ r < rows, lo ≤ base + stride * r ∧ base + stride * r + n ≤ hi) ∧ (∃ r < rows, base + stride * r = lo) ∧ ∃ r < rows, base + stride * r + n = hi
      let checked (need : Nat) (lo hi : Int) : Option (Cause × Word) :=
        if hi ≤ lo then none
        else if lo < 0 ∨ 2 ^ 52 < hi then some (Cause.bounds, BitVec.ofInt 64 lo)
        else (s.rangeCheck p.part need (BitVec.ofInt 64 lo) (hi - lo).toNat).map fun e => (e, BitVec.ofInt 64 lo)
      let need (at_ : Nat) : Nat := if wsid ≠ 0 ∨ (p.txid ≠ 0 ∧ isWindow at_ = false) then rightW + rightV else rightW
      let started (t : State) (y : Copy) : Prop :=
        t.Leaves g k ({ p with cpn := p.cpn + 1 }.setReg a (p.cpn + 1)) ∧
        (t.clusterAt (g / 16)).journal = (s.clusterAt (g / 16)).journal ++ [{ y with id := (p.cpn + 1).toNat }] ∧
        y.x = x ∧ y.who = s.pref g k ∧ y.reads = [] ∧ y.done = [] ∧ y.dye = p.dye ∧ y.txid = p.txid.toNat ∧ y.snap = p.snap.toNat ∧ y.sm = p.sm ∧
        y.vseen = p.vseen.toNat ∧ y.finished = none ∧
        (∀ i, Mem.byte (t.coreAt g).lm i =
          let q := p.sb.toNat + ra.toNat + 16
          if ringOn ∧ q ≤ i ∧ i < q + 8 then (natBytes 8 (y.ringN + 1)).getD (i - q) 0 else Mem.byte (s.coreAt g).lm i) ∧
        (t.coreAt g).sent = (if s.counts g p.launch then (s.coreAt g).sent + 1 else (s.coreAt g).sent)
      ((∀ pc done desc ip d, p.wait = .copyReg pc done desc ip d → pc ≠ p.pc) →
        (¬fieldsOk → exec (.cpgo a) s = .next (s.trap g k p .bounds 0)) ∧
        (fieldsOk → key ≠ 0 →
          (¬keyForm → traps 0 .bounds 0) ∧ (keyForm → ¬keyHeld → traps 0 .rights 0) ∧ (keyForm → keyHeld → fd 10 % 32 ≠ 0 → traps 0 .align (stg x 10)) ∧
          (keyForm → keyHeld → fd 10 % 32 = 0 → p.segLen < fd 10 + 32 → traps 0 .segment (stg x 10)) ∧ (keyOk → ¬descOk → traps 1 .bounds 0)) ∧
        (fieldsOk → keyOk → descOk → ringOn → ∀ e r, s.ringAt g p ra = .bad e r → traps (one + if r then 1 else 0) e ra) ∧
        (fieldsOk → keyOk → descOk → ∀ ring, (¬ringOn ∧ ring = none) ∨ (ringOn ∧ ∃ r, ring = some r ∧ s.ringAt g p ra = .ok r) →
          let d : Word := match ring with | none => stg x 1 | some r => BitVec.ofNat 64 (windowLm g (p.sb.toNat + r.base + r.ip % r.ns * r.ssz))
          let n := one + if ring.isSome then 1 else 0
          let ip := match ring with | none => 0 | some r => r.ip
          let y := s.newCopy g k p desc ip d.toNat
          let full : Prop := ∃ r, ring = some r ∧ r.ip - r.rp = r.ns
          (∀ sl sh tl th : Int, span sl sh (stg x 0).toNat (stg x 4).toInt len → span tl th d.toNat (stg x 5).toInt dl →
            let lines := ((List.range rows).map fun r => let q := (d + stg x 5 * BitVec.ofNat 64 r).toNat; (q + dl - 1) / 128 - q / 128 + 1).sum
            s.copyRanges p x ring d = [checked rightR sl sh, if en ∧ 13 ≤ sec then checked rightR (fd 7) (fd 7 + rows * (elems / 32) : Nat) else none,
              match ring with | some r => if tl < d.toNat ∨ d.toNat + r.ssz < th then some (Cause.bounds, BitVec.ofInt 64 tl) else none | none => none,
              checked (need d.toNat) tl th, if en ∧ 13 ≤ dec then checked (need (fd 7)) (fd 7) (fd 7 + rows * (elems / 32) : Nat) else none,
              if fd 12 % 2 = 1 ∧ p.segLen < fd 12 / 8 % 2 ^ 49 * 8 + (lines + 7) / 8 then some (Cause.segment, BitVec.ofNat 64 (fd 12 / 8 % 2 ^ 49 * 8)) else none].findSome? id) ∧
          (∀ e v, s.copyRanges p x ring d = some (e, v) → traps n e v) ∧
          (s.copyRanges p x ring d = none →
            (full → exec (.cpgo a) s = .next ((pays n).retire g k (p.setReg a 0))) ∧
            (¬full → s.copyFull g (s.pref g k) y = true → exec (.cpgo a) s = .next s) ∧
            (¬full → s.copyFull g (s.pref g k) y = false → wsid ≠ 0 → exec (.cpgo a) s = .next ((pays n).setProc g k { p with wait := .copyReg p.pc false desc ip d.toNat })) ∧
            (¬full → s.copyFull g (s.pref g k) y = false → wsid = 0 → ∃ t, exec (.cpgo a) s = .next t ∧ started t y ∧ y.dst = d.toNat)))) ∧
      (∀ done desc ip d, p.wait = .copyReg p.pc done desc ip d → wsid ≠ 0 →
        let y := s.newCopy g k p desc ip d
        ((s.copyFull g (s.pref g k) y = true ∨ done = false) → exec (.cpgo a) s = .next s) ∧
        (s.copyFull g (s.pref g k) y = false → done = true → ∃ t, exec (.cpgo a) s = .next t ∧ started t y ∧ y.dst = d ∧ y.desc = desc ∧ y.ringN = ip))) ∧
    (p.acquiring = false → p.awaits [a] = false →
      (let id := (p.reg a).toNat
       (id = 0 ∨ p.cpn.toNat < id → exec (.cpwait a) s = .next (s.retire g k (p.setReg a 4))) ∧
       (0 < id → id + 16 ≤ p.cpn.toNat → exec (.cpwait a) s = .next (s.retire g k (p.setReg a 5))) ∧
       (∀ w, 0 < id → id ≤ p.cpn.toNat → p.cpn.toNat < id + 16 → (p.copies.find? fun z => z.1 == id) = some (id, w) →
         exec (.cpwait a) s = .next (s.retire g k (p.setReg a w))) ∧
       (0 < id → id ≤ p.cpn.toNat → p.cpn.toNat < id + 16 → (∀ z ∈ p.copies, z.1 ≠ id) → exec (.cpwait a) s = .next s))) ∧
    (p.acquiring = false → p.awaits [a, oddOf a, b] = false → s.LmFree g →
      let ra := p.reg b
      let h (off n : Nat) : Nat := bytesNat (s.lmRead g (p.sb.toNat + ra.toNat + off) n)
      let valid : Prop := h 0 8 % 64 = 0 ∧ h 8 4 % 64 = 0 ∧ 64 ≤ h 8 4 ∧ 1 ≤ h 12 2 ∧ h 12 2 ≤ 64 ∧ h 14 2 = 0 ∧ h 40 24 = 0 ∧ h 32 8 ≤ h 24 8 ∧ h 24 8 ≤ h 16 8 ∧
        h 16 8 ≤ h 32 8 + h 12 2 ∧ h 0 8 + h 12 2 * h 8 4 ≤ p.segLen
      (ra.toNat % 64 ≠ 0 → s.ringAt g p ra = .bad .align false) ∧
      (ra.toNat % 64 = 0 → p.segLen < ra.toNat + 64 → s.ringAt g p ra = .bad .segment false) ∧
      (ra.toNat % 64 = 0 → ra.toNat + 64 ≤ p.segLen →
        (p.segLen < ra.toNat + 64 + 8 * h 12 2 → s.ringAt g p ra = .bad .segment true) ∧
        (ra.toNat + 64 + 8 * h 12 2 ≤ p.segLen → (¬valid → s.ringAt g p ra = .bad .bounds true) ∧
          (valid → s.ringAt g p ra = .ok { base := h 0 8, ssz := h 8 4, ns := h 12 2, ip := h 16 8, wp := h 24 8, rp := h 32 8 }))) ∧
      (∀ e read, s.ringAt g p ra = .bad e read → exec (.rgwait a b) s = .next ((s.payReads g p (if read then 1 else 0)).trap g k p e ra) ∧
        exec (.rgrel a b) s = .next ((s.payReads g p (if read then 1 else 0)).trap g k p e ra)) ∧
      ∀ r, s.ringAt g p ra = .ok r →
        (r.rp = r.ip → exec (.rgwait a b) s = .next ((s.payReads g p 1).retire g k (p.setPair a 0 6 false))) ∧
        (r.rp < r.ip → r.wp ≤ r.rp → exec (.rgwait a b) s = .next s) ∧
        (r.rp < r.wp → r.rp < r.ip → exec (.rgwait a b) s = .next ((s.payReads g p 2).retire g k
          (p.setPair a (BitVec.ofNat 64 (r.base + r.rp % r.ns * r.ssz)) (bytesWord (s.lmRead g (p.sb.toNat + ra.toNat + 64 + 8 * (r.rp % r.ns)) 8)) false))) ∧
        (r.wp ≤ r.rp → exec (.rgrel a b) s = .next ((s.payReads g p 1).retire g k (p.setReg a (-1)))) ∧
        (r.rp < r.wp → ∃ t, exec (.rgrel a b) s = .next t ∧ t.Leaves g k (p.setReg a (BitVec.ofNat 64 (r.rp + 1))) ∧
          (t.coreAt g).lm = Mem.write (s.coreAt g).lm (p.sb.toNat + ra.toNat + 32) (natBytes 8 (r.rp + 1)))) ∧
    (p.acquiring = false → p.awaits [a, oddOf a, b, c] = false →
      let base := p.reg b
      let len := (p.reg c).toNat
      (len = 0 ∨ 8192 < len → exec (.scrub a b c) s = .next (s.trap g k p .bounds base)) ∧
      (0 < len → len ≤ 8192 → base.toNat % 128 ≠ 0 ∨ len % 128 ≠ 0 → exec (.scrub a b c) s = .next (s.trap g k p .align base)) ∧
      (∀ e, 0 < len → len ≤ 8192 → base.toNat % 128 = 0 → len % 128 = 0 → s.rangeCheck p.part rightW base len = some e →
        exec (.scrub a b c) s = .next (s.trap g k p e base)) ∧
      (0 < len → len ≤ 8192 → base.toNat % 128 = 0 → len % 128 = 0 → s.rangeCheck p.part rightW base len = none → p.outs.length < 16 →
        (∀ i < len / 128, s.walkWaits p.part (g / 16) (base.toNat + 128 * i) = false) →
        ∃ t, exec (.scrub a b c) s = .next t ∧ t.Leaves g k { p with
          outs := p.outs ++ [{ oid := s.nextId, seq := p.seq, pc := p.pc, ea := base, len := len, dest := .scrub a (len / 128) 0 0 0, acquire := false, loc := none, flags := false }]
          seq := p.seq + 1 } ∧ t.net.length = s.net.length + len / 128 ∧ t.net.take s.net.length = s.net ∧
          ∀ i < len / 128, ∀ l, isWindow (base.toNat + 128 * i) = true → windowLoc (base.toNat + 128 * i) = some l → ∃ r : GReq,
            t.net[s.net.length + i]? = some { src := .core g, dst := l.node, body := .req r } ∧ r.op = .scrub i ∧ r.loc = l ∧ r.oid = s.nextId ∧ r.who = s.pref g k))) ∧
  (∀ (s : State) (n i : Nat) (src dst : Node) (r : GReq) (e : Ecc), s.Served n src dst r → r.op = .scrub i →
    let answer (fixed bad : Bool) : Msg := { src := r.loc.node, dst := .core r.who.g, body := .resp r [] 0 0 0 0 fixed bad }
    ∃ t, exec (.homeRead n e) s = .next t ∧
      ((∃ o, r.loc = .host o) → { src := r.loc.node, dst := .core r.who.g, body := .err r .rights } ∈ t.net) ∧
      ((∃ c o, r.loc = .lm c o ∨ r.loc = .cm c o ∨ r.loc = .dm c o) → answer (eccFixes e) (s.locBad r.loc 128 || eccFails e) ∈ t.net ∧
        (e = .clean → (∀ l m, t.locRead l m = s.locRead l m) ∧ { t with net := s.net, madder := s.madder } = s)) ∧
      (∀ v dpa, r.loc = .hbm v dpa → answer (eccFixes e) ((s.lineAt (dpa / 128)).cur.poison || eccFails e) ∈ t.net ∧
        (e = .clean → { t with net := s.net, madder := s.madder, servers := s.servers, freeCtr := s.freeCtr } = s ∧ s.Turned t v r.part) ∧
        (eccFails e = true →
          (t.lineAt (dpa / 128)).cur = { (s.lineAt (dpa / 128)).cur with poison := true } ∧ ∀ j, j ≠ dpa / 128 → t.lineAt j = s.lineAt j))) ∧
  ∀ (s : State) (n g k : Nat) (src : Node) (r : GReq) (fixed bad : Bool) (p : Proc) (o : Out) (a : Reg) (lines done i : Nat) (fx bd : Word),
    s.net[n]? = some { src := src, dst := .core g, body := .resp r [] 0 0 0 0 fixed bad } → deliverable s.net n = true →
    r.who = s.pref g k → (s.coreAt g).holdsProc k = true → p = s.procAt g k → (p.outs.find? fun x => x.oid == r.oid) = some o →
    o.dest = .scrub a lines done fx bd → r.op = .scrub i → a.getLsbD 0 = false →
    let fx' := if fixed then fx ||| BitVec.ofNat 64 (2 ^ i) else fx
    let bd' := if bad then bd ||| BitVec.ofNat 64 (2 ^ i) else bd
    ∃ t, exec (.loadDataArrival n) s = .next t ∧ t.net = s.net.eraseIdx n ∧
      let q := t.procAt g k
      (done + 1 < lines → (∀ x, q.reg x = p.reg x) ∧
        q.outs = p.outs.map fun x => if x.oid == o.oid then { x with dest := .scrub a lines (done + 1) fx' bd' } else x) ∧
      (lines ≤ done + 1 → q.reg a = fx' ∧ q.reg (oddOf a) = bd' ∧ (∀ x, x ≠ a → x ≠ oddOf a → q.reg x = p.reg x) ∧ q.outs = p.outs.filter fun x => x.oid != o.oid)

/-- 10 R379-R388, R391, R393 with 02 R106, R537, 03 R145, 16 R500: the service's reply lets a tagged CPGO go on; a transfer reads the source's bytes at their home (in HBM of the version its captured state chooses), marked where the line is poisoned;
what the copy then has for its destination is those bytes, decrypted under its key, or converted element by element; a transfer writes that at its home: plainly, as the transaction's or the set's version; a copy whose pieces are all written
completes with its status word, error bitmap, ring slot and RCVD; a failed tagged copy's writes are undone. Model's choices: log entries 26 and 67 (undoing, order of pieces), 88 (VSEEN), 59 (no-op events). -/
def Obligations.CopySteps : Prop :=
  ∀ (s : State) (c id u : Nat) (y : Copy), (s.clusterAt c).journal.find? (fun z => z.seq == id) = some y → s.memOk = true → s.upsets = [] →
    let found (t : State) (z : Copy) : Prop := (t.clusterAt c).journal.find? (fun x => x.seq == id) = some z
    let near (l : Loc) : Prop := ∀ a b d e, l ≠ .far a b d e
    let key := cpKey y.x
    let wsid := cpWsid y.x
    let rows := cpRows y.x
    (∀ g k pc desc ip d, (s.procAt g k).wait = .copyReg pc false desc ip d →
      (s.tss.ready = false → exec (.copyRegistration g k) s = .next s) ∧
      (s.tss.ready = true → ∃ t, exec (.copyRegistration g k) s = .next t ∧
        t.cores = (s.setProc g k { s.procAt g k with wait := .copyReg pc true desc ip d }).cores ∧ { t with cores := s.cores, madder := s.madder } = s)) ∧
    (∀ line tr l, y.readOf u line = some tr → s.partsOf y tr = [{ off := tr.off, addr := tr.addr, len := tr.len }] → (s.translate y.part c y.dye tr.addr).1 = .ok l → near l →
      s.readReady c y u tr = true → tr.len ≤ Tbl.get 0 (s.clusterAt c).deficit y.who.g →
      ∃ t, exec (.copyTransfer c id ⟨false, u, line⟩ .clean) s = .next t ∧
        ((∀ v dpa, l ≠ .hbm v dpa) → (∀ a, l = .host a → s.hostRefused y.part = false) → s.locBad l tr.len = false →
          found t ((y.take tr.row tr.off (s.locRead l tr.len) false).read_ u tr.count) ∧ ∀ (x : Loc) (n : Nat), t.locRead x n = s.locRead x n) ∧
        (∀ v dpa x, l = .hbm v dpa →
          (((y.txid ≠ 0 ∨ y.sm = true) ∧ s.tss.revoked y.snap = false ∧ (s.lineAt (dpa / 128)).snapshot y.snap = some x) ∨
            (y.txid = 0 ∧ y.sm = false ∧ y.vseen ≤ (s.serverAt v).v ∧ x = (s.lineAt (dpa / 128)).current (s.serverAt v).v)) →
          (x.poison = false → found t ((y.take tr.row tr.off (Mem.read x.data (dpa % 128) tr.len) false).read_ u tr.count) ∧
            ∀ p, s.find y.who = some p → (t.procAt y.who.g y.who.slot).vseen = BitVec.ofNat 64 (max p.vseen.toNat (s.serverAt v).v)) ∧
          (x.poison = true → found t ((y.take tr.row tr.off (List.replicate tr.len 0) true).read_ u tr.count))) ∧
        (∀ v dpa, l = .hbm v dpa → y.txid ≠ 0 ∨ y.sm = true → s.tss.revoked y.snap = true → found t { y with fault := some .revoked })) ∧
    (∀ row lo n out, s.copyOut y row lo n = some out →
      let bytes (l : List (Byte × Bool)) : List Byte := l.map (·.1)
      (cpEn y.x = false → ∃ src, y.bytesAt row lo n = some src ∧ (key = 0 → out = src) ∧
        (∀ z, key ≠ 0 → Tbl.find s.keys key = some z →
          bytes out = (bytes src).zipWith (· ^^^ ·) (keystream (keySchedule z.bytes) (y.desc.take 12) (row * cpLen y.x + lo) n))) ∧
      (cpEn y.x = true → cpFieldsOk y.x = true →
        let sw := codeBits (cpSec y.x)
        let dw := codeBits (cpDec y.x)
        let mode := cpRnd y.x
        ∀ all sc r, r = (if row < rows then row else row - rows) → y.bytesAt r 0 (cpLen y.x) = some all →
          (isMx (cpSec y.x) = true → y.bytesAt (rows + r) 0 (cpElems y.x / 32) = some sc) →
          let el (q : Nat) : Nat := bytesNat (bytes all) / 2 ^ (sw * q) % 2 ^ sw
          let block (f : Fmt) (ty : Ty) (j : Nat) := toMx f mode (fun _ => 0) ((List.range 32).map fun i => ty.value (el (32 * j + i)))
          let bits (q : Nat) : Nat := bytesNat (bytes out) / 2 ^ (dw * q - 8 * lo) % 2 ^ dw
          let inside (q : Nat) : Prop := 8 * lo ≤ dw * q ∧ dw * (q + 1) ≤ 8 * (lo + n)
          (∀ ty ty', row < rows → lo + n ≤ cpDl y.x → Ty.ofCode (cpSec y.x) = some ty → Ty.ofCode (cpDec y.x) = some ty' →
            ∀ q, inside q → bits q = (convert ty ty' mode (cpSat y.x) 0 (el q)).1) ∧
          (∀ f ty', row < rows → lo + n ≤ cpDl y.x → mxFmt (cpSec y.x) = some f → Ty.ofCode (cpDec y.x) = some ty' →
            ∀ q, inside q → bits q = (ty'.ofValue mode (cpSat y.x) 0 (mxValue f ((bytes sc).getD (q / 32) 0).toNat (el q))).1) ∧
          (∀ ty f, row < rows → lo + n ≤ cpDl y.x → Ty.ofCode (cpSec y.x) = some ty → mxFmt (cpDec y.x) = some f →
            ∀ q, inside q → bits q = (block f ty (q / 32)).2.1.getD (q % 32) 0) ∧
          (∀ ty f, rows ≤ row → lo + n ≤ cpElems y.x / 32 → Ty.ofCode (cpSec y.x) = some ty → mxFmt (cpDec y.x) = some f →
            bytes out = (List.range n).map fun j => BitVec.ofNat 8 (block f ty (lo + j)).1))) ∧
    (∀ line tr l out, y.writeOf u line = some tr → s.partsOf y tr = [{ off := tr.off, addr := tr.addr, len := tr.len }] → (s.translate y.part c y.dye tr.addr).1 = .ok l → near l →
      y.finished = none → y.fault = none → u ∉ y.done → s.copyHeld y = false → s.transferHeld y true tr = false → s.writeWaits c y tr.addr tr.len = false →
      s.copyOut y tr.row tr.off tr.len = some out → out.length = tr.len → 0 < tr.len → (∀ b ∈ out, b.2 = false) →
      let wrote : Copy := { y with done := y.done ++ (List.range tr.count).map (u + ·) }
      let byte (i : Nat) : Byte := (out.getD i (0, false)).1
      ∃ t, exec (.copyTransfer c id ⟨true, u, line⟩ .clean) s = .next t ∧
        ((∀ v dpa, l ≠ .hbm v dpa) → (∀ a, l = .host a → s.hostRefused y.part = false) → wsid = 0 → found t wrote ∧
          (∀ i, t.locRead (l.at_ i) 1 = if l.off ≤ i ∧ i < l.off + tr.len then [byte (i - l.off)] else s.locRead (l.at_ i) 1) ∧
          ∀ (x : Loc) (m : Nat), x.node ≠ l.node → t.locRead x m = s.locRead x m) ∧
        ((∀ v dpa, l ≠ .hbm v dpa) → wsid ≠ 0 → found t { wrote with fault := some .bounds } ∧ ∀ (x : Loc) (m : Nat), t.locRead x m = s.locRead x m) ∧
        (∀ v dpa, l = .hbm v dpa → dpa % 128 + tr.len ≤ 128 →
          let old := s.lineAt (dpa / 128)
          let now := t.lineAt (dpa / 128)
          let made (base x : Ver) : Prop := x.dye = y.dye ∧ ∀ i < 128, Mem.byte x.data i =
            if dpa % 128 ≤ i ∧ i < dpa % 128 + tr.len then byte (i - dpa % 128) else Mem.byte base.data i
          let room : Prop := s.lineFull (dpa / 128) = false ∧ s.poolUsed v < poolSize (s.serverAt v).poolCfg
          (wsid = 0 → y.txid = 0 → found t wrote ∧ made old.cur now.cur ∧ now.cur.ts = max (s.serverAt v).eh y.floor) ∧
          (wsid ≠ 0 → s.setOpen y = true →
            let o : Owner := .set y.launch wsid
            (∀ x, old.tentOf o = some x → (∀ z ∈ s.setLog, z.line = dpa / 128 → z.own = o → z.keeps y.seq = false) →
              found t wrote ∧ now.cur = old.cur ∧ ∃ x', now.tentOf o = some x' ∧ made x x') ∧
            (old.tentOf o = none → room → found t wrote ∧ now.cur = old.cur ∧ ∃ x', now.tentOf o = some x' ∧ made old.cur x')) ∧
          (wsid = 0 → y.txid ≠ 0 → ∀ tx, Tbl.find s.tss.txs y.txid = some tx → (∀ w m, tx.phase ≠ .ended w m) → tx.who = y.who →
            dpa / 128 ∈ tx.lines ∨ tx.lines.length < 65536 →
            let o : Owner := .tx y.txid
            (∀ x, old.tentOf o = some x → found t wrote ∧ now.cur = old.cur ∧ ∃ x', now.tentOf o = some x' ∧ made x x') ∧
            (∀ x, old.tentOf o = none → room → old.snapshot tx.snap = some x → found t wrote ∧ now.cur = old.cur ∧ ∃ x', now.tentOf o = some x' ∧ made x x')))) ∧
    ((y.finished = none ∧ (y.moved = false ∨ s.copyHeld y = true)) → exec (.copyCompletion c id) s = .next s) ∧
    (∀ p, y.finished = none → y.moved = true → s.copyHeld y = false → (∀ e ∈ s.egress, e.oid ∉ y.farW) →
      s.find y.who = some p → p.cpn.toNat < y.id + 16 →
      let g := y.who.g
      let d : Word := BitVec.ofNat 64 y.dst
      let lines := cpLines y.x d rows
      let bitmapAt := y.sbase + cpEbmAt y.x
      let ringAt_ := y.sbase + cpRingAt y.x
      let slots := max 1 (bytesNat (s.lmRead g (ringAt_ + 12) 2))
      let stat := ringAt_ + 64 + 8 * (y.ringN % slots)
      let lm (t : State) (i : Nat) : Byte := Mem.byte (t.coreAt g).lm i
      (cpEbm y.x = true → s.lmHeld g y.seq Span.none (Span.ofLen bitmapAt ((lines + 7) / 8)) = false) →
      let text := (List.range rows).flatMap fun r => ((y.bytesAt r 0 (cpLen y.x)).getD []).map (·.1)
      let accepted : Prop := ∃ z, Tbl.find s.keys key = some z ∧ z.part = y.part ∧ y.desc.take 4 = bigBytes 4 z.fixed.toNat ∧
        z.accepts (bigNat ((y.desc.take 12).drop 4)) = true ∧ (∀ r < rows, ∃ l, y.bytesAt r 0 (cpLen y.x) = some l ∧ ∀ b ∈ l, b.2 = false) ∧
        gcmTag z.bytes (y.desc.take 12) text = (y.desc.drop 16).take 16
      ∀ st : Nat, (y.fault.isSome = true → st = 2) → (y.fault = none → key ≠ 0 → ¬accepted → st = 3) →
        (y.fault = none → key = 0 ∨ accepted → st = if y.errs = [] then 0 else 1) →
      let cause := match y.fault with | some e => e.code.toNat | none => 0
      let w : Word := BitVec.ofNat 64 (min y.errs.length (2 ^ 32 - 1) * 2 ^ 32 + cause * 65536 + st)
      let same (z : Copy) : Prop := z.who.g = g ∧ cpRing z.x = true ∧ z.sbase + cpRingAt z.x = ringAt_
      ∃ t, exec (.copyCompletion c id) s = .next t ∧ (y.id, w) ∈ (t.procAt g y.who.slot).copies ∧
        (t.coreAt g).rcvd = (if s.counts g y.launch then (s.coreAt g).rcvd + 1 else (s.coreAt g).rcvd) ∧
        (cpRing y.x = false → ∀ z ∈ (t.clusterAt c).journal, z.seq ≠ id) ∧
        (cpRing y.x = false → cpEbm y.x = false → ∀ i, lm t i = lm s i) ∧
        (cpRing y.x = false → cpEbm y.x = true →
          (∀ i < 8 * ((lines + 7) / 8), (lm t (bitmapAt + i / 8)).getLsbD (i % 8) = (decide (i < lines) && y.errs.contains i)) ∧
          ∀ i, i < bitmapAt ∨ bitmapAt + (lines + 7) / 8 ≤ i → lm t i = lm s i) ∧
        (cpRing y.x = true → cpEbm y.x = false → (∀ z ∈ (s.clusterAt c).journal, z ≠ y → ¬same z) →
          s.lmHeld g y.seq Span.none (Span.ofLen stat 8) = false → s.lmHeld g y.seq Span.none (Span.ofLen (ringAt_ + 24) 8) = false →
          (∀ i, lm t i = if ringAt_ + 24 ≤ i ∧ i < ringAt_ + 32 then (natBytes 8 (y.ringN + 1)).getD (i - (ringAt_ + 24)) 0
            else if stat ≤ i ∧ i < stat + 8 then w.extractLsb' (8 * (i - stat)) 8 else lm s i) ∧
          ∀ z ∈ (t.clusterAt c).journal, z.seq ≠ id) ∧
        (cpRing y.x = true → cpEbm y.x = false → (∃ z ∈ (s.clusterAt c).journal, same z ∧ z.ringN < y.ringN) →
          (∀ z ∈ (s.clusterAt c).journal, same z → z.finished = none) → (∀ z ∈ (s.clusterAt c).journal, z.id = y.id → z.who = y.who → z = y) →
          (∀ i, lm t i = lm s i) ∧ found t { y with finished := some w }) ∧
        (wsid ≠ 0 → 2 ≤ st → (s.setLog.map fun x => (x.line, x.own)).Nodup → ∀ x ∈ s.setLog, (∃ z ∈ x.writes, z.1 = y.seq) → ((s.lineAt x.line).tentOf x.own).isSome = true →
          ((∀ z ∈ x.writes, z.1 = y.seq) → (t.lineAt x.line).tentOf x.own = none) ∧
          ((∃ z ∈ x.writes, z.1 ≠ y.seq) → Memory.wf x.base.data = true → ∃ v, (t.lineAt x.line).tentOf x.own = some v ∧ ∀ i, Mem.byte v.data i =
            match (x.writes.filter fun z => z.1 != y.seq).reverse.find? (fun z => decide (z.2.1 ≤ i) && decide (i < z.2.1 + z.2.2.1.length)) with
            | some z => z.2.2.1.getD (i - z.2.1) 0
            | none => Mem.byte x.base.data i)) ∧
        (key ≠ 0 → y.fault = none → accepted → ∀ z, Tbl.find s.keys key = some z → Tbl.find t.keys key = some (z.record (bigNat ((y.desc.take 12).drop 4)))))


/-! Traps, system instructions and holds (13 R407-R428, 14 R449-R455). -/

/-- 13 R414-R418, R420, R422: a trap that its process handles saves the reported and the faulting PC, INFO, cause and restart count, sets H and MODE and goes to TRH; else the process is parked, the state it leaves remembered (01 R20), and its
64-byte descriptor goes to the fault channel (a steward's to the fault log). TRAP and BRK report the next head; ERET returns. Model's choices: log entry 9 (where the fault log maps). -/
def Obligations.TrapDelivery : Prop :=
  ∀ (s : State) (g k : Nat) (p : Proc) (cause : Cause) (info : Word), s.Runs g k p →
    let handled (c : Cause) : Prop := p.h = false ∧ p.ten.getLsbD c.code.toNat = true ∧ p.trh ≠ 0
    let next := s.next g p
    let parked (t : State) (pc : Pc) : Prop := (t.procAt g k).pkt = true ∧ (t.procAt g k).state = p.state ∧ (t.procAt g k).pc = pc ∧
      (∀ r, (t.procAt g k).reg r = p.reg r) ∧ (t.coreAt g).run = none
    let describes (h : Hdr) (rpc fpc : Pc) (info : Word) (code : Nat) : Prop := h.bytes.length = 64 ∧ h.bytes.take 8 = natBytes 8 (s.pref g k).word.toNat ∧
      (h.bytes.drop 8).take 8 = natBytes 8 rpc.toNat ∧ (h.bytes.drop 16).take 8 = natBytes 8 fpc.toNat ∧ (h.bytes.drop 24).take 8 = natBytes 8 info.toNat ∧
      h.bytes[32]? = some (BitVec.ofNat 8 code) ∧ h.ek = 1 ∧ h.len = 64
    let channel := s.partAt p.part
    (let t := s.trap g k p cause info
     (handled cause → t.procAt g k = { p with
        tpc := p.pc, tfpc := p.pc, tinfo := info, tcause := cause.code, tcode := if cause = .break_ then 0 else p.tcode
        tvrc := if p.vrpc = p.pc then p.vrc else 0, vrc := 0, h := true, mode := true, pc := p.trh, lastPc := p.pc, wait := .none, blk := .none
        deadline := Config.never } ∧ (t.coreAt g).fb.entered = false ∧ (∀ j, j ≠ k → t.procAt g j = s.procAt g j) ∧ (∀ x, x ≠ g → t.coreAt x = s.coreAt x) ∧
        { t with cores := s.cores, madder := s.madder } = s) ∧
     (¬handled cause → p.stw = false → parked t p.pc ∧ ∃ h, t.net = s.net ++ [{ src := .core g, dst := .core channel.steward, body := .header channel.fcidx h }] ∧
        describes h p.pc p.pc info cause.code.toNat) ∧
     (¬handled cause → p.stw = true → parked t p.pc ∧
        (((s.fnAt p.part).faultWait = [] ∧ ((s.fnAt p.part).flprod - (s.fnAt p.part).flcons).toNat < 64 → (t.fnAt p.part).flprod = (s.fnAt p.part).flprod + 1) ∧
          ((s.fnAt p.part).faultWait ≠ [] ∨ 64 ≤ ((s.fnAt p.part).flprod - (s.fnAt p.part).flcons).toNat →
            (t.fnAt p.part).faultWait.length = (s.fnAt p.part).faultWait.length + 1)))) ∧
    (∀ w, exec (.unallocatedOpcode w) s = .next (s.trap g k p .illegal 0)) ∧
    (let breaks (i : Instr) (v : Word) (code : BitVec 12) : Prop := ∃ t, exec i s = .next t ∧
       (handled .break_ → (t.procAt g k).tpc = next ∧ (t.procAt g k).tfpc = p.pc ∧ (t.procAt g k).tinfo = v ∧ (t.procAt g k).tcause = 15 ∧
         (t.procAt g k).tcode = code ∧ (t.procAt g k).pc = p.trh ∧ (t.procAt g k).h = true) ∧
       (¬handled .break_ → p.stw = false → parked t next ∧
         ∃ h, { src := .core g, dst := .core channel.steward, body := .header channel.fcidx h } ∈ t.net ∧ describes h next p.pc v 15)
     breaks .brk 0 0 ∧ ∀ a i, p.awaits [a] = false → breaks (.trap a i) (p.reg a) i) ∧
    (p.mode = false → exec .eret s = .next (s.trap g k p .priv 0)) ∧
    (p.mode = true → p.h = false → exec .eret s = .next (s.trap g k p .illegal 0)) ∧
    (p.mode = true → p.h = true →
      exec .eret s = .next (s.jump g k { p with vrc := p.tvrc, vrpc := p.tpc, tvrc := 0, h := false, mode := p.stw } p.tpc))

/-- 08 R313, R318, R319, 01 R43, R63: TIME reads the time base, RDEN the energy total of a dye or of its partition (none of another partition), RDSV a system value. 13 R407, R411, R412, R421, R423-R428: control registers are read and written by their checks; RESUME and KILL act on a parked process; MINT makes a capability of a range its partition may name; RIGHTS only takes
rights away; PLBINV, IFENCE, WAITI and QUIESCE. A process that is no steward traps PRIV where only a steward may act, before any operand is read; its own flags wait for its tile commands and its AFADDs (04 R177, 07 R264). The model's choices: log entries 56 (PREF bits, INFO of MINT, KWR of PC), 74 (RDEN of a partition rounds the sum once), 32 (RESUME of a process that a hold has parked too). -/
def Obligations.SystemResults : Prop :=
  (∀ (s : State) (g k : Nat) (p : Proc) (a b : Reg), s.Runs g k p →
     let gives (i : Instr) (v : Word) : Prop := exec i s = .next (s.retire g k (p.setReg a v))
     (p.awaits [a] = false →
       gives (.time a) s.time ∧ gives (.rdsv a 0) (BitVec.ofNat 64 g) ∧ gives (.rdsv a 4) (BitVec.ofNat 64 (g / 16)) ∧
       gives (.rdsv a 6) (s.bring.pkgid.setWidth 64) ∧ gives (.rdsv a 7) (BitVec.ofNat 64 p.part) ∧ gives (.rdsv a 8) (p.dye.setWidth 64) ∧
       gives (.rdsv a 9) (p.pri.setWidth 64) ∧ gives (.rdsv a 10) (p.repl.setWidth 64) ∧ ∀ f, ∃ v, gives (.rdsv a f) v) ∧
     (p.awaits [a, b] = false →
       let d := (p.reg b).toNat
       ∀ f, (2 ^ 16 ≤ d → exec (.rden a b f) s = .next (s.trap g k p .bounds 0)) ∧
         (d < 2 ^ 16 → d / 2 ^ 12 ≠ p.part → exec (.rden a b f) s = .next (s.trap g k p .rights 0)) ∧
         (d < 2 ^ 16 → d / 2 ^ 12 = p.part → ∃ t, exec (.rden a b f) s = .next t ∧
           t.Leaves g k (p.setReg a (BitVec.ofNat 64 ((if f then s.madder.partTotal p.part else s.madder.total d) / 256)))))) ∧
  (∀ (s : State) (g k : Nat) (p : Proc) (a b c : Reg), s.Runs g k p →
     let part := s.partAt p.part
     let priv (i : Instr) : Prop := p.stw = false → exec i s = .next (s.trap g k p .priv 0)
     let gives (i : Instr) (v : Word) : Prop := exec i s = .next (s.retire g k (p.setReg a v))
     let r := prefOf (p.reg b)
     let status (i : Instr) (v : Word) : Prop := ∃ t, exec i s = .next t ∧ t.Leaves g k (p.setReg a v) ∧ { t with cores := s.cores, madder := s.madder } = s
     (∀ i ∈ [Instr.waiti a, .quiesce a false, .quiesce a true, .resume a b, .kill a b, .plbinv b c], priv i) ∧
     (∀ n : BitVec 11, (256 ≤ n.toNat → n.toNat ≤ 258 → priv (.krd a b false n)) ∧ (n.toNat < 16 → priv (.krd a b true n))) ∧
     (p.awaits [a] = false →
       (∀ n : BitVec 11, 15 < n.toNat → n.toNat < 256 ∨ 258 < n.toNat → exec (.krd a b false n) s = .next (s.trap g k p .illegal 0)) ∧
       gives (.krd a b false 0) ((s.next g p).setWidth 64) ∧
       (∀ n : BitVec 11, 0 < n.toNat → n.toNat < 16 → (n.toNat = 1 → s.tilePending (s.pref g k) = false ∧ ∀ x ∈ p.outs, x.flags = false) → gives (.krd a b false n) (p.psb n.toNat)) ∧
       (s.tilePending (s.pref g k) = true ∨ (∃ x ∈ p.outs, x.flags = true) → exec (.krd a b false 1) s = .next s) ∧
       (p.stw = true → gives (.krd a b false 258) p.deadline) ∧
       (∀ n : BitVec 11, n.toNat ∉ [1, 2, 5, 6, 7] → exec (.kwr a b false n) s = .next (s.trap g k p .illegal 0)) ∧
       (p.stw = false → let w := p.reg a
         exec (.kwr a b false 1) s = .next (s.retire g k { p with ten := w.extractLsb' 16 16 &&& 0xFFFE, flags := w.extractLsb' 9 5 }) ∧
         exec (.kwr a b false 2) s = .next (s.retire g k { p with dmk := w.setWidth 16 &&& 0x3FFF }) ∧
         exec (.kwr a b false 5) s = .next (s.retire g k { p with trh := w.setWidth 52 }) ∧
         exec (.kwr a b false 6) s = .next (s.retire g k { p with tpc := w.setWidth 52, tvrc := 0 }) ∧
         exec (.kwr a b false 7) s = .next (s.retire g k { p with tinfo := w })) ∧
       (p.stw = true →
         (part.doorbell ≠ 0 → exec (.waiti a) s = .next ((s.setPart p.part { part with doorbell := 0 }).retire g k (p.setReg a part.doorbell))) ∧
         (part.doorbell = 0 → ∃ t, exec (.waiti a) s = .next t ∧ t.Blocks g k p .chan (.doorbell p.pc a)) ∧
         (∃ t, exec (.quiesce a true) s = .next t ∧ t.Leaves g k (p.setReg a (if part.cqsc then 0 else 1)) ∧ t.partAt p.part = { part with cqsc := false }) ∧
         (p.wait = .none → ∃ t, exec (.quiesce a false) s = .next t ∧ (t.partAt p.part).cqsc = true ∧ (t.partAt p.part).stopping = true) ∧
         (∀ was, p.wait = .quiesce p.pc was → part.cqsc = true → s.holdSettled p.part false = true → gives (.quiesce a false) (if was then 1 else 0)) ∧
         (∀ was, p.wait = .quiesce p.pc was → part.cqsc = true → s.holdSettled p.part false = false → exec (.quiesce a false) s = .next s))) ∧
     (p.awaits [a, b] = false →
       (p.stw = true → s.coreInPart p.part r.g = false → exec (.krd a b true 0) s = .next (s.trap g k p .rights 0) ∧
         exec (.resume a b) s = .next (s.trap g k p .rights 0) ∧ exec (.kill a b) s = .next (s.trap g k p .rights 0)) ∧
       (p.stw = true → s.coreInPart p.part r.g = true → s.find r = none → exec (.krd a b true 0) s = .next (s.trap g k p .closed 0) ∧
         status (.resume a b) 1 ∧ status (.kill a b) 1) ∧
       (∀ q, p.stw = true → s.coreInPart p.part r.g = true → s.find r = some q → (r.g, r.slot) ≠ (g, k) →
         (q.pkt = false → q.pkh = false → exec (.krd a b true 0) s = .next (s.trap g k p .type 0) ∧ status (.kill a b) 2) ∧
         (q.pkt = false → status (.resume a b) 2) ∧
         (q.pkt = true → status (.krd a b true 0) (q.pc.setWidth 64) ∧
           (∃ t, exec (.kwr a b true 0) s = .next t ∧ (t.procAt r.g r.slot).pc = (p.reg a).setWidth 52 ∧ (t.procAt r.g r.slot).vrc = 0 ∧ t.Leaves g k p) ∧
           (∃ t, exec (.resume a b) s = .next t ∧ (t.procAt r.g r.slot).pkt = false ∧ (t.procAt r.g r.slot).state = .ready ∧ r.slot ∈ (t.coreAt r.g).rq q.pri) ∧
           (q.xv = true → (s.epAt r.g q.xidx.toNat).exit = true → (s.epAt r.g q.xidx.toNat).child = some r.slot → q.xidx.toNat ∉ (s.coreAt r.g).owned r.slot →
             ∃ t h, exec (.kill a b) s = .next t ∧ (t.procAt r.g r.slot).state = .stopped ∧ (t.procAt r.g r.slot).pkt = false ∧
               { src := .core r.g, dst := .core r.g, body := .header q.xidx.toNat h } ∈ t.net ∧ h.failed = true)))) ∧
     (p.awaits [a, oddOf a, b, c] = false →
       let base := p.reg b
       let n := (p.reg c).toNat
       (∀ f, (2 ^ 52 ≤ base.toNat ∨ n < 1 ∨ 64 < n → exec (.mintGroup a b c f) s = .next (s.trap g k p .bounds base)) ∧
         (base.toNat < 2 ^ 52 → 1 ≤ n → n ≤ 64 → base.toNat % 16 ≠ 0 → exec (.mintGroup a b c f) s = .next (s.trap g k p .align base)) ∧
         (base.toNat < 2 ^ 52 → 1 ≤ n → n ≤ 64 → base.toNat % 16 = 0 → s.rangeHas p.part (rightR + rightM) base.toNat (16 * n) = false →
           exec (.mintGroup a b c f) s = .next (s.trap g k p .rights base)) ∧
         (base.toNat < 2 ^ 52 → 1 ≤ n → n ≤ 64 → base.toNat % 16 = 0 → s.rangeHas p.part (rightR + rightM) base.toNat (16 * n) = true →
           ∃ h : BitVec 128, exec (.mintGroup a b c f) s = .next (s.retire g k (p.setPair a (h.setWidth 64) (h.extractLsb' 64 64) true)) ∧ hCk h = 2 ∧
             (h.extractLsb' 120 4).toNat = p.part ∧ (h.extractLsb' 114 6).toNat = n - 1 ∧ h.getLsbD 113 = f.getLsbD 0 ∧ h.getLsbD 112 = f.getLsbD 1 ∧
             (h.extractLsb' 64 48).toNat * 16 = base.toNat)) ∧
       (∀ f, let fits : Prop := base.toNat < 2 ^ 52 ∧ 1 ≤ n ∧ n ≤ 2 ^ 44 ∧ (2 ^ 51 ≤ base.toNat ∨ base.toNat + n ≤ 2 ^ 51) ∧ base.toNat + n ≤ 2 ^ 52
         (¬fits → exec (.mintFarPointer a b c f) s = .next (s.trap g k p .bounds base)) ∧
         (fits → s.rangeHas p.part (farNeed f) base.toNat n = false → exec (.mintFarPointer a b c f) s = .next (s.trap g k p .rights base)) ∧
         (fits → s.rangeHas p.part (farNeed f) base.toNat n = true →
           ∃ h : BitVec 128, exec (.mintFarPointer a b c f) s = .next (s.retire g k (p.setPair a (h.setWidth 64) (h.extractLsb' 64 64) true)) ∧ hCk h = 3 ∧
             (h.extractLsb' 120 4).toNat = p.part ∧ h.extractLsb' 108 12 = s.bring.pkgid ∧ h.getLsbD 107 = f.getLsbD 0 ∧ h.getLsbD 106 = f.getLsbD 1 ∧
             h.getLsbD 105 = f.getLsbD 2 ∧ h.getLsbD 104 = f.getLsbD 3 ∧ h.extractLsb' 96 8 = part.farEpoch ∧ (h.extractLsb' 52 44).toNat = n - 1 ∧
             (h.extractLsb' 0 52).toNat = base.toNat))) ∧
     (p.awaits [a, oddOf a, b, oddOf b, c] = false →
       let h := p.pair b
       (p.pairTag b = false → exec (.rights a b c) s = .next (s.trap g k p .captag 0)) ∧
       (p.pairTag b = true → hCk h < 1 ∨ 3 < hCk h → exec (.rights a b c) s = .next (s.trap g k p .type 0)) ∧
       (p.pairTag b = true → 1 ≤ hCk h → hCk h ≤ 3 → ∃ x : BitVec 128,
         exec (.rights a b c) s = .next (s.retire g k (p.setPair a (x.setWidth 64) (x.extractLsb' 64 64) true)) ∧
         (∀ i < 128, x.getLsbD i = true → h.getLsbD i = true) ∧ (p.reg c = -1 → x = h) ∧
         (hCk h = 1 → x.getLsbD 68 = (h.getLsbD 68 && (p.reg c).getLsbD 0) ∧ x.getLsbD 67 = (h.getLsbD 67 && (p.reg c).getLsbD 1) ∧
           x.getLsbD 66 = (h.getLsbD 66 && (p.reg c).getLsbD 2)))) ∧
     (p.awaits [b, c] = false →
       let base := p.reg b
       let len := (p.reg c).toNat
       (p.stw = true → 2 ^ 52 ≤ base.toNat ∨ (0 < len ∧ 2 ^ 52 < base.toNat + len) → exec (.plbinv b c) s = .next (s.trap g k p .bounds base)) ∧
       (p.stw = true → base.toNat < 2 ^ 52 → base.toNat + len ≤ 2 ^ 52 → ∃ t, exec (.plbinv b c) s = .next t ∧ t.Leaves g k p ∧
         ∀ x ∈ s.partCores p.part, ∀ i ∈ (t.coreAt x).plb, ∀ lo n f, domainEntry (Tbl.get 0 part.domains i) = some (lo, n, f) → 0 < len →
           overlaps lo n base.toNat len = false)) ∧
     ∃ t, exec .ifence s = .next t ∧ t.Leaves g k p ∧ (t.coreAt g).fb = FetchBuf.empty)


/-! The host, launches and harvests (14 R430-R449, 16 R495, R496, 17 R520-R523). -/

/-- 13 R427, 14 R430, R432, R447, R449, 15 R461, 16 R495, R496, 17 R508, 18 R527: what the host writes to a live function's registers is read back or does what that register does; a read or write through the window
reaches the bytes of the line, goes on to another package, is kept behind an older one, or is turned away; the walks that it takes are charged, so the meters and a cluster's translation cache are left open where one
may be. Model's choices: log entries 29 (CTXBASE), 46 (poisoned lines), 59 (a write that cannot be made) and 78 (the window's cluster and dye, reads of another package). -/
def Obligations.HostRegisterResults : Prop :=
  ∀ (s : State) (fn : Nat) (w : Word),
    let f := s.fnAt fn
    let x := s.partAt fn
    let d := x.doorbell ||| w
    let plain := [0x00, 0x08, 0x30, 0x38, 0x50, 0x68, 0x2008, 0x2010, 0x2018, 0x2020, 0x4000, 0x4040, 0x4050, 0xA000, 0xA008, 0xA010]
    let takes (fn off : Nat) (v : Word) : Prop := ∀ pf, off ≠ 0x68 ∨ pf = true ∨ fn = 0 → ∃ t, exec (.registerWrite ⟨fn, pf⟩ off w) s = .next t ∧ t.readReg fn off = some v
    (s.bring.state ≠ .booting → takes 0 0xB068 w ∧ takes 0 0xB070 (w &&& 0xFFFFFFFF)) ∧
    (s.fnLive 0 = true → takes 0 0x5008 w ∧ takes 0 0x7008 (if w.getLsbD 0 then 1 else 0) ∧ (∀ i < 8, takes 0 (0x6008 + 16 * i) (w &&& 0xFFFFFFFF)) ∧
      ∀ v < 256, ∀ pf, let pool := w.extractLsb' 8 2
        let x := s.serverAt v
        ∃ t, exec (.registerWrite ⟨0, pf⟩ (0x8000 + 16 * v) w) s = .next t ∧
          (pool ≠ 3 → pool ≠ x.poolCfg → serverEntries s.ranges v ≠ [] → t.serverAt v = x) ∧
          (pool = 3 ∨ pool = x.poolCfg ∨ serverEntries s.ranges v = [] →
            t.serverAt v = { x with poolCfg := if pool = 3 then x.poolCfg else pool, spthr := w.setWidth 8 })) ∧
    (fn ≠ 0 → s.fnLive fn = true → exec (.registerWrite ⟨fn, false⟩ 0x68 w) s = .next s) ∧
    (s.fnLive fn = true →
      (∀ off ∈ plain, takes fn off (if off = 0x38 then w &&& 0x1F else if off = 0xA000 then w &&& 0xFFFFFFFFFFFFF else w) ∧
        ∀ pf, off ≠ 0x68 ∨ pf = true ∨ fn = 0 → ∃ t, exec (.registerWrite ⟨fn, pf⟩ off w) s = .next t ∧ { t with fns := s.fns } = s ∧
          ∀ other, other ≠ fn → t.fnAt other = s.fnAt other) ∧
      exec (.crcons fn w) s = .next (s.setFn fn { f with crcons := w }) ∧
      (∃ t, exec (.netdel fn w) s = .next t ∧ t = s.setFn fn { f with nets := Tbl.del f.nets (bitsOf w.toNat 23 0) }) ∧
      (s.doorWaiters fn = [] → exec (.dbell fn w) s = .next (s.setPart fn { x with doorbell := d })) ∧
      (∀ g k a rest, s.doorWaiters fn = (g, k, a) :: rest → d ≠ 0 →
        ∃ t, exec (.dbell fn w) s = .next t ∧ (t.partAt fn).doorbell = 0 ∧ (t.procAt g k).reg a = d ∧ (t.procAt g k).blk = .none) ∧
      (x.node ≠ 0 → w.getLsbD 0 = true → x.chst = false → ∃ t, exec (.hold fn w) s = .next t ∧ (t.partAt fn).chst = true ∧ (t.partAt fn).stopping = true ∧
        (t.partAt fn).full = true) ∧
      (x.node ≠ 0 → w.getLsbD 0 = false → exec (.hold fn w) s = .next (s.setPart fn { x with chst := false })) ∧
      (∀ r p, s.stewardAt fn w = some (r, p) → p.pkt = true → ∃ t, exec (.sres fn w) s = .next t ∧ (t.procAt r.g r.slot).pkt = false ∧ (t.procAt r.g r.slot).state = .ready) ∧
      (∀ r p, s.stewardAt fn w = some (r, p) → p.pkt = true ∨ p.pkh = true → p.xv = false →
        ∃ t, exec (.skill fn w) s = .next t ∧ (t.procAt r.g r.slot).state = .stopped ∧ (t.procAt r.g r.slot).pkt = false) ∧
      (f.faultWait = [] → exec (.flcons fn w) s = .next (s.setFn fn { f with flcons := w })) ∧
      (∀ e, f.faultWait = [e] → (f.flprod - w).toNat < 64 → ∃ t, exec (.flcons fn w) s = .next t ∧ (t.fnAt fn).faultWait = [] ∧ .msix fn 2 ∈ t.hostOut)) ∧
    (∀ (a n : Nat) (bytes : List Byte), s.fnLive fn = true → 0 < n → a + n ≤ 2 ^ 36 → bytes.length = n → s.upsets = [] →
      let u := s.hostUnit fn
      let paid (t : State) : State := { t with madder := s.madder, clusters := s.clusters, freeCtr := s.freeCtr }
      let unsupported : Prop := ∃ t, exec (.bar2Read fn a n) s = .next t ∧ t.hostOut = s.hostOut ++ [.unsupported fn] ∧ { paid t with hostOut := s.hostOut, devFar := s.devFar } = s
      let dropped : Prop := ∃ t, exec (.bar2Write fn a bytes) s = .next t ∧ paid t = s.setFn fn { f with fldrop := f.fldrop + 1 }
      (s.rangeHas fn rightR a n = false → exec (.bar2Read fn a n) s = .next { s with hostOut := s.hostOut ++ [.unsupported fn] }) ∧
      (s.rangeHas fn rightW a n = false → exec (.bar2Write fn a bytes) s = .next (s.setFn fn { f with fldrop := f.fldrop + 1 })) ∧
      (s.rangeHas fn rightW a n = true → s.unitWaits u (splitLines (n / 128 + 2) a n) = true → exec (.bar2Write fn a bytes) s = .next s) ∧
      (s.unitWaits u (splitLines (n / 128 + 2) a n) = false → s.hostMay u a n = false → dropped) ∧
      (∀ t, s.rangeHas fn rightR a n = true → s.devAsk u a n = some t → exec (.bar2Read fn a n) s = .next t) ∧
      (a % 128 + n ≤ 128 → s.walkWaits fn u.cluster a = false →
        (∀ c, (s.translate fn u.cluster u.dye a).1 = .error c → unsupported ∧ dropped) ∧
        (∀ v o, (s.translate fn u.cluster u.dye a).1 = .ok (.hbm v o) → (s.lineAt (o / 128)).prep = none →
          let line := (s.lineAt (o / 128)).current (s.serverAt v).v
          (s.rangeHas fn rightR a n = true → line.poison = false → ∃ t, exec (.bar2Read fn a n) s = .next t ∧
            t.hostOut = s.hostOut ++ [.readData fn (Mem.read line.data (o % 128) n)] ∧ { paid t with hostOut := s.hostOut } = s) ∧
          (s.rangeHas fn rightW a n = true → s.devBehind u a = false → ∃ t0 : State, paid t0 = s ∧
            exec (.bar2Write fn a bytes) s = .next (t0.hbmWrite v o bytes false (BitVec.ofNat 16 (4096 * fn)) 0).1)) ∧
        (∀ l, (s.translate fn u.cluster u.dye a).1 = .ok l → s.rangeHas fn rightW a n = true → s.hostMay u a n = true → s.devBehind u a = true →
          exec (.bar2Write fn a bytes) s = .next { s with devHeld := s.devHeld ++ [{ u := u, dva := a, bytes := bytes }] }) ∧
        (∀ b c d o, (s.translate fn u.cluster u.dye a).1 = .ok (.far b c d o) → s.rangeHas fn rightW a n = true → s.farCheck fn a n 1 = none → s.devBehind u a = false →
          ∃ t r y, exec (.bar2Write fn a bytes) s = .next t ∧ t.net = s.net ++ [{ src := .host, dst := .egress, body := .req r }] ∧ r.loc = .far b c d o ∧
            r.op = .write bytes false none 0 ∧ t.devFar = s.devFar ++ [y] ∧ y.oid = r.oid ∧ y.write = true)))

/-- 14 R432, R436-R439, R446-R448, 01 R65-R67, 17 R520, R521: registration, LAUNCH and its start, ABORT, sweeps and the end they bring, completion records, and a harvest from HVGO to its end. Model's choices: log entries 33 (a registration is one step), 35, 36, 57 (placement, records, harvests), 59 (an event whose condition fails) and 78 (what NRGO waits for, and its unit). -/
def Obligations.LaunchResults : Prop :=
  ∀ (s : State) (fn : Nat) (w : Word),
    let f := s.fnAt fn
    let x := s.partAt fn
    let refusal (lid st : Nat) (w : Word) : Rec := { bytes := recordBytes lid st 0 (bitsOf w.toNat 63 40) s.time s.time 0 0 0 0 0, report := none, behind := [] }
    (s.fnLive fn = true → f.nrBusy = false →
      let u := firmware fn (clusterOf x.steward) (BitVec.ofNat 16 (4096 * fn))
      let dva := f.nrsrc.toNat % 2 ^ 52
      let may (n : Nat) : Bool := s.rangeHas fn rightR dva n
      let object := (s.readObject u dva may).1
      let fails (st : Nat) : Prop := ∃ t, exec (.nrgo fn) s = .next t ∧ (t.fnAt fn).nrStatus = BitVec.ofNat 8 st ∧ (t.fnAt fn).nrHandle = 0 ∧
        (t.fnAt fn).nets = f.nets ∧ { t with fns := s.fns, madder := s.madder, devFar := s.devFar, clusters := s.clusters, freeCtr := s.freeCtr } = s
      (∀ t, s.askObject u dva may = some t → exec (.nrgo fn) s = .next t) ∧
      (s.askObject u dva may = none → s.upsets = [] →
        (object.bind parseObject = none → fails 1) ∧
        ∀ o, object.bind parseObject = some o →
          let net := o.stored f.nrdata
          let st := s.checkNet fn { o with net := net } f.nrdata.toNat
          (st ≠ 0 → fails st) ∧
          (st = 0 → 256 ≤ f.nets.length ∨ 0xFFFFFF < f.nextHandle → fails 7) ∧
          (st = 0 → f.nets.length < 256 → f.nextHandle ≤ 0xFFFFFF → ∃ t, exec (.nrgo fn) s = .next t ∧ (t.fnAt fn).nrStatus = 0 ∧
            (t.fnAt fn).nrHandle = BitVec.ofNat 24 f.nextHandle ∧ (t.fnAt fn).nextHandle = f.nextHandle + 1 ∧
            Tbl.find (t.fnAt fn).nets f.nextHandle = some net))) ∧
    (s.fnLive fn = true → ∃ t, exec (.launch fn w) s = .next t ∧ { t with fns := s.fns } = s ∧ (t.fnAt fn).nextLid = f.nextLid % 0xFFFF + 1 ∧
      if x.node = 0 ∨ 16 ≤ f.queue.length then (t.fnAt fn).queue = f.queue ∧ (t.fnAt fn).records = f.records ++ [refusal f.nextLid 4 w]
      else (t.fnAt fn).queue = f.queue ++ [(f.nextLid, w, Tbl.find f.nets (bitsOf w.toNat 63 40))] ∧ (t.fnAt fn).records = f.records) ∧
    (∀ lid v net rest, s.fnLive fn = true → s.bring.placement = true → f.queue = (lid, v, net) :: rest →
      let turned (st : Nat) : Prop := ∃ t, exec (.launchStart fn) s = .next t ∧ (t.fnAt fn).queue = rest ∧
        (t.fnAt fn).records = f.records ++ [refusal lid st v] ∧ { t with fns := s.fns } = s
      (net = none → turned 3) ∧
      (∀ n, net = some n → n.place true (s.eligible fn) = none → turned 5) ∧
      (∀ n plan, net = some n → n.place true (s.eligible fn) = some plan → s.placeHomes fn plan n.homes [] = none → turned 5) ∧
      ∀ n plan homes, net = some n → n.place true (s.eligible fn) = some plan → s.placeHomes fn plan n.homes [] = some homes →
        (x.stopping = true → exec (.launchStart fn) s = .next s) ∧
        (x.stopping = false → (∀ e ∈ plan.flatten, s.coreFree e.1 = true) → ∃ t l, exec (.launchStart fn) s = .next t ∧ t.launches = s.launches ++ [l] ∧
          l.ref = { fn := fn, lid := lid } ∧ l.desc = n ∧ l.net = bitsOf v.toNat 63 40 ∧ l.homes = homes ∧ l.sweep = none ∧ l.agree = 0 ∧ l.aborting = false ∧
          l.tstart = s.time.toNat ∧ (t.fnAt fn).queue = rest ∧ (∀ e ∈ plan.flatten, e.1 ∈ l.cores) ∧
          ∀ e ∈ plan.flatten, (t.coreAt e.1).lid = BitVec.ofNat 16 lid ∧ (t.coreAt e.1).sent = 0 ∧ (t.coreAt e.1).rcvd = 0)) ∧
    (s.fnLive fn = true →
      let lid := bitsOf w.toNat 15 0
      (∀ q, f.queue.find? (fun y => y.1 == lid) = some q → ∃ t, exec (.abort fn w) s = .next t ∧ (t.fnAt fn).queue = f.queue.filter (fun y => y.1 != lid) ∧
        (t.fnAt fn).records = f.records ++ [refusal lid 2 q.2.1] ∧ { t with fns := s.fns } = s) ∧
      (f.queue.find? (fun y => y.1 == lid) = none →
        ∃ t, exec (.abort fn w) s = .next t ∧ ∀ l ∈ t.launches, l.ref = { fn := fn, lid := lid } → l.aborting = true ∧ l.sweep = none)) ∧
    (∀ lid l, let r : LRef := { fn := fn, lid := lid }
      s.launches.find? (fun y => y.ref == r) = some l →
      (∀ g, l.aborting = false → x.stopping = false →
        let v := l.sweep.getD { latched := [], idle := 0, sent := 0, rcvd := 0 }
        g ∈ l.cores → g ∉ v.latched → exec (.frostSweep fn lid g) s = .next (s.mapLaunch r fun y => { y with sweep := some {
          latched := g :: v.latched, idle := v.idle + (if s.idleFor l g then 1 else 0), sent := v.sent + (s.coreAt g).sent.toNat
          rcvd := v.rcvd + (s.coreAt g).rcvd.toNat } })) ∧
      (∀ v, l.sweep = some v → (∀ g ∈ l.cores, g ∈ v.latched) →
        let good : Prop := v.idle = l.cores.length ∧ v.sent = v.rcvd
        (good → l.agree = 1 → l.last = (v.sent, v.rcvd) → ∃ t rec, exec (.sweepResult fn lid) s = .next t ∧ (∀ y ∈ t.launches, y.ref ≠ r) ∧
          rec ∈ (t.fnAt fn).records ∧ rec.bytes.length = 64 ∧ rec.bytes.take 2 = natBytes 2 lid ∧ rec.bytes[2]? = some (if (s.liveProcs l).isEmpty then 0 else 1) ∧
          ∀ g ∈ l.cores, (t.coreAt g).lid = 0) ∧
        (¬(good ∧ l.agree = 1 ∧ l.last = (v.sent, v.rcvd)) → ∃ t l', exec (.sweepResult fn lid) s = .next t ∧
          t.launches = (s.launches.map fun y => if y.ref == r then l' else y) ∧ l' = { l with sweep := none, agree := l'.agree, last := (v.sent, v.rcvd) } ∧
          (l'.agree = 1 ↔ good)))) ∧
    (∀ r rest, (s.launches.all fun l => l.ref.fn != fn || !l.aborting) = true → f.records = r :: rest →
      let size := 2 ^ (f.crctl.toNat % 16)
      let queued : Prop := ∃ o ∈ r.behind, ∃ y ∈ s.inFlight, flightId y = o
      (size ≤ (f.crprod - f.crcons).toNat ∨ queued → exec (.completionRecord fn) s = .next s) ∧
      ((f.crprod - f.crcons).toNat < size → ¬queued → ∃ t, exec (.completionRecord fn) s = .next t ∧ (t.fnAt fn).records = rest ∧
        (t.fnAt fn).crprod = f.crprod + 1 ∧ (f.crctl.getLsbD 4 = true → .msix fn 0 ∈ t.hostOut))) ∧
    (s.fnLive fn = true →
      let e := Tbl.get 0 s.ranges (bitsOf w.toNat 3 0)
      let bad : Prop := f.harvest.isSome = true ∨ e.getLsbD 127 = false ∨ (fn ≠ 0 ∧ rangeOwner e ≠ fn) ∨ (w.getLsbD 4 = true ∧ f.hvprev ≠ 0)
      (bad → exec (.hvgo fn w) s = .next (s.setFn fn { f with hvStatus := 6 })) ∧
      (¬bad → ∃ t q, exec (.hvgo fn w) s = .next t ∧ (t.fnAt fn).hvStatus = 1 ∧ (t.fnAt fn).hvPsn = false ∧ (t.fnAt fn).hvcnt = 0 ∧
        (t.fnAt fn).harvest = some { started := false, entry := bitsOf w.toNat 3 0, dense := w.getLsbD 4, next := rangeBase e, out := 0, bad := [] } ∧
        t.tss.reqs = s.tss.reqs ++ [q] ∧ q.for_ = .harvest fn)) ∧
    (∀ h lines, f.harvest = some h → h.started = true → s.upsets = [] →
      let e := Tbl.get 0 s.ranges h.entry
      let alive : Prop := ∃ y ∈ s.tss.snaps, y.ts = f.hvsnap.toNat ∧ y.tx = false ∧ y.revoked = false
      let ends (st : BitVec 4) : Prop := ∃ t, exec (.harvestEnd fn lines) s = .next t ∧ (t.fnAt fn).hvStatus = st ∧ (t.fnAt fn).harvest = none
      (h.fault = true → ends 5) ∧
      (h.fault = false →
        (¬alive → ends 3) ∧
        (alive → rangeBase e + rangeLen e ≤ h.next →
          (h.tailed = true → s.harvestOut fn = true → exec (.harvestEnd fn lines) s = .next s) ∧
          (h.tailed = true → s.harvestOut fn = false → ends 2) ∧
          (h.tailed = false → match s.harvestWrite fn (hostDye (rangeOwner e)) h.out h.tail with
            | .ok u => (u.harvestOut fn = false → ends 2) ∧
                (u.harvestOut fn = true → ∃ t, exec (.harvestEnd fn lines) s = .next t ∧ (t.fnAt fn).harvest = some { h with tailed := true })
            | .error st => ends st.code)) ∧
        (alive → h.next < rangeBase e + rangeLen e → (s.lineAt (h.next / 128)).snapshot f.hvsnap.toNat = none → ends 3) ∧
        (∀ v, alive → h.next < rangeBase e + rangeLen e → (s.lineAt (h.next / 128)).snapshot f.hvsnap.toNat = some v →
          let read := (s.harvestRead h e v).1
          (f.hvprev ≠ 0 → v.ts ≤ f.hvprev.toNat → lines = 0 →
            ∃ t, exec (.harvestEnd fn 0) s = .next t ∧ (t.fnAt fn).harvest = some { h with next := h.next + 128 } ∧ (t.fnAt fn).hvcnt = f.hvcnt ∧ { t with fns := s.fns } = read) ∧
          (f.hvprev = 0 ∨ f.hvprev.toNat < v.ts → match read.harvestLine fn h e v with
            | .error st => ends st.code
            | .ok _ => lines = 0 → ∃ t k, exec (.harvestEnd fn 0) s = .next t ∧ (t.fnAt fn).hvcnt = f.hvcnt + 1 ∧ (t.fnAt fn).harvest = some k ∧ k.next = h.next + 128 ∧
                k.out = h.out + (if h.dense then 128 else 136) ∧ k.bad = if v.poison then h.bad ++ [h.next] else h.bad))))

/-! Energy and partitions (14 R456, 15 R472-R483). -/

/-- 14 R456, 15 R473-R476, R481-R485: the quota comparison sets CQTA; meters empty into counters that never decrease; the end of a rail's millisecond charges the
standing shares, in a hold too, and its correction factor stays between 0.5 and 2; EQUOTA clears CQTA only above the total; CREATE, DESTROY,
MERGE, SPLIT and RETIRE answer their status and do their work. Model's choices: log entries 33, 39, 40, 41, 55,
59, 76 and 78 (one-step commands, what CREATE keeps, images, status order, units of the factor, commands that cannot begin, standing energies, what CREATE and SPLIT wait for). -/
def Obligations.EnergyAndPartitionResults : Prop :=
  ∀ (s : State),
    let due (p : Nat) : Prop := (s.partAt p).node ≠ 0 ∧ (s.partAt p).cqta = false ∧ (s.partAt p).equota ≤ s.etotal p
    (s.bring.madder = true → (∀ e ∈ s.parts, ¬due e.1) → exec .quotaComparison s = .next s) ∧
    (∀ p x, s.bring.madder = true → s.parts = [(p, x)] → due p → ∃ t, exec .quotaComparison s = .next t ∧ (t.partAt p).cqta = true ∧ (t.partAt p).stopping = true ∧
      (t.partAt p).full = true) ∧
    (∀ u, s.bring.madder = true → ∃ t, exec (.meterFlush u) s = .next t ∧ Tbl.get [] t.madder.meters u = [] ∧ { t with madder := s.madder } = s ∧
      ∀ d, Tbl.get 0 t.madder.counters d =
        Tbl.get 0 s.madder.counters d + (((Tbl.get [] s.madder.meters u).filter fun e => e.1 == d).map (·.2)).sum) ∧
    (∀ (rail measured : Nat), s.bring.madder = true → rail < 4 → s.madder.factors.length = 4 → s.madder.carry.length = 4 → s.madder.charged.length = 4 → s.madder.metered.length = 4 →
      let m := (if rail = 1 then s.poolScrub s.freeCtr else s).madder
      let stand := s.standingShares rail s.freeCtr
      let net : Int := (measured : Int) - ((stand.map (·.2)).sum : Int)
      let d : Int := m.carry.getD rail 0 + net - (m.charged.getD rail 0 : Int)
      let e := m.metered.getD rail 0
      ∃ t, exec (.correctionFactor rail measured) s = .next t ∧ { t with madder := s.madder, freeCtr := s.freeCtr } = s ∧ t.madder.carry[rail]? = some d ∧
        t.madder.charged[rail]? = some 0 ∧ t.madder.metered[rail]? = some 0 ∧
        (∀ y, Tbl.get 0 t.madder.counters y = Tbl.get 0 m.counters y + ((stand.filter fun x => x.1 == y).map (·.2)).sum) ∧
        ∃ n, t.madder.factors[rail]? = some n ∧ 32768 ≤ n ∧ n ≤ 131072 ∧ (e = 0 → n = 65536) ∧
          (0 < e → 32768 * (e : Int) ≤ (net + d) * 65536 → (net + d) * 65536 < 131073 * (e : Int) → (n : Int) = (net + d) * 65536 / e)) ∧
    (∀ p w, s.fnLive 0 = true → p ≤ 15 → ∃ t, exec (.equota p w) s = .next t ∧ (t.partAt p).equota = w ∧ { t with parts := s.parts } = s ∧
      ((t.partAt p).cqta = true ↔ (s.partAt p).cqta = true ∧ w ≤ s.etotal p)) ∧
    (s.pcReady = true →
      let ends (i : Instr) (st : BitVec 8) : Prop := exec i s = .next { s with pcStatus := st }
      let asks := s.askObject firmwareUnit s.pcimg.toNat (imageAt s.pcimg.toNat)
      let image := s.readObject firmwareUnit s.pcimg.toNat (imageAt s.pcimg.toNat)
      (∀ op : BitVec 4, op = 0 ∨ 5 < op → ends (.badOp op) 1) ∧
      (∀ node part, node = 0 ∨ 31 < node → ends (.create node part) 2) ∧
      (∀ node, node = 0 ∨ 15 < node → ends (.merge node) 2 ∧ ∀ part, ends (.split node part) 2) ∧
      (∀ part, (s.partAt part).node = 0 → ends (.destroy part) 5) ∧
      (∀ part, (s.partAt part).node ≠ 0 → s.partIdle part = false → ends (.destroy part) 4) ∧
      (∀ node part, 0 < node → node ≤ 31 →
        (s.partTaken part = true → ends (.create node part) 5) ∧
        (s.partTaken part = false → (∃ j ∈ nodeLeaves node, ∃ e ∈ s.parts, nodeHasLeaf e.2.node j = true) → ends (.create node part) 3) ∧
        (s.partTaken part = false → (∀ j ∈ nodeLeaves node, ∀ e ∈ s.parts, nodeHasLeaf e.2.node j = false) →
          (∀ t, asks = some t → exec (.create node part) s = .next t) ∧
          (asks = none → s.nodeCores node = [] → ends (.create node part) 6) ∧
          ∀ g rest, asks = none → s.nodeCores node = g :: rest →
            match ((nodeLeaves node).foldl State.zeroLeaf image.2).openPart part node g s.pcimg image.1 with
            | none => ends (.create node part) 7
            | some _ => ∃ t, exec (.create node part) s = .next t ∧ t.pcStatus = 0 ∧ (t.partAt part).node = node ∧ (t.partAt part).steward = g ∧ (t.partAt part).domains = [] ∧
                (t.partAt part).equota = -1 ∧ (t.partAt part).held = false ∧
                (t.epAt g (t.partAt part).fcidx).st = .buffered ∧ (t.epAt g (t.partAt part).fcidx).ek = 1 ∧ (t.epAt g (t.partAt part).fcidx).depth = 31)) ∧
      (∀ part, (s.partAt part).node ≠ 0 → s.partIdle part = true → s.stewardsFree part = true →
        ∃ t, exec (.destroy part) s = .next t ∧ t.pcStatus = 0 ∧ (t.partAt part).node = 0 ∧ (t.partAt part).domains = []) ∧
      (∀ node l, 0 < node → node ≤ 15 →
        (∀ r, s.nodeOwner (2 * node) = some l → s.nodeOwner (2 * node + 1) = some r → l ≠ r → l < 16 →
          (s.partIdle l = false ∨ s.partIdle r = false → ends (.merge node) 4) ∧
          (s.partIdle l = true → s.partIdle r = true → s.stewardsFree r = true → ∃ t, exec (.merge node) s = .next t ∧ t.pcStatus = 0 ∧ (t.partAt l).node = node ∧
            (t.partAt r).node = 0 ∧ ∀ e ∈ t.ranges, e.2.getLsbD 127 = true → rangeOwner e.2 ≠ r)) ∧
        (s.nodeOwner node = none → ∀ part, ends (.split node part) 2) ∧
        (∀ part, s.nodeOwner node = some l → part ≠ l →
          (s.partIdle l = false → ends (.split node part) 4) ∧
          (s.partIdle l = true → s.partTaken part = true → ends (.split node part) 5) ∧
          (s.partIdle l = true → s.partTaken part = false → s.nodeCores (2 * node) = [] → ends (.split node part) 6) ∧
          (∀ t, s.partIdle l = true → s.partTaken part = false → s.nodeCores (2 * node) ≠ [] → asks = some t → exec (.split node part) s = .next t) ∧
          (s.partIdle l = true → s.partTaken part = false → s.nodeCores (2 * node) ≠ [] → asks = none →
            match (s.setPart l { s.partAt l with node := 2 * node }).createPart (2 * node + 1) part with
            | .error st => ends (.split node part) (BitVec.ofNat 8 st)
            | .ok _ => ∃ t, exec (.split node part) s = .next t ∧ t.pcStatus = 0 ∧ (t.partAt l).node = 2 * node ∧ (t.partAt part).node = 2 * node + 1))) ∧
      (∀ quad part, quad < 256 →
        ((∀ e ∈ s.parts, nodeHasLeaf e.2.node (quad / 16) = false) → ∃ t, exec (.retire quad part) s = .next t ∧ quad ∈ t.retired ∧ t.pcStatus = 0 ∧ t.pcRetire = none) ∧
        (∀ p x, s.parts.find? (fun e => nodeHasLeaf e.2.node (quad / 16)) = some (p, x) →
          ((∀ g ∈ s.partCores p, quadOf g = quad) → ends (.retire quad part) 6) ∧
          ((∃ g ∈ s.partCores p, quadOf g ≠ quad) → ∃ t, exec (.retire quad part) s = .next t ∧ t.pcRetire = some (quad, p) ∧ (t.partAt p).cres = true ∧
            (t.partAt p).stopping = true ∧ (t.partAt p).held = false)))) ∧
    (∀ quad p part, s.pcRetire = some (quad, p) →
      (s.holdSettled p true = false ∨ s.quadPerformed quad p = false → exec (.retire quad part) s = .next s) ∧
      (s.holdSettled p true = true → s.quadPerformed quad p = true → s.retireQueue = [] → ∃ t, exec (.retire quad part) s = .next t ∧ t.pcRetire = none ∧ t.pcStatus = 0 ∧ quad ∈ t.retired ∧ (t.partAt p).cres = false))

/-! The firmware mailbox (15 R457-R471, 16 R493-R506, 17 R517, R525). -/

/-- 16 R495-R498, R504, R505, 15 R463-R471, R480, 17 R517, R518, R525: a mailbox command ends with its status, sequence number and vector 3, and does its work: leaves mapped and unmapped with their cached translations
gone, domain and range entries, weights, the far map and epoch, queue pairs, a spared row, a poisoned line. What its checks forbid is refused and changes nothing else. Model's choices: log entries 28, 42, 43, 44, 45, 46, 59, 78 and 96 (descriptors, what is refused, where lines stay, commands that cannot begin, what a
command waits for and its unit, an announcement's dye). -/
def Obligations.MailboxResults : Prop :=
  ∀ (s : State) (o : MbOps) (part : Nat), s.fnLive o.fn = true →
    let x := s.partAt part
    let done (t : State) (st : Nat) : Prop := (t.fnAt o.fn).mbStatus = BitVec.ofNat 8 st ∧ (t.fnAt o.fn).mbSeq = o.seqn ∧ (t.fnAt o.fn).mbarg = #v[o.a0, o.a1, o.a2, o.a3] ∧
      .msix o.fn 3 ∈ t.hostOut
    let refused (i : Instr) : Prop := ∃ t, exec i s = .next t ∧ done t 1 ∧ { t with fns := s.fns, hostOut := s.hostOut } = s
    let gone (t : State) (dva n : Nat) : Prop := ∀ c ∈ t.clusters, (∀ y ∈ c.2.tc, overlaps y.1 (2 ^ y.2.2) dva n = false) ∧
      ∀ y ∈ c.2.tp, overlaps (y.2.1 * pointerSpan y.1) (pointerSpan y.1) dva n = false
    let u := s.mailUnit part
    let idx := o.a0.toNat
    (∀ op : BitVec 8, op = 0 ∨ 11 < op → ∃ t, exec (.mailboxBadOp o op) s = .next t ∧ done t 2 ∧ { t with fns := s.fns, hostOut := s.hostOut } = s) ∧
    (o.fn ≠ 0 → refused (.rangeset o) ∧ refused (.ceweight o) ∧ ∀ row lost, refused (.sparerow o ⟨row, lost⟩)) ∧
    (o.fn ≠ 0 → o.a3 ≠ 0 → refused (.ptunmap o) ∧ refused (.domset o) ∧ refused (.farmap o) ∧ refused (.farepoch o) ∧ refused (.qpcreate o) ∧ refused (.qpreset o) ∧
      refused (.poisonset o) ∧ ∀ tables, refused (.ptmap o tables)) ∧
    (o.fn = 0 →
      (s.rangeOk idx (o.a2 ++ o.a1) = false ∨ s.rangeFree idx = false ∨ 16 ≤ idx → refused (.rangeset o)) ∧
      (idx < 16 → s.rangeOk idx (o.a2 ++ o.a1) = true → s.rangeFree idx = true → ∃ t, exec (.rangeset o) s = .next t ∧ done t 0 ∧
        Tbl.get 0 t.ranges idx = o.a2 ++ o.a1 ∧ ∀ j, j ≠ idx → Tbl.get 0 t.ranges j = Tbl.get 0 s.ranges j) ∧
      (Config.numCores ≤ idx ∨ o.a1.toNat < 1 ∨ 8 < o.a1.toNat → refused (.ceweight o)) ∧
      (idx < Config.numCores → 1 ≤ o.a1.toNat → o.a1.toNat ≤ 8 → ∃ t, exec (.ceweight o) s = .next t ∧ done t 0 ∧ (t.coreAt idx).weight = o.a1.setWidth 4 ∧
        ∀ g, g ≠ idx → t.coreAt g = s.coreAt g) ∧
      ∀ row lost, (s.hbmHome o.a1.toNat ≠ some idx → refused (.sparerow o ⟨row, lost⟩)) ∧
        (s.hbmHome o.a1.toNat = some idx → Config.rowOf idx (o.a1.toNat / 128) ≠ rowNum row → exec (.sparerow o ⟨row, lost⟩) s = .next s) ∧
        (s.hbmHome o.a1.toNat = some idx → Config.rowOf idx (o.a1.toNat / 128) = rowNum row → ∃ t, exec (.sparerow o ⟨row, lost⟩) s = .next t ∧ done t 0 ∧
          let map := (s.serverAt idx).remap
          (map.any (remapNames row) = true ∨ 32 ≤ map.length → (t.serverAt idx).remap = map ∧ t.hbm = s.hbm) ∧
          (map.any (remapNames row) = false → map.length < 32 → (t.serverAt idx).remap = map ++ [remapEntry row map.length] ∧
            ∀ line, let l := s.lineAt line
              let hit (y : Ver) : Ver := if l.rowOf idx line y = rowNum row then { y with poison := true } else y
              ((∀ j, (line, j) ∉ lost) ∨ s.hbmHome (line * 128) ≠ some idx → t.lineAt line = l) ∧
              (lost = [(line, 0)] → s.hbmHome (line * 128) = some idx → t.lineAt line = { l with cur := hit l.cur }) ∧
              (∀ j, lost = [(line, j)] → 0 < j → j ≤ l.pool.length → s.hbmHome (line * 128) = some idx → t.lineAt line = { l with pool := l.pool.modify (j - 1) hit }) ∧
              (∀ j, lost = [(line, j)] → l.pool.length < j → s.hbmHome (line * 128) = some idx →
                t.lineAt line = { l with tent := l.tent.modify (j - 1 - l.pool.length) fun y => (y.1, hit y.2) })))) ∧
    (mbPart o = some part →
      (∀ tables z, let e := o.a1
        let dva := o.a0.toNat
        let n := o.a2.toNat * 2 ^ z
        let addr := bitsOf e.toNat 51 12 * 4096
        pageLog (bitsOf e.toNat 7 4) = some z →
        (s.tableHeld dva (leafLevel (bitsOf e.toNat 7 4)).2 n tables = true → exec (.ptmap o tables) s = .next s) ∧
        (s.tableHeld dva (leafLevel (bitsOf e.toNat 7 4)).2 n tables = false →
        (bitsOf e.toNat 1 0 ≠ 2 ∨ bitsOf e.toNat 63 52 ≠ 0 ∨ bitsOf e.toNat 11 8 ≠ 0 ∨ bitsOf e.toNat 3 2 ≠ 0 ∨ dva % 2 ^ z ≠ 0 ∨ addr % 2 ^ z ≠ 0 ∨ 2 ^ 51 < dva + n ∨
          (e.getLsbD 51 = false ∧ s.ownsDpa part 17 addr n = false) ∨
          (e.getLsbD 51 = false ∧ ∃ q < 16, q ≠ part ∧ s.meetsDomains q dva n = true) → refused (.ptmap o tables)) ∧
        (bitsOf e.toNat 1 0 = 2 → bitsOf e.toNat 63 52 = 0 → bitsOf e.toNat 11 8 = 0 → bitsOf e.toNat 3 2 = 0 → dva % 2 ^ z = 0 → addr % 2 ^ z = 0 → dva + n ≤ 2 ^ 51 →
          addr % 2 ^ 51 + n ≤ 2 ^ 51 → (e.getLsbD 51 = true ∨ (s.ownsDpa part 17 addr n = true ∧ ∀ q < 16, q ≠ part → s.meetsDomains q dva n = false)) →
          tables.all s.freshOk = true → ∀ st, s.mapLeaves e dva o.a2.toNat 0 tables = some st →
          ∃ t, exec (.ptmap o tables) s = .next t ∧ done t 0 ∧ gone t dva n))) ∧
      (∀ z, let n := o.a2.toNat * 2 ^ z
        let span := mapSpan o.a1.toNat o.a2.toNat
        (s.tableHeld o.a0.toNat span.2 span.1 [] = true → exec (.ptunmap o) s = .next s) ∧
        (s.tableHeld o.a0.toNat span.2 span.1 [] = false →
        (pageLog o.a1.toNat = none → refused (.ptunmap o)) ∧
        (pageLog o.a1.toNat = some z → o.a0.toNat % 2 ^ z ≠ 0 ∨ 2 ^ 51 < o.a0.toNat + n → refused (.ptunmap o)) ∧
        (pageLog o.a1.toNat = some z → o.a0.toNat % 2 ^ z = 0 → o.a0.toNat + n ≤ 2 ^ 51 →
          ∃ t, exec (.ptunmap o) s = .next t ∧ done t 0 ∧ gone t o.a0.toNat n))) ∧
      (256 ≤ idx ∨ s.domainOk part idx o.a1 = false → refused (.domset o)) ∧
      (idx < 256 → s.domainOk part idx o.a1 = true → ∃ t, exec (.domset o) s = .next t ∧ done t 0 ∧ Tbl.get 0 (t.partAt part).domains idx = o.a1 ∧
        (∀ j, j ≠ idx → Tbl.get 0 (t.partAt part).domains j = Tbl.get 0 x.domains j) ∧
        ((t.fnAt part).tdi ≠ .locked ∧ (t.fnAt part).tdi ≠ .run)) ∧
      (16 ≤ idx → refused (.farmap o)) ∧
      (idx < 16 → o.a2 = 0 → ∃ t, exec (.farmap o) s = .next t ∧ done t 0 ∧ Tbl.find (t.partAt part).farMap idx = none) ∧
      (idx < 16 → o.a2 ≠ 0 → o.a2.toNat % 16 ≠ 0 ∨ 2 ^ 52 ≤ o.a2.toNat + 15 → refused (.farmap o)) ∧
      (idx < 16 → o.a2 ≠ 0 → o.a2.toNat % 16 = 0 → o.a2.toNat + 15 < 2 ^ 52 →
        (∀ t, s.devAskPiece u (o.a2.toNat, 16) (.readCap false) = some t → exec (.farmap o) s = .next t) ∧
        (s.devAskPiece u (o.a2.toNat, 16) (.readCap false) = none → ∀ cap tag, s.farGranule part o.a2.toNat = some (cap, tag) →
          let base := o.a1.toNat
          let n := bitsOf cap.toNat 95 52 + 1
          (tag = false ∨ hCk cap ≠ 3 ∨ base % 65536 ≠ 0 ∨ 2 ^ 51 < base + n ∨ s.domainCovers part 0 257 base n = false ∨
            (∃ e ∈ x.farMap, e.1 ≠ idx ∧ overlaps base n e.2.lbase (bitsOf e.2.cap.toNat 95 52 + 1) = true) → refused (.farmap o)) ∧
          (tag = true → hCk cap = 3 → base % 65536 = 0 → base + n ≤ 2 ^ 51 → s.domainCovers part 0 257 base n = true →
            (∀ e ∈ x.farMap, e.1 ≠ idx → overlaps base n e.2.lbase (bitsOf e.2.cap.toNat 95 52 + 1) = false) →
            ∃ t, exec (.farmap o) s = .next t ∧ done t 0 ∧ Tbl.find (t.partAt part).farMap idx = some { lbase := base, cap := cap }))) ∧
      (∃ t, exec (.farepoch o) s = .next t ∧ done t 0 ∧ t.partAt part = { x with farEpoch := x.farEpoch + 1 }) ∧
      (2 ≤ idx ∨ s.bring.scale.getLsbD idx = false ∨ 2 ^ 52 < o.a1.toNat + 64 ∨ s.rangeHas part rightR o.a1.toNat 64 = false → refused (.qpcreate o)) ∧
      (∀ d q, idx < 2 → s.bring.scale.getLsbD idx = true → o.a1.toNat + 64 ≤ 2 ^ 52 → s.rangeHas part rightR o.a1.toNat 64 = true →
        s.devAsk u o.a1.toNat 64 = none → s.devRead u o.a1.toNat 64 = .ok d → (List.range 256).find? (fun q => (s.qpAt idx q).isNone) = some q →
        let ann := s.epAt (descEndpoint d 2).1 (descEndpoint d 2).2
        (ann.ek ≠ 3 → refused (.qpcreate o)) ∧
        (ann.st ≠ .closed → ann.st ≠ .forwarding → ann.ek = 3 → s.coreInPart part (descEndpoint d 2).1 = true → ∃ t n h, exec (.qpcreate o) s = .next t ∧ done t 0 ∧
          t.qpAt idx q = some n ∧ n.part = part ∧ n.desc = d ∧ n.reqs = [] ∧ n.error = false ∧
          t.net = s.net ++ [{ src := .egress, dst := .core (descEndpoint d 2).1, body := .header (descEndpoint d 2).2 h }] ∧
          h.bytes = natBytes 16 (s.qpHandle part idx q).toNat ∧ h.tag = true)) ∧
      (∀ n, s.qpAt idx o.a1.toNat = some n →
        (n.part ≠ part ∨ n.reqs ≠ [] ∨ n.undelivered ≠ 0 → refused (.qpreset o)) ∧
        (n.part = part → n.reqs = [] → n.undelivered = 0 → ∃ t, exec (.qpreset o) s = .next t ∧ done t 0 ∧ t.qpAt idx o.a1.toNat = none)) ∧
      (s.rangeHas part rightW o.a0.toNat 1 = false → refused (.poisonset o)) ∧
      (o.a0.toNat < 2 ^ 52 → s.rangeHas part rightW o.a0.toNat 1 = true → s.walkWaits part (nodeFirst x.node) o.a0.toNat = true → exec (.poisonset o) s = .next s) ∧
      (∀ v dpa, o.a0.toNat < 2 ^ 52 → s.rangeHas part rightW o.a0.toNat 1 = true → s.walkWaits part (nodeFirst x.node) o.a0.toNat = false → (s.translate part (nodeFirst x.node) 0 o.a0.toNat).1 = .ok (.hbm v dpa) →
        ∃ t, exec (.poisonset o) s = .next t ∧ done t 0 ∧ (t.lineAt (dpa / 128)).cur.poison = true ∧
          (t.lineAt (dpa / 128)).cur.data = ((s.translate part (nodeFirst x.node) 0 o.a0.toNat).2.lineAt (dpa / 128)).cur.data))

/-! Bring-up, Solom Link and scale-out (16 R486-R506, 18 R526-R535). -/

/-- 18 R526-R535, 16 R503: clocks start and the package restarts at step 2 with what the nonvolatile store keeps; the firmware image decides between running and recovery; a pushed image; units report ready, or failed for good; PODCFG
is written once and the pod synchronised once; a function's reset begins with a hold and ends with its partition as CREATE leaves one. Model's choices: log entries 4, 30, 49, 50, 59 and 78 (the root, unstated resets, function reset, late servers, events whose
condition fails, what a function's reset waits for). -/
def Obligations.BringUpResults : Prop :=
  ∀ (s : State),
    let b := s.bring
    let fresh (t : State) : Prop := t.bring.state = .booting ∧ t.cores = [] ∧ t.hbm = [] ∧ t.parts = State.reset.parts ∧ t.fns = State.reset.fns ∧ t.ranges = [] ∧ t.launches = [] ∧
      t.net = [] ∧ t.hostMem = s.hostMem ∧ t.hostOut = s.hostOut ∧ t.retired = s.retired ∧ t.bring.sigLeft = b.sigLeft ∧ (∀ v, (t.serverAt v).ready = false) ∧
      (∀ c, (t.clusterAt c).ready = false)
    (∃ t, exec .perstDeassert s = .next t ∧ fresh t ∧ t.bring.image = b.image ∧ t.cycle = 0 ∧ t.time = 0 ∧ t.bring.minSvn = b.minSvn) ∧
    (∃ t, exec .physicalFunctionReset s = .next t ∧ fresh t ∧ t.time = s.time ∧ t.bring.minSvn = b.minSvn ∧ exec (.functionLevelReset 0) s = .next t) ∧
    (∀ verdict svn raises root, b.pushed = none → b.state = .booting → root % 32768 = 0 → root < 2 ^ 51 →
      (verdict = .good → b.minSvn ≤ svn → exec (.firmwareImageVerified verdict svn raises root) s = .next { s with
        ptroot := root, bring := { b with state := .running, svn := svn, minSvn := if raises then svn else b.minSvn } }) ∧
      (verdict ≠ .good ∨ svn < b.minSvn → exec (.firmwareImageVerified verdict svn raises root) s = .next { s with bring := { b with state := .recovery } })) ∧
    (∀ w ok, b.state ≠ .booting →
      let taken : Prop := b.state = .running ∧ ∃ e ∈ s.parts, e.2.node ≠ 0
      let starts (r : Bring) : Prop := exec (.rcgo 0 w ok) s = .next { s with bring := r }
      (b.pushed ≠ none → exec (.rcgo 0 w ok) s = .next s) ∧
      (b.pushed = none → taken → starts { b with rcstat := 5 }) ∧
      (b.pushed = none → ¬taken → ok = false → starts { b with rcstat := 4 }) ∧
      (b.pushed = none → ¬taken → ok = true → starts { b with rcstat := 1, pushed := some (Mem.read s.hostMem b.rcaddr.toNat b.rclen.toNat) })) ∧
    (∀ verdict svn raises root bytes, b.pushed = some bytes →
      let ends (c : BitVec 4) : Prop := exec (.firmwareImageVerified verdict svn raises root) s = .next { s with bring := { b with rcstat := c, pushed := none } }
      (verdict = .badSig → ends 2) ∧ (verdict = .rollback → ends 3) ∧ (verdict = .dmaError → ends 4) ∧ (verdict = .good → svn < b.minSvn → ends 3) ∧
      (verdict = .good → b.minSvn ≤ svn → ∃ t, exec (.firmwareImageVerified verdict svn raises root) s = .next t ∧ fresh t ∧ t.bring.rcstat = 6 ∧
        t.bring.image = bytes ∧ t.bring.pushed = none ∧ t.bring.minSvn = if raises then svn else b.minSvn)) ∧
    (b.state = .running → ∀ pass bad,
      (∀ c, c < Config.numClusters → (s.clusterAt c).ready = false → (s.clusterAt c).failed = false →
        ∃ t, exec (.unitReady (.cluster c) pass bad) s = .next t ∧
          (∀ q ∈ bad, q / 4 = c → q ∈ t.retired) ∧
          (pass = false ∨ (∀ i < 4, 4 * c + i ∈ s.retired ∨ 4 * c + i ∈ bad) → (t.clusterAt c).failed = true ∧ (t.clusterAt c).ready = false) ∧
          (pass = true → (∀ q ∈ bad, q / 4 ≠ c) → (∃ i < 4, 4 * c + i ∉ s.retired) → (t.clusterAt c).ready = true ∧ (t.clusterAt c).cm = [] ∧ t.retired = s.retired)) ∧
      (∀ v, v < Config.numServers → (s.serverAt v).ready = false → (s.serverAt v).failed = false →
        ∃ t, exec (.unitReady (.server v) pass bad) s = .next t ∧ (t.serverAt v).ready = pass ∧ (t.serverAt v).failed = !pass ∧
          ((t.serverAt v).remap = (s.serverAt v).remap)) ∧
      (∀ u, (∃ c, u = .cluster c ∧ (s.clusterAt c).failed = true) ∨ (∃ v, u = .server v ∧ (s.serverAt v).failed = true) → exec (.unitReady u pass bad) s = .next s) ∧
      exec (.unitReady .timestampService true bad) s = .next { s with tss := { s.tss with ready := true } } ∧
      exec (.unitReady .madder true bad) s = .next { s with bring := { b with madder := true } } ∧
      exec (.unitReady .placement true bad) s = .next { s with bring := { b with placement := true } } ∧
      (∀ i < 2, ∃ t, exec (.unitReady (.scalePort i) true bad) s = .next t ∧ t.bring.scale.getLsbD i = true) ∧
      (∀ i p, i < 8 → b.podWritten = true → (s.portAt i).ready = false → neighbour b.sizes b.pkgid.toNat (i / 2) (i % 2 == 0) = some p →
        ∃ t, exec (.unitReady (.solomPort i) true bad) s = .next t ∧ (t.portAt i).ready = true ∧ (t.portAt i).state = 2 ∧ (t.portAt i).peer = BitVec.ofNat 12 p)) ∧
    (∀ w, exec (.podcfg w) s = .next (if b.state = .booting ∨ b.podWritten = true then s
      else { s with bring := { b with podWritten := true, pkgid := w.extractLsb' 16 12, sizes := w.extractLsb' 4 12 } })) ∧
    (∀ ns, b.state = .running → b.podWritten = true → b.podSynced = false → ∃ t, exec (.podSynchronisation ns) s = .next t ∧
      t.time = s.time + BitVec.ofNat 64 ns ∧ t.bring.podSynced = true ∧ exec (.podSynchronisation ns) t = .next t) ∧
    (∀ fn, fn ≠ 0 → s.fnLive fn = true →
      let emptied (t : State) : Prop := (t.partAt fn).resetting = false ∧ (t.partAt fn).domains = [] ∧ (t.partAt fn).farMap = [] ∧
        (t.partAt fn).stopping = false ∧ (t.partAt fn).held = false ∧ (t.partAt fn).farEpoch = (s.partAt fn).farEpoch + 1 ∧
        (∀ l ∈ t.launches, l.ref.fn ≠ fn) ∧ ∀ port ∈ t.qps, ∀ q ∈ port.2, q.2.part ≠ fn
      ((s.partAt fn).resetting = false → ∃ t, exec (.functionLevelReset fn) s = .next t ∧ (t.fnAt fn).tdi = .unlocked ∧ (t.fnAt fn).queue = [] ∧
        (∀ e ∈ t.keys, e.2.part ≠ fn) ∧
        ((s.partAt fn).node ≠ 0 → (t.fnAt fn).records.length = (s.fnAt fn).records.length + (s.fnAt fn).queue.length ∧
          (t.partAt fn).cres = true ∧ (t.partAt fn).resetting = true ∧ (t.partAt fn).stopping = true) ∧
        ((s.partAt fn).node = 0 → emptied t)) ∧
      ((s.partAt fn).resetting = true → s.holdSettled fn true && s.partDrained fn = false → exec (.functionLevelReset fn) s = .next s) ∧
      ((s.partAt fn).resetting = true → s.holdSettled fn true && s.partDrained fn = true →
        let img := (s.partAt fn).img.toNat
        (∀ t, s.askObject firmwareUnit img (imageAt img) = some t → exec (.functionLevelReset fn) s = .next t) ∧
        (s.askObject firmwareUnit img (imageAt img) = none → ∃ t, exec (.functionLevelReset fn) s = .next t ∧ emptied t)))

/-- 16 R486-R494: a flit whose CRC fails changes nothing but the answer; the expected one is delivered and the next expected; a negative acknowledgement replays from its number; lanes go to the spare or half width; a
link that stays down is reported. A packet for this package is acknowledged to its source, any other follows its stamp; one that came back goes again on the new route; what toward an unreachable package ends. Far accesses
are checked and sent to their homes; replies and headers reach who waits; a pod-wide launch with a dead package ends RESET. Model's choices: log entries 19, 46, 47, 51, 59, 66 and 95 (flits, link events,
acknowledgements, origins, events whose condition fails, accesses across a line, dye 0 of the ports' own packets). -/
def Obligations.SolomLinkResults : Prop :=
  ∀ (s : State) (port : Nat),
    let q := s.portAt port
    (∀ seqn ack p, q.state = 2 →
      let a := q.acknowledge ack
      exec (.flitReceive port seqn false ack p) s = .next (s.setPort port { q with nak := true }) ∧
      (seqn ≠ q.rxSeq → exec (.flitReceive port seqn true ack p) s = .next (s.setPort port a)) ∧
      (seqn = q.rxSeq →
        let next := (s.setPort port { a with rxSeq := q.rxSeq + 1, nak := false }).charge (meterPort port) 0 .flit 1
        let gives (pk : Packet) (t : State) : Prop := exec (.flitReceive port seqn true ack (some pk)) s = .next t
        exec (.flitReceive port seqn true ack none) s = .next next ∧
        (∀ pk, next.packetTaken port pk = none → gives pk (s.setPort port a)) ∧
        (∀ pk i rest m, pk.dst ≠ s.bring.pkgid → pk.route = i :: rest → next.hopAlive s.bring.pkgid.toNat (i / 2) (i % 2 == 0) = some m →
          (next.portAt i).state ≠ 0 → (next.portAt i).replay.length + flitsOf (packetSize pk.body) ≤ 256 →
          ∃ t, gives pk t ∧ (t.portAt i).replay = (next.portAt i).replay ++
            flitsFrom (next.portAt i).txSeq 0 { pk with route := rest, vc := s.crosses i || (pk.vc && i / 2 == port / 2) }) ∧
        (∀ pk, pk.dst = s.bring.pkgid → (next.packetTaken port pk).isSome = true →
          (∀ n, pk.body = .arrived n → gives pk { next with unacked := s.unacked.filter fun x => x.num != n }) ∧
          (∀ n, pk.body = .returned n → ∃ t, gives pk t ∧ ∀ x, s.unacked = [x] → x.num = n → t.unacked = [{ x with back := true }]) ∧
          (∀ i rest, packetTracked pk.body = true → next.routeTo pk.src.toNat = some (i :: rest) →
            ∃ t y, gives pk t ∧ (t.portAt i).replay = (next.portAt i).replay ++ [y] ∧ y.pk.body = .arrived pk.num ∧ y.pk.dst = pk.src) ∧
          (∀ ident part epoch dva op, pk.body = .access ident part epoch dva op →
            ((s.partAt part).node = 0 ∨ (s.partAt part).farEpoch ≠ epoch →
              ∃ t r, gives pk t ∧ t.net = s.net ++ [{ src := .egress, dst := .egress, body := .err r .rights }] ∧
                r.oid = ident ∧ r.who.g = remoteBase + pk.src.toNat ∧ r.op = FarOp.gop op) ∧
            (∀ v o, (s.partAt part).node ≠ 0 → (s.partAt part).farEpoch = epoch →
              s.rangeCheck part (FarOp.gop op).need (dva.setWidth 64) (FarOp.gop op).size = none → o % 128 + (FarOp.gop op).size ≤ 128 →
              (next.translate part (nodeFirst (s.partAt part).node) 0 dva.toNat).1 = .ok (.hbm v o) →
              ∃ t r, gives pk t ∧ t.net = s.net ++ [{ src := .egress, dst := (Loc.hbm v o).node, body := .req r }] ∧
                r.oid = ident ∧ r.who.g = remoteBase + pk.src.toNat ∧ r.op = FarOp.gop op ∧ r.loc = .hbm v o ∧ r.mode = .current 0 ∧ r.dye = pk.dye)) ∧
          (∀ ident bytes tags flags, pk.body = .reply ident bytes tags flags 0 →
            ((∀ r ∈ s.farOut, r.ident ≠ ident) → ∃ t, gives pk t ∧ { t with ports := s.ports, madder := s.madder } = s) ∧
            ∀ r, s.farOut.find? (fun y => y.ident == ident) = some r → r.op = .read bytes.length → r.device = false →
              (s.tprs.all fun t => t.asked.all fun y => y.1 != r.oid) = true → (s.clusters.all fun c => c.2.journal.all fun y =>
                (y.asked.all fun z => z.parts.all fun u => u.1 != r.oid) && !y.farW.contains r.oid) = true →
              ∃ t, gives pk t ∧ (∀ y ∈ t.farOut, y.ident ≠ ident) ∧
                t.net = s.net ++ [{ src := .egress, dst := .core r.who.g, body := .resp r bytes tags 0 0 flags false false }]) ∧
          (∀ ident part g idx gen kind len bytes tag failed third, pk.body = .header ident part g idx gen kind len bytes tag failed third → g < Config.numCores →
            ∃ t h, gives pk t ∧ t.net = s.net ++ [{ src := .egress, dst := .core g, body := .header idx h }] ∧ h.from_ = .far pk.src.toNat ident ∧
              h.part = part ∧ h.gen = gen ∧ h.bytes = bytes ∧ h.dye = pk.dye ∧ h.third = third) ∧
          (∀ ident e h, s.farHeader ident = some (e, h) →
            (pk.body = .headerGrant ident → ∃ t, gives pk t ∧ t.net = s.net ++ [{ src := .egress, dst := s.replyTo 0 h, body := .grant 0 0 h 0 false }]) ∧
            ∀ ok cause, pk.body = .headerReply ident ok cause → ∃ t, gives pk t ∧ t.farHeader ident = none ∧
              t.net = s.net ++ [{ src := .egress, dst := s.replyTo 0 h, body := if ok then .accept h false else .refuse h (Cause.ofCode cause) }]) ∧
          (∀ ident bytes g e addr slot h, pk.body = .headerData ident bytes → s.farIn = [(g, e, addr, slot, h)] → h.from_ = .far pk.src.toNat ident →
            ∃ t, gives pk t ∧ t.farIn = [] ∧ t.net = s.net ++ [{ src := .egress, dst := .core g, body := .data e h bytes addr slot }])))) ∧
    (q.state ≠ 2 → ∀ seqn good ack p, exec (.flitReceive port seqn good ack p) s = .next s) ∧
    (∀ seqn, let a := q.acknowledge seqn
      a.state = 2 → (∃ y ∈ a.replay, y.seq = seqn) →
        (10 ≤ a.again → exec (.negativeAcknowledgement port seqn) s = .next (s.setPort port { a with state := 3, again := 0 })) ∧
        (a.again < 10 → exec (.negativeAcknowledgement port seqn) s = .next (a.replay.foldl (fun st x => st.charge (meterPort port) x.pay .flit 1)
          (s.setPort port { a with again := a.again + 1, replays := a.replays + a.replay.length })))) ∧
    (q.state = 3 →
      exec (.linkRetrainingEnd port true) s = .next (q.replay.foldl (fun st x => st.charge (meterPort port) x.pay .flit 1)
        (s.setPort port { q with state := 2, replays := q.replays + q.replay.length })) ∧
      ∃ t, exec (.linkRetrainingEnd port false) s = .next t ∧ (t.portAt port).state = 0 ∧ (t.portAt port).width = 0 ∧ .msix 0 6 ∈ t.hostOut) ∧
    (q.state ≠ 3 → ∀ up, exec (.linkRetrainingEnd port up) s = .next s) ∧
    (∀ lane lock errors, lane < 16 → q.state ≠ 0 →
      (lock = false → errors ≤ q.pthr.toNat → exec (.laneFailure port ⟨lane, lock, errors⟩) s = .next s) ∧
      (lock = true ∨ q.pthr.toNat < errors → ∃ t, exec (.laneFailure port ⟨lane, lock, errors⟩) s = .next t ∧ lane ∈ (t.portAt port).failed ∧ .msix 0 6 ∈ t.hostOut ∧
        (q.slane = 0x1F → q.width = 2 → (t.portAt port).slane.toNat = lane ∧ (t.portAt port).width = 2 ∧ (t.portAt port).state = q.state) ∧
        (q.slane ≠ 0x1F → (∃ l ∈ q.failed, l < 8 ∧ 8 ≤ lane ∨ 8 ≤ l ∧ lane < 8) → (t.portAt port).state = 0) ∧
        (q.slane ≠ 0x1F → (∀ l ∈ q.failed, 8 ≤ l) → 8 ≤ lane → (t.portAt port).width = 1 ∧ (t.portAt port).state = q.state) ∧
        (q.slane ≠ 0x1F → (∀ l ∈ q.failed, l < 8) → lane < 8 → (t.portAt port).width = 1 ∧ (t.portAt port).state = q.state))) ∧
    (∀ pkgs links, s.bring.state = .running →
      let told : State := { s with deadPkgs := pkgs, deadLinks := links, hostOut := s.hostOut ++ [.msix 0 6] }
      let calm : Prop := ∀ l ∈ s.launches, ∀ p ∈ l.pkgs, p ∉ pkgs
      (calm → told.failedHops = [] → exec (.deadList pkgs links) s = .next told) ∧
      (calm → ∃ t, exec (.deadList pkgs links) s = .next t ∧ t.deadPkgs = pkgs ∧ t.deadLinks = links ∧ ∀ i ∈ told.failedHops, (t.portAt i).replay = [] ∧
        ∀ y ∈ t.unacked, (∃ x ∈ (s.portAt i).replay, x.left = 0 ∧ packetTracked x.pk.body = true ∧ x.pk.src = s.bring.pkgid ∧ x.pk.num = y.num) → y.back = true) ∧
      (∀ l, told.failedHops = [] → s.launches = [l] → l.aborting = false → (∃ p ∈ l.pkgs, p ∈ pkgs) → ∃ t, exec (.deadList pkgs links) s = .next t ∧
        ((∃ y, t.launches = [y] ∧ y.ref = l.ref ∧ y.aborting = true ∧ y.endStatus = 6) ∨
          (t.launches = [] ∧ ∃ r ∈ (t.fnAt l.ref.fn).records, r.bytes.take 2 = natBytes 2 l.ref.lid ∧ r.bytes[2]? = some 6)))) ∧
    (∀ k, s.owed = [] → (∀ x ∈ s.unacked, x.num ≠ k) → exec (.packetReturn k) s = .next s) ∧
    (∀ k src num i rest, s.owed = [(src, num)] → (∀ x ∈ s.unacked, x.num ≠ k) → s.routeTo src = some (i :: rest) → (s.portAt i).state ≠ 0 → (s.portAt i).replay.length < 256 →
      ∃ t y, exec (.packetReturn k) s = .next t ∧ t.owed = [] ∧ (t.portAt i).replay = (s.portAt i).replay ++ [y] ∧ y.pk.body = .returned num ∧
        y.pk.dst = BitVec.ofNat 12 src ∧ y.pk.route = rest) ∧
    (∀ k x i rest, s.owed = [] → s.unacked.find? (fun y => y.num == k) = some x → s.routeTo x.dst = some (i :: rest) →
      let behind : Prop := ∃ y ∈ s.unacked, y.dst = x.dst ∧ (y.back = true ∧ y.num < k ∨ y.back = false ∧ y.pk.route ≠ i :: rest)
      (x.back = false ∨ behind → exec (.packetReturn k) s = .next s) ∧
      (x.back = true → ¬behind → (s.portAt i).state ≠ 0 → (s.portAt i).replay.length + flitsOf (packetSize x.pk.body) ≤ 256 →
        ∃ t, exec (.packetReturn k) s = .next t ∧
          (t.portAt i).replay = (s.portAt i).replay ++ flitsFrom (s.portAt i).txSeq x.pk.dye { x.pk with route := rest, vc := s.crosses i } ∧
          ∀ y ∈ t.unacked, y.num = k → y.back = false ∧ y.pk.route = i :: rest)) ∧
    (∀ k, (∀ m ∈ s.net, s.stranded m ≠ some k) → (∀ y ∈ s.egress, y.oid ≠ k) →
      let given (t : State) : Prop := exec (.unreachableWatchdog k) s = .next t ∧ ∀ x ∈ t.unacked, s.unreachable x.dst = false
      (∀ e h, (∀ r ∈ s.farOut, r.oid ≠ k) → s.farHeader k = some (e, h) →
        (s.unreachable e = false → s.sourceLost k = false → s.copyLost k = false → exec (.unreachableWatchdog k) s = .next s) ∧
        (s.unreachable e = true → ∃ t, given t ∧ t.farHeader k = none ∧
          t.net = if h.failed then s.net else s.net ++ [{ src := .egress, dst := s.replyTo 0 h, body := .refuse h .closed }])) ∧
      (∀ r p, s.farOut.find? (fun y => y.oid == k) = some r → r.loc.pkg = some p → s.unreachable p = true → r.device = false →
        (s.tprs.all fun t => t.asked.all fun y => y.1 != k) = true → (s.clusters.all fun c => c.2.journal.all fun y =>
          (y.asked.all fun z => z.parts.all fun u => u.1 != k) && !y.farW.contains k) = true →
        ∃ t, given t ∧ (∀ y ∈ t.farOut, y.ident ≠ r.ident) ∧ t.net = s.net ++ [{ src := .egress, dst := .core r.who.g, body := .err r .watchdog }]) ∧
      ((∀ r ∈ s.farOut, r.oid ≠ k) → s.farHeader k = none → ∀ y, s.tprs = [y] → y.k = k → s.sourceLost k = true → ∃ t, given t ∧ t.tprs = [y.faulted .watchdog]))

/-- 16 R504, R505, 15 R461: a work request joins its queue pair's ring, is accepted and transmitted, or ends at once; the other side's requests are performed in order, or dropped; an answer completes its request; seven
retransmissions without progress end the oldest in TRANSPORT_ERROR, the pair in ERROR, the others flushed. Model's choices: log entries 48 (what the Ethernet carries), 59 (a request that waits changes nothing), 78 (the
port's cluster, reads of another package), 79 (a request out of its order is dropped) and 96 (account 0 of the partition as the dye of what the other side asks). -/
def Obligations.ScaleOutResults : Prop :=
  ∀ (s : State) (port qp : Nat) (x : Qp), s.qpAt port qp = some x → s.upsets = [] →
    let fails (i : Instr) (st : Nat) : Prop := ∃ t y, exec i s = .next t ∧ t.qpAt port qp = some y ∧ y.error = true ∧ y.reqs = [] ∧ .msix x.part 4 ∈ t.hostOut ∧
      ∃ m ∈ t.net, m.dst = .core x.comp.1 ∧ ∃ h, m.body = .header x.comp.2 h ∧ ∃ w : Word, h.bytes = wordBytes 8 w ∧ w.toNat / 2 ^ 60 = st
    let next : Qp := { x with rcv := x.rcv + 1 }
    let taken := s.setQp port qp next
    let paid (t : State) : State := { t with madder := s.madder, clusters := s.clusters, freeCtr := s.freeCtr, devFar := s.devFar, qps := s.qps }
    let port0 := s.scaleUnit port x.part (BitVec.ofNat 16 (4096 * x.part))
    (∀ n h w a b, s.takeMsg n = some (⟨a, b, .work port qp h⟩, { s with net := s.net.eraseIdx n }) → h.from_ = .proc w →
      let op := field h.bytes 0 4
      let len := field h.bytes 4 4
      let dva := field h.bytes 8 8
      let u := s.scaleUnit port x.part h.dye
      let need := if op = 2 then rightW else rightR
      let sends := if op = 2 then 0 else len
      (h.part ≠ x.part → ∃ t, exec (.workRequest n) s = .next t ∧ t.qpAt port qp = some x) ∧
      (h.part = x.part → 32 ≤ x.reqs.length → exec (.workRequest n) s = .next s) ∧
      (h.part = x.part → x.reqs.length < 32 → x.error = false → workOk h.bytes = true →
        (s.unitWaits u (splitLines (len / 128 + 2) dva len) = true → exec (.workRequest n) s = .next s) ∧
        (s.unitWaits u (splitLines (len / 128 + 2) dva len) = false → s.workFault u need dva len = none →
          (∀ t, s.devAsk u dva sends = some t → exec (.workRequest n) s = .next t) ∧
          (∀ d, s.devAsk u dva sends = none → s.devRead u dva sends = .ok d → ∃ t y r, exec (.workRequest n) s = .next t ∧
            t.qpAt port qp = some y ∧ y.reqs = x.reqs ++ [r] ∧ y.counter = x.counter + 1 ∧ r.op = op ∧ r.len = len ∧ r.dye = h.dye ∧ r.result = none ∧ r.sent = true ∧
            t.net = s.net.eraseIdx n ++ [{ src := .egress, dst := .core w.g, body := .accept h true }]) ∧
          (∀ c, x.reqs = [] → s.devAsk u dva sends = none → s.devRead u dva sends = .error c → fails (.workRequest n) 4)) ∧
        (∀ c, x.reqs = [] → s.unitWaits u (splitLines (len / 128 + 2) dva len) = false → s.workFault u need dva len = some c → fails (.workRequest n) 4)) ∧
      (h.part = x.part → x.reqs = [] → x.error = false → workOk h.bytes = false → fails (.workRequest n) 4) ∧
      (h.part = x.part → x.reqs = [] → x.error = true → ∃ t y, exec (.workRequest n) s = .next t ∧ t.qpAt port qp = some y ∧ y.reqs = [])) ∧
    (∀ ctr, exec (.scaleOutPacket port qp ⟨ctr, .unauthentic⟩) s = .next (s.setQp port qp { x with dropped := x.dropped + 1 })) ∧
    (∀ ctr dva bytes len, ctr ≠ x.rcv → exec (.scaleOutPacket port qp ⟨ctr, (.write dva bytes)⟩) s = .next s ∧
      exec (.scaleOutPacket port qp ⟨ctr, (.read dva len)⟩) s = .next s ∧ exec (.scaleOutPacket port qp ⟨ctr, (.send bytes)⟩) s = .next s) ∧
    (∀ dva bytes len, let write : Instr := .scaleOutPacket port qp ⟨x.rcv, .write dva bytes⟩
      let read : Instr := .scaleOutPacket port qp ⟨x.rcv, .read dva len⟩
      let held (n : Nat) : Bool := s.unitWaits port0 (splitLines (n / 128 + 2) dva.toNat n)
      let counted (i : Instr) : Prop := ∃ t, exec i s = .next t ∧ t.qpAt port qp = some next ∧ paid t = s
      (held bytes.length = true → exec write s = .next s) ∧
      (held len = true → exec read s = .next s) ∧
      (∀ c, held bytes.length = false → s.workFault port0 rightW dva.toNat bytes.length = some c → counted write) ∧
      (∀ c, held len = false → s.workFault port0 rightR dva.toNat len = some c → counted read) ∧
      (held bytes.length = false → s.workFault port0 rightW dva.toNat bytes.length = none → ∃ t, exec write s = .next t ∧ t.qpAt port qp = some next ∧
        { t with qps := s.qps } = (s.devWrite port0 (bytes.length / 128 + 2) dva.toNat bytes).1) ∧
      (held len = false → s.workFault port0 rightR dva.toNat len = none →
        (∀ t, s.devAsk port0 dva.toNat len = some t → exec read s = .next t) ∧ (s.devAsk port0 dva.toNat len = none → counted read))) ∧
    (∀ bytes, let y := s.epAt x.deliv.1 x.deliv.2
      (y.st = .closed ∨ (y.st ≠ .forwarding ∧ (y.ek ≠ 1 ∨ bytes.length ≠ y.esz.toNat + 1)) → exec (.scaleOutPacket port qp ⟨x.rcv, (.send bytes)⟩) s = .next taken) ∧
      (y.st = .forwarding ∨ (y.st ≠ .closed ∧ y.ek = 1 ∧ bytes.length = y.esz.toNat + 1) → ∃ t h, exec (.scaleOutPacket port qp ⟨x.rcv, (.send bytes)⟩) s = .next t ∧
        t.net = s.net ++ [{ src := .egress, dst := .core x.deliv.1, body := .header x.deliv.2 h }] ∧ h.bytes = bytes ∧ h.part = x.part ∧ h.dye = port0.dye ∧
        t.qpAt port qp = some next)) ∧
    (∀ r ctr, x.reqs = [r] → r.sent = true → r.result = none →
      let word := wordBytes 8 (BitVec.ofNat 64 (r.work.toNat % 2 ^ 48))
      let u := s.scaleUnit port x.part r.dye
      let held := s.unitWaits u (splitLines (r.len / 128 + 2) r.ldva.toNat r.len)
      let answered (t : State) : Prop := ∃ y, t.qpAt port qp = some y ∧ y.reqs = [] ∧ y.retries = 0
      (∀ bytes, r.op ≠ 2 → ∃ t h, exec (.scaleOutPacket port qp ⟨ctr, (.ack r.wid bytes)⟩) s = .next t ∧ answered t ∧
        t.net = s.net ++ [{ src := .egress, dst := .core x.comp.1, body := .header x.comp.2 h }] ∧ h.bytes = word ∧ h.dye = r.dye) ∧
      (∀ bytes, r.op = 2 → held = true → exec (.scaleOutPacket port qp ⟨ctr, (.ack r.wid bytes)⟩) s = .next s) ∧
      (∀ bytes c, r.op = 2 → held = false → s.workFault u rightW r.ldva.toNat r.len = some c → x.error = false → fails (.scaleOutPacket port qp ⟨ctr, (.ack r.wid bytes)⟩) 4) ∧
      (∀ bytes, r.op = 2 → held = false → s.workFault u rightW r.ldva.toNat r.len = none → ∃ t, exec (.scaleOutPacket port qp ⟨ctr, (.ack r.wid bytes)⟩) s = .next t ∧ answered t ∧
        ∃ m ∈ t.net, m.dst = .core x.comp.1 ∧ ∃ h, m.body = .header x.comp.2 h ∧ h.bytes = word) ∧
      (x.error = false → ∀ cause, fails (.scaleOutPacket port qp ⟨ctr, (.fail r.wid cause)⟩) 1) ∧
      (x.retries < 7 → exec (.retransmit port qp) s = .next (s.setQp port qp { x with retries := x.retries + 1, counter := x.counter + 1 })) ∧
      (7 ≤ x.retries → x.error = false → fails (.retransmit port qp) 2)) ∧
    ((∀ r ∈ x.reqs, r.sent = false ∨ r.result ≠ none) → exec (.retransmit port qp) s = .next s)

/-- 16 R498-R502: a TDISP request moves a device interface between its states where they allow it; an SPDM request is answered in the phases that allow it, a signed one while SIGLEFT lasts and each taking one; IDE and the
key slots act inside a session. Every request is answered once, and a forbidden one changes nothing else. Model's choices: log entries 16, 53, 93 and 94 (free replies, the protocols' order, SHA3-384 as FIPS 202 has it, what blocks 1 and 2 digest). -/
def Obligations.DeviceResults : Prop :=
  ∀ (s : State) (fn : Nat), s.fnLive fn = true →
    let f := s.fnAt fn
    let tdisp (t : State) (n : Nat) (ok : Bool) : Prop := ∃ v, t.hostOut = s.hostOut ++ [.tdisp fn n ok v]
    let spdm (t : State) (n : Nat) (ok : Bool) : Prop := ∃ v, t.hostOut = s.hostOut ++ [.spdm fn n ok v]
    let same (t : State) : Prop := { t with hostOut := s.hostOut, nextId := s.nextId } = s
    (fn ≠ 0 →
      (∃ t, exec (.lockInterface fn) s = .next t ∧ tdisp t 0 (f.tdi == .unlocked) ∧ (f.tdi = .unlocked → (t.fnAt fn).tdi = .locked) ∧ (f.tdi ≠ .unlocked → same t)) ∧
      (∃ t, exec (.startInterface fn) s = .next t ∧ tdisp t 1 (f.tdi == .locked) ∧ (f.tdi = .locked → (t.fnAt fn).tdi = .run) ∧ (f.tdi ≠ .locked → same t)) ∧
      (∃ t, exec (.stopInterface fn) s = .next t ∧ tdisp t 2 true ∧ (t.fnAt fn).tdi = .unlocked ∧ ∀ e ∈ t.keys, e.2.part ≠ fn) ∧
      (∃ t, exec (.getDeviceInterfaceReport fn) s = .next t ∧ tdisp t 3 (f.tdi == .locked || f.tdi == .run) ∧ same t ∧
        (f.tdi = .locked ∨ f.tdi = .run → t.hostOut = s.hostOut ++ [.tdisp fn 3 true (.report [(0, 2 ^ 20), (2, 2 ^ 36), (4, 2 ^ 16)] 0 0x8000 8)])) ∧
      ∃ t, exec (.configurationWrite fn) s = .next t ∧ (t.fnAt fn).enabled = true ∧
        (f.tdi = .locked ∨ f.tdi = .run → (t.fnAt fn).tdi = .error ∧ t.hostOut = s.hostOut ++ [.msix fn 5] ∧ ∀ e ∈ t.keys, e.2.part ≠ fn) ∧
        (f.tdi = .unlocked ∨ f.tdi = .error → (t.fnAt fn).tdi = f.tdi)) ∧
    (let moves (i : Instr) (n : Nat) (may : Prop) (to_ : Spdm) : Prop := (may → ∃ t, exec i s = .next t ∧ spdm t n true ∧ (t.fnAt fn).spdm = to_ ∧ t.bring.sigLeft = s.bring.sigLeft) ∧
       (¬may → ∃ t, exec i s = .next t ∧ spdm t n false ∧ same t)
     moves (.getVersion fn) 0 True .version ∧ moves (.getCapabilities fn) 1 (f.spdm = .version) .capabilities ∧
     moves (.negotiateAlgorithms fn) 2 (f.spdm = .capabilities) .negotiated ∧ moves (.getDigests fn) 3 (f.spdm.agreed = true) f.spdm ∧
     moves (.getCertificate fn) 4 (f.spdm.agreed = true) f.spdm ∧ moves (.finish fn true) 8 (f.spdm = .exchanging) .session ∧
     moves (.endSession fn) 9 (f.spdm = .session) .negotiated ∧ (∀ idx, moves (.getMeasurements fn idx false) 6 (f.spdm.agreed = true ∧ measured idx = true) f.spdm) ∧
     (f.spdm = .exchanging → ∃ t, exec (.finish fn false) s = .next t ∧ spdm t 8 false ∧ (t.fnAt fn).spdm = .negotiated)) ∧
    (let signs (i : Instr) (n : Nat) (may : Prop) (to_ : Spdm) : Prop :=
       (may → 0 < s.bring.sigLeft → ∃ t, exec i s = .next t ∧ spdm t n true ∧ (t.fnAt fn).spdm = to_ ∧ t.bring.sigLeft = s.bring.sigLeft - 1) ∧
       (¬may → ∃ t, exec i s = .next t ∧ spdm t n false ∧ same t) ∧
       (may → s.bring.sigLeft = 0 → ∃ t, exec i s = .next t ∧ t.hostOut = s.hostOut ++ [.spdm fn n false .unexpectedRequest] ∧ same t)
     signs (.challenge fn) 5 (f.spdm.agreed = true) f.spdm ∧ signs (.keyExchange fn) 7 (f.spdm.agreed = true) .exchanging ∧
     ∀ idx, signs (.getMeasurements fn idx true) 6 (f.spdm.agreed = true ∧ measured idx = true) f.spdm) ∧
    (∃ t, exec (.getVersion fn) s = .next t ∧ t.hostOut = s.hostOut ++ [.spdm fn 0 true (.version 1 3)]) ∧
    (f.spdm = .capabilities → ∃ t, exec (.negotiateAlgorithms fn) s = .next t ∧
      t.hostOut = s.hostOut ++ [.spdm fn 2 true (.algorithms .sha3_384 .secp384r1 .aes256Gcm none [(.ecanmos, .xmssmtShake256_20_2_256)])]) ∧
    (f.spdm.agreed = true →
      let measures (idx : Nat) (v : Report) : Prop := ∃ t, exec (.getMeasurements fn idx false) s = .next t ∧ t.hostOut = s.hostOut ++ [.spdm fn 6 true v]
      measures 1 (.image (sha3_384 (Config.imageBody s.bring.image))) ∧ measures 2 (.pageTable s.ptroot (sha3_384 (Config.tableBody (s.tablePages fn 4 s.ptroot 0)))) ∧
      measures 3 (.ranges (s.ranges.map fun e => (e.1, e.2, rangeOwner e.2))) ∧ measures 4 (.tables (s.partAt fn).domains (s.partAt fn).farMap) ∧
      measures 5 (.interface f.tdi f.ide) ∧ measures 0xF0 (.sigLeft s.bring.sigLeft)) ∧
    (∀ keyed, f.spdm = .session → ∃ t, exec (.ideKm fn keyed) s = .next t ∧ spdm t 10 true ∧ (t.fnAt fn).ide = keyed) ∧
    (∀ slot key fixed start,
      let mine (k : Option KeySlot) : Prop := ∀ y, k = some y → y.part = fn
      let load := Instr.keyLoad fn slot key fixed start
      (f.spdm = .session → f.tdi = .run → 1 ≤ slot → slot ≤ 63 → mine (Tbl.find s.keys slot) → ∃ t, exec load s = .next t ∧ spdm t 11 true ∧
        Tbl.find t.keys slot = some { part := fn, key := key, fixed := fixed, floor := start, high := start, mask := 0 }) ∧
      (f.spdm ≠ .session ∨ f.tdi ≠ .run ∨ slot = 0 ∨ 63 < slot ∨ ¬mine (Tbl.find s.keys slot) → ∃ t, exec load s = .next t ∧ spdm t 11 false ∧ same t) ∧
      (∀ y, f.spdm = .session → Tbl.find s.keys slot = some y → y.part = fn → ∃ t, exec (.keyDrop fn slot) s = .next t ∧ spdm t 12 true ∧ Tbl.find t.keys slot = none) ∧
      ((∀ y, Tbl.find s.keys slot = some y → y.part ≠ fn) → ∃ t, exec (.keyDrop fn slot) s = .next t ∧ spdm t 12 false ∧ same t))

/-- 14 R449, R450, R454, R455, 13 R428: a settled hold becomes HELD, its count one higher and the host told; with no cause left, its partition's processes run again; neither happens before. 17 R513, R517-R519: a ready server
spares a row by itself once it is due, unless SPTHR is 0; parity and residue errors are logged, and a second residue mismatch fences its core and holds its partition. Model's choices: log entries 32, 46 and 59 (held
processes, the row's address, events whose condition fails). -/
def Obligations.HoldAndReliabilitySteps : Prop :=
  (∀ (s : State) (part : Nat),
     let x := s.partAt part
     let due : Prop := x.node ≠ 0 ∧ x.full = true ∧ x.held = false ∧ x.resetting = false ∧ s.retiring part = false ∧ s.holdSettled part true = true
     (¬due → exec (.held part) s = .next s) ∧
     (due → x.imaged = false → ∃ t, exec (.held part) s = .next t ∧ (t.partAt part).holdCount = x.holdCount + 1 ∧
       (t.imagesOut part = true → (t.partAt part).held = false ∧ (t.partAt part).imaged = true) ∧
       (t.imagesOut part = false → (t.partAt part).held = true ∧ (t.partAt part).imaged = false ∧ .msix part 1 ∈ t.hostOut)) ∧
     (due → x.imaged = true → s.imagesOut part = true → exec (.held part) s = .next s) ∧
     (due → x.imaged = true → s.imagesOut part = false →
       exec (.held part) s = .next { s.setPart part { x with held := true, imaged := false } with hostOut := s.hostOut ++ [.msix part 1] }) ∧
     (x.mayResume = false → exec (.partitionResume part) s = .next s) ∧
     (x.stopping = true → x.chst = false → x.cqta = false → x.cres = false → x.cqsc = false → x.full = true → x.held = true → s.spilled = [] →
       (∀ g ∈ s.partCores part, ∀ k, (s.procAt g k).deadline = Config.never) →
       ∃ t, exec (.partitionResume part) s = .next t ∧ (t.partAt part).stopping = false ∧ (t.partAt part).held = false ∧ (t.partAt part).full = false ∧
         t.hostOut = s.hostOut ++ [.msix part 1] ∧ ∀ g ∈ s.partCores part, ∀ k, (t.procAt g k).pkh = false)) ∧
  (∀ (s : State) (v g : Nat) (row : RowId),
     let x := s.serverAt v
     (∀ lost, let rowspare : Instr := .rowspare v ⟨row, lost⟩
       let n := (rowNum row).toNat
       let counted := (Tbl.get [] x.rows n).filter fun t => decide (s.time.toNat < t + 86400000000000)
       let due : Prop := x.ready = true ∧ x.spthr ≠ 0 ∧ (n ∈ x.lostRows ∨ x.spthr.toNat ≤ counted.length)
       let y : Server := { x with rows := Tbl.del x.rows n, lostRows := x.lostRows.filter (· != n) }
       (¬due → exec rowspare s = .next s) ∧
       (due →
         (x.remap.any (remapNames row) = true → exec rowspare s = .next (s.setServer v y)) ∧
         (x.remap.any (remapNames row) = false → 32 ≤ x.remap.length → ∃ a, exec rowspare s = .next ((s.setServer v y).logEvent 5 0xFF v a 0)) ∧
         (x.remap.any (remapNames row) = false → x.remap.length < 32 → ∃ t e, exec rowspare s = .next t ∧ t.serverAt v = { y with remap := x.remap ++ [e] } ∧
           remapNames row e = true ∧ (e.extractLsb' 11 5).toNat = x.remap.length ∧
           ∀ line, let l := s.lineAt line
             let hit (z : Ver) : Ver := if l.rowOf v line z = rowNum row then { z with poison := true } else z
             ((∀ j, (line, j) ∉ lost) ∨ s.hbmHome (line * 128) ≠ some v → t.lineAt line = l) ∧
             (lost = [(line, 0)] → s.hbmHome (line * 128) = some v → t.lineAt line = { l with cur := hit l.cur })))) ∧
     exec (.parity (.server v)) s = .next (s.logEvent 7 0xFF v 0 0) ∧
     (∃ p, exec (.parity (.residue g)) s = .next (s.logEvent 6 p (logCore g) 0 0) ∧ ∀ q, s.partOfCore g = some q → p = q) ∧
     exec (.parity .meshFlit) s = .next s ∧
     (∃ t, exec (.parity (.secondResidue g)) s = .next t ∧ (t.coreAt g).fenced = true ∧ ∀ q, s.partOfCore g = some q → (t.partAt q).cres = true ∧ (t.partAt q).stopping = true) ∧
     (∀ kind part unit addr data, let f := s.fnAt 0
       let t := s.logEvent kind part unit addr data
       let b := logBytes s.time kind part unit addr data
       let place := f.elbase.toNat + 32 * (f.elprod.toNat % 256)
       let room : Prop := (f.elprod - f.elcons).toNat + f.logWait.length < 256
       part = 0 ∨ 15 < part →
         (¬room → t = s.setFn 0 { f with eldrop := f.eldrop + 1 }) ∧
         (room → f.logWait ≠ [] ∨ s.hostWaits place = true → t = s.setFn 0 { f with logWait := f.logWait ++ [b] }) ∧
         (∀ a, room → f.logWait = [] → s.hostWaits place = false → s.hostAddr place = some a →
           t.fnAt 0 = { f with elprod := f.elprod + 1 } ∧ t.hostMem = Mem.write s.hostMem a b)))


/-! Encodings (05 R184-R201), reset, and the step. -/

/-- 05 R197, R199-R201, 07 R256: words written out from the tail formats and the opcode map are the instructions they stand for; a tail size that is not the class's and a field that is not zero are none, an unallocated
opcode is the row of that name. -/
def Obligations.DecodeWords : Prop :=
  decode 0x0000 0 = .ok .nop ∧
  decode 0x4044 0x2300 = .ok (.add 1 2 3) ∧
  decode 0x4304 0x2FFF = .ok (.addi 1 2 (-1)) ∧
  decode 0xC494 0x0123456789ABCDEF = .ok (.moviX 5 0x0123456789ABCDEF) ∧
  decode 0x84CC 0x4020F000 = .ok (.bfx 3 4 8 15) ∧
  decode 0x8644 0x2FFFFFC3 = .ok (.beq 1 2 (-1) 3) ∧
  decode 0x8840 0x141 = .ok (.call 5 1) ∧
  decode 0x8C16 0x20700004 = .ok (.ldg 2 1 true true 5 2 4) ∧
  decode 0x1002 0 = .ok (.fence 2) ∧
  decode 0x9C44 0x2300E000 = .ok (.vadd { a := 1, m := 0, b := 2, c := 3, e := 0, rnd := 0, sat := false, inc := 7, str := 0, x10 := 0 }) ∧
  decode 0x7004 0x123 = .ok (.trap 1 0x123) ∧
  decode 0x3040 0 = .ok .eret ∧
  decode 0x3044 0 = .error .field ∧
  decode 0x0044 0 = .error .tailSize ∧
  decode 0x3900 0 = .ok (.unallocatedOpcode 0x3900)

/-- 05 R184-R187, R192, R197-R200: every well-formed instruction has one word, from which it decodes, alone in a line too; and a head and tail that decode are the word of what they decode to, so no two words stand for one
instruction and no bit of a word is dropped. -/
def Obligations.DecodeEncode : Prop :=
  (∀ i : Instr, i.isEvent = false → (∀ w, i ≠ .unallocatedOpcode w) → ∃ hd t, encode i = some (hd, t)) ∧
  (∀ (i : Instr) (hd : Half) (t : Word), i.wf = true → encode i = some (hd, t) →
    decode hd t = .ok i ∧ lineWf (halfWords (oneHeadLine hd t)) = true ∧ decodeLine (halfWords (oneHeadLine hd t)) 1 = .ok i) ∧
  ∀ (hd : Half) (t : Word) (i : Instr), decode hd t = .ok i →
    i.wf = true ∧ i.isEvent = false ∧ (i = .unallocatedOpcode hd ∨
      encode i = some (hd, BitVec.ofNat 64 (t.toNat % 2 ^ (16 * tailHalves (hd.extractLsb' 14 2)))))

/-- 18 R526, R527, R533, 13 R409, 14 R430, 15 R472, R481, R483, 16 R496, 17 R512, R520: right after reset the package is booting, no unit has reported, no process, partition, launch or message exists, the functions' registers and the
counters are zero, the correction factors 1, no byte is listed in any memory, and every memory is in canonical form. Model's choices: log entries 2, 5 and 30 (reset values the spec does not state). -/
def Obligations.ResetState : Prop :=
  let s := State.reset
  s.bring.state = .booting ∧ s.bring.podWritten = false ∧ s.bring.scale = 0 ∧ s.bring.madder = false ∧ s.bring.placement = false ∧ s.tss.ready = false ∧
  (∀ g, (s.coreAt g).procs = [] ∧ (s.coreAt g).run = none ∧ (s.coreAt g).fenced = false ∧ (s.coreAt g).lm = []) ∧
  (∀ c, (s.clusterAt c).ready = false ∧ (s.clusterAt c).cm = [] ∧ (s.clusterAt c).wq = []) ∧
  (∀ v, (s.serverAt v).ready = false ∧ (s.serverAt v).remap = []) ∧ (∀ i, (s.portAt i).ready = false ∧ (s.portAt i).state = 0 ∧ (s.portAt i).replay = []) ∧
  (∀ p, (s.partAt p).node = 0 ∧ (s.partAt p).holdReg = 0 ∧ (s.partAt p).doorbell = 0) ∧
  (∀ fn, ∀ off ∈ [0x00, 0x08, 0x18, 0x30, 0x38, 0x40, 0x48, 0x50, 0x60, 0x68, 0x2008, 0x2010, 0x2018, 0x2020, 0x2028, 0x3000, 0x4000, 0x4008, 0x4010, 0x4028, 0x4040, 0x4048, 0x4050,
    0x4058, 0xA000, 0xA008, 0xA010, 0xA020, 0xA028, 0xA030], s.regValue fn off = 0 ∧ s.readReg fn off = none) ∧
  (∀ d, s.madder.total d = 0) ∧ s.madder.factors = [65536, 65536, 65536, 65536] ∧
  s.hbm = [] ∧ s.net = [] ∧ s.launches = [] ∧ s.ranges = [] ∧ s.retired = [] ∧ s.hostOut = [] ∧ s.time = 0 ∧ s.memOk = true

/-- 05 R183-R192, R196, 01 R20, R21, R47, R48, 07 R251: at the turn of a core whose running process is neither parked, pre-empted, at the end of its slice nor due a trap, a step enters the line of its PC if it has not (a failed entry traps, and leaves the fetch buffer as it was; a fall-through waits for the line's prefetch),
and executes the instruction that the head at the PC decodes to, one cycle later; a head that is none traps ILLEGAL. Model's choices: log entries 1, 12, 59 and 70 (turns, INFO of an entry trap, waiting, the buffer after a
failed entry). -/
def Obligations.StepRunsDecodedInstruction : Prop :=
  ∀ (s : State) (g k : Nat) (p : Proc) (rest : List Turn),
    let c := s.coreAt g
    s.agenda = .core g :: rest → s.coreRuns g = true → (∀ q, s.partOfCore g = some q → (s.partAt q).stopping = false) → (∀ l ∈ s.launches, l.aborting = false) →
    c.run = some k → s.procAt g k = p → p.faults = [] → (∀ pc cause, p.blk ≠ .replyTrap pc cause) →
    (p.pri = 0 ∨ ∀ j ∈ c.rq0, (s.procAt g j).pkh = true) → c.sliceCnt + 1 < 4096 → (∀ la due, c.fb.prefetch = some (la, due) → s.cycle + 1 < due) →
    let s0 : State := { s with agenda := rest, cycle := s.cycle + 1, cur := g }
    let t := s0.setCore g { c with sliceCnt := c.sliceCnt + 1 }
    let u (fb : FetchBuf) : State := t.setCore g { t.coreAt g with fb := fb }
    (c.fb.entered = true →
      (∀ i, decodeLine (c.curLine p) (headOf p.pc) = .ok i → step s = exec i t) ∧
      (∀ e, decodeLine (c.curLine p) (headOf p.pc) = .error e → step s = .next (t.trap g k p .illegal 0))) ∧
    (c.fb.entered = false → (c.fb.fell = true ∧ ∃ due, c.fb.prefetch = some (p.pc.toNat / 64 * 64, due)) → step s = .next t) ∧
    (c.fb.entered = false → ¬(c.fb.fell = true ∧ ∃ due, c.fb.prefetch = some (p.pc.toNat / 64 * 64, due)) →
      (∀ cause, t.enter g p = .error cause → step s = .next (t.entryTrap g k p cause)) ∧
      (∀ fb, t.enter g p = .ok fb →
        (∀ i, decodeLine (((u fb).coreAt g).curLine p) (headOf p.pc) = .ok i → step s = exec i (u fb)) ∧
        (∀ e, decodeLine (((u fb).coreAt g).curLine p) (headOf p.pc) = .error e → step s = .next ((u fb).trap g k p .illegal 0))))

/-- 13 R413, R414 with 05 R192, 01 R20: every step answers a next state. The spec stops the package nowhere: a program meets traps, parked processes and refusals by status, all of them next states. Model's choices: log entries 1 and 59 (events whose condition fails). -/
def Obligations.StepAnswers : Prop := ∀ s : State, ∃ t, step s = .next t

/-- 02 R74, R93, R101, 01 R55, 15 R474: every step keeps every memory (LM, tile registers, CM, DM, HBM with its versions and write sets, host memory) in its canonical form. -/
def Obligations.MemoryKept : Prop := ∀ s t : State, s.memOk = true → step s = .next t → t.memOk = true

end
end

