-- ==== Sys2Proof/Laws/Exec.lean ====
section
/-! SUPPORT. Which meaning the dispatcher calls for each instruction. -/

namespace Sys2Proof.Machine

@[simp] theorem exec_nop (s : State) : exec .nop s = execNop s := rfl
@[simp] theorem exec_add (a b c : Reg) (s : State) : exec (.add a b c) s = execAdd a b c s := rfl
@[simp] theorem exec_sub (a b c : Reg) (s : State) : exec (.sub a b c) s = execSub a b c s := rfl
@[simp] theorem exec_mul (a b c : Reg) (s : State) : exec (.mul a b c) s = execMul a b c s := rfl
@[simp] theorem exec_mulh (a b c : Reg) (s : State) : exec (.mulh a b c) s = execMulh a b c s := rfl
@[simp] theorem exec_mulhu (a b c : Reg) (s : State) : exec (.mulhu a b c) s = execMulhu a b c s := rfl
@[simp] theorem exec_mulhsu (a b c : Reg) (s : State) : exec (.mulhsu a b c) s = execMulhsu a b c s := rfl
@[simp] theorem exec_div (a b c : Reg) (s : State) : exec (.div a b c) s = execDiv a b c s := rfl
@[simp] theorem exec_divu (a b c : Reg) (s : State) : exec (.divu a b c) s = execDivu a b c s := rfl
@[simp] theorem exec_rem (a b c : Reg) (s : State) : exec (.rem a b c) s = execRem a b c s := rfl
@[simp] theorem exec_remu (a b c : Reg) (s : State) : exec (.remu a b c) s = execRemu a b c s := rfl
@[simp] theorem exec_and (a b c : Reg) (s : State) : exec (.and a b c) s = execAnd a b c s := rfl
@[simp] theorem exec_or (a b c : Reg) (s : State) : exec (.or a b c) s = execOr a b c s := rfl
@[simp] theorem exec_xor (a b c : Reg) (s : State) : exec (.xor a b c) s = execXor a b c s := rfl
@[simp] theorem exec_andn (a b c : Reg) (s : State) : exec (.andn a b c) s = execAndn a b c s := rfl
@[simp] theorem exec_shl (a b c : Reg) (s : State) : exec (.shl a b c) s = execShl a b c s := rfl
@[simp] theorem exec_shr (a b c : Reg) (s : State) : exec (.shr a b c) s = execShr a b c s := rfl
@[simp] theorem exec_sar (a b c : Reg) (s : State) : exec (.sar a b c) s = execSar a b c s := rfl
@[simp] theorem exec_ror (a b c : Reg) (s : State) : exec (.ror a b c) s = execRor a b c s := rfl
@[simp] theorem exec_min (a b c : Reg) (s : State) : exec (.min a b c) s = execMin a b c s := rfl
@[simp] theorem exec_minu (a b c : Reg) (s : State) : exec (.minu a b c) s = execMinu a b c s := rfl
@[simp] theorem exec_max (a b c : Reg) (s : State) : exec (.max a b c) s = execMax a b c s := rfl
@[simp] theorem exec_maxu (a b c : Reg) (s : State) : exec (.maxu a b c) s = execMaxu a b c s := rfl
@[simp] theorem exec_cset (a b c : Reg) (f : BitVec 3) (s : State) : exec (.cset a b c f) s = execCset a b c f s := rfl
@[simp] theorem exec_sel (a b c d : Reg) (s : State) : exec (.sel a b c d) s = execSel a b c d s := rfl
@[simp] theorem exec_clz (a b : Reg) (s : State) : exec (.clz a b) s = execClz a b s := rfl
@[simp] theorem exec_ctz (a b : Reg) (s : State) : exec (.ctz a b) s = execCtz a b s := rfl
@[simp] theorem exec_popc (a b : Reg) (s : State) : exec (.popc a b) s = execPopc a b s := rfl
@[simp] theorem exec_brev (a b : Reg) (s : State) : exec (.brev a b) s = execBrev a b s := rfl
@[simp] theorem exec_sxb (a b : Reg) (s : State) : exec (.sxb a b) s = execSxb a b s := rfl
@[simp] theorem exec_sxh (a b : Reg) (s : State) : exec (.sxh a b) s = execSxh a b s := rfl
@[simp] theorem exec_sxw (a b : Reg) (s : State) : exec (.sxw a b) s = execSxw a b s := rfl
@[simp] theorem exec_zxw (a b : Reg) (s : State) : exec (.zxw a b) s = execZxw a b s := rfl
@[simp] theorem exec_addi (a b : Reg) (i : BitVec 12) (s : State) : exec (.addi a b i) s = execAddi a b i s := rfl
@[simp] theorem exec_andi (a b : Reg) (i : BitVec 12) (s : State) : exec (.andi a b i) s = execAndi a b i s := rfl
@[simp] theorem exec_ori (a b : Reg) (i : BitVec 12) (s : State) : exec (.ori a b i) s = execOri a b i s := rfl
@[simp] theorem exec_xori (a b : Reg) (i : BitVec 12) (s : State) : exec (.xori a b i) s = execXori a b i s := rfl
@[simp] theorem exec_shli (a b : Reg) (i : BitVec 6) (s : State) : exec (.shli a b i) s = execShli a b i s := rfl
@[simp] theorem exec_shri (a b : Reg) (i : BitVec 6) (s : State) : exec (.shri a b i) s = execShri a b i s := rfl
@[simp] theorem exec_sari (a b : Reg) (i : BitVec 6) (s : State) : exec (.sari a b i) s = execSari a b i s := rfl
@[simp] theorem exec_rori (a b : Reg) (i : BitVec 6) (s : State) : exec (.rori a b i) s = execRori a b i s := rfl
@[simp] theorem exec_seqi (a b : Reg) (i : BitVec 12) (s : State) : exec (.seqi a b i) s = execSeqi a b i s := rfl
@[simp] theorem exec_snei (a b : Reg) (i : BitVec 12) (s : State) : exec (.snei a b i) s = execSnei a b i s := rfl
@[simp] theorem exec_slti (a b : Reg) (i : BitVec 12) (s : State) : exec (.slti a b i) s = execSlti a b i s := rfl
@[simp] theorem exec_sltui (a b : Reg) (i : BitVec 12) (s : State) : exec (.sltui a b i) s = execSltui a b i s := rfl
@[simp] theorem exec_moviU (a : Reg) (i : BitVec 16) (s : State) : exec (.moviU a i) s = execMoviU a i s := rfl
@[simp] theorem exec_moviUZero (a : Reg) (i : BitVec 16) (s : State) : exec (.moviUZero a i) s = execMoviUZero a i s := rfl
@[simp] theorem exec_moviK (a : Reg) (i : BitVec 32) (s : State) : exec (.moviK a i) s = execMoviK a i s := rfl
@[simp] theorem exec_moviKZero (a : Reg) (i : BitVec 32) (s : State) : exec (.moviKZero a i) s = execMoviKZero a i s := rfl
@[simp] theorem exec_moviX (a : Reg) (i : BitVec 64) (s : State) : exec (.moviX a i) s = execMoviX a i s := rfl
@[simp] theorem exec_bfx (a b : Reg) (p w : BitVec 6) (s : State) : exec (.bfx a b p w) s = execBfx a b p w s := rfl
@[simp] theorem exec_bfi (a b : Reg) (p w : BitVec 6) (s : State) : exec (.bfi a b p w) s = execBfi a b p w s := rfl
@[simp] theorem exec_lea (a b c : Reg) (x : Bool) (sc : BitVec 3) (d : BitVec 20) (s : State) : exec (.lea a b c x sc d) s = execLea a b c x sc d s := rfl
@[simp] theorem exec_leap (a : Reg) (d : BitVec 26) (h : BitVec 6) (s : State) : exec (.leap a d h) s = execLeap a d h s := rfl
@[simp] theorem exec_brJ (d : BitVec 10) (h : BitVec 6) (s : State) : exec (.brJ d h) s = execBrJ d h s := rfl
@[simp] theorem exec_brL (d : BitVec 26) (h : BitVec 6) (s : State) : exec (.brL d h) s = execBrL d h s := rfl
@[simp] theorem exec_beq (a b : Reg) (d : BitVec 22) (h : BitVec 6) (s : State) : exec (.beq a b d h) s = execBeq a b d h s := rfl
@[simp] theorem exec_bne (a b : Reg) (d : BitVec 22) (h : BitVec 6) (s : State) : exec (.bne a b d h) s = execBne a b d h s := rfl
@[simp] theorem exec_blt (a b : Reg) (d : BitVec 22) (h : BitVec 6) (s : State) : exec (.blt a b d h) s = execBlt a b d h s := rfl
@[simp] theorem exec_bge (a b : Reg) (d : BitVec 22) (h : BitVec 6) (s : State) : exec (.bge a b d h) s = execBge a b d h s := rfl
@[simp] theorem exec_bltu (a b : Reg) (d : BitVec 22) (h : BitVec 6) (s : State) : exec (.bltu a b d h) s = execBltu a b d h s := rfl
@[simp] theorem exec_bgeu (a b : Reg) (d : BitVec 22) (h : BitVec 6) (s : State) : exec (.bgeu a b d h) s = execBgeu a b d h s := rfl
@[simp] theorem exec_loop (a : Reg) (d : BitVec 10) (h : BitVec 6) (s : State) : exec (.loop a d h) s = execLoop a d h s := rfl
@[simp] theorem exec_brx (a : Reg) (s : State) : exec (.brx a) s = execBrx a s := rfl
@[simp] theorem exec_call (d : BitVec 26) (h : BitVec 6) (s : State) : exec (.call d h) s = execCall d h s := rfl
@[simp] theorem exec_callr (a : Reg) (s : State) : exec (.callr a) s = execCallr a s := rfl
@[simp] theorem exec_ret (s : State) : exec .ret s = execRet s := rfl
@[simp] theorem exec_ld (m : BitVec 2) (sx : Bool) (a b : Reg) (d : BitVec 20) (s : State) : exec (.ld m sx a b d) s = execLd m sx a b d s := rfl
@[simp] theorem exec_st (m : BitVec 2) (a b : Reg) (d : BitVec 20) (s : State) : exec (.st m a b d) s = execSt m a b d s := rfl
@[simp] theorem exec_ldp (a b : Reg) (d : BitVec 20) (s : State) : exec (.ldp a b d) s = execLdp a b d s := rfl
@[simp] theorem exec_stp (a b : Reg) (d : BitVec 20) (s : State) : exec (.stp a b d) s = execStp a b d s := rfl
@[simp] theorem exec_ldc (a b : Reg) (d : BitVec 20) (s : State) : exec (.ldc a b d) s = execLdc a b d s := rfl
@[simp] theorem exec_stc (a b : Reg) (d : BitVec 20) (s : State) : exec (.stc a b d) s = execStc a b d s := rfl
@[simp] theorem exec_ldcg (a b : Reg) (d : BitVec 20) (s : State) : exec (.ldcg a b d) s = execLdcg a b d s := rfl
@[simp] theorem exec_stcg (a b : Reg) (d : BitVec 20) (s : State) : exec (.stcg a b d) s = execStcg a b d s := rfl
@[simp] theorem exec_movp (a b : Reg) (s : State) : exec (.movp a b) s = execMovp a b s := rfl
@[simp] theorem exec_ldg (m sc : BitVec 2) (acq sx : Bool) (a b : Reg) (d : BitVec 20) (s : State) : exec (.ldg m sc acq sx a b d) s = execLdg m sc acq sx a b d s := rfl
@[simp] theorem exec_stg (m sc : BitVec 2) (rel : Bool) (a b : Reg) (d : BitVec 20) (s : State) : exec (.stg m sc rel a b d) s = execStg m sc rel a b d s := rfl
@[simp] theorem exec_ldgp (sc : BitVec 2) (acq : Bool) (a b : Reg) (d : BitVec 20) (s : State) : exec (.ldgp sc acq a b d) s = execLdgp sc acq a b d s := rfl
@[simp] theorem exec_stgp (sc : BitVec 2) (rel : Bool) (a b : Reg) (d : BitVec 20) (s : State) : exec (.stgp sc rel a b d) s = execStgp sc rel a b d s := rfl
@[simp] theorem exec_aadd (o : AtomOps) (s : State) : exec (.aadd o) s = execAadd o s := rfl
@[simp] theorem exec_aand (o : AtomOps) (s : State) : exec (.aand o) s = execAand o s := rfl
@[simp] theorem exec_aor (o : AtomOps) (s : State) : exec (.aor o) s = execAor o s := rfl
@[simp] theorem exec_axor (o : AtomOps) (s : State) : exec (.axor o) s = execAxor o s := rfl
@[simp] theorem exec_amin (o : AtomOps) (s : State) : exec (.amin o) s = execAmin o s := rfl
@[simp] theorem exec_aminu (o : AtomOps) (s : State) : exec (.aminu o) s = execAminu o s := rfl
@[simp] theorem exec_amax (o : AtomOps) (s : State) : exec (.amax o) s = execAmax o s := rfl
@[simp] theorem exec_amaxu (o : AtomOps) (s : State) : exec (.amaxu o) s = execAmaxu o s := rfl
@[simp] theorem exec_axchg (o : AtomOps) (s : State) : exec (.axchg o) s = execAxchg o s := rfl
@[simp] theorem exec_acas (o : AtomOps) (s : State) : exec (.acas o) s = execAcas o s := rfl
@[simp] theorem exec_afadd (o : AtomOps) (s : State) : exec (.afadd o) s = execAfadd o s := rfl
@[simp] theorem exec_redadd (o : RedOps) (s : State) : exec (.redadd o) s = execRedadd o s := rfl
@[simp] theorem exec_redand (o : RedOps) (s : State) : exec (.redand o) s = execRedand o s := rfl
@[simp] theorem exec_redor (o : RedOps) (s : State) : exec (.redor o) s = execRedor o s := rfl
@[simp] theorem exec_redxor (o : RedOps) (s : State) : exec (.redxor o) s = execRedxor o s := rfl
@[simp] theorem exec_redmin (o : RedOps) (s : State) : exec (.redmin o) s = execRedmin o s := rfl
@[simp] theorem exec_redminu (o : RedOps) (s : State) : exec (.redminu o) s = execRedminu o s := rfl
@[simp] theorem exec_redmax (o : RedOps) (s : State) : exec (.redmax o) s = execRedmax o s := rfl
@[simp] theorem exec_redmaxu (o : RedOps) (s : State) : exec (.redmaxu o) s = execRedmaxu o s := rfl
@[simp] theorem exec_redfadd (o : RedOps) (s : State) : exec (.redfadd o) s = execRedfadd o s := rfl
@[simp] theorem exec_fence (m : BitVec 2) (s : State) : exec (.fence m) s = execFence m s := rfl
@[simp] theorem exec_fencer (m : BitVec 2) (b c : Reg) (s : State) : exec (.fencer m b c) s = execFencer m b c s := rfl
@[simp] theorem exec_snapset (a : Reg) (s : State) : exec (.snapset a) s = execSnapset a s := rfl
@[simp] theorem exec_snapreg (a : Reg) (s : State) : exec (.snapreg a) s = execSnapreg a s := rfl
@[simp] theorem exec_snaprel (s : State) : exec .snaprel s = execSnaprel s := rfl
@[simp] theorem exec_txb (a : Reg) (s : State) : exec (.txb a) s = execTxb a s := rfl
@[simp] theorem exec_txc (a : Reg) (s : State) : exec (.txc a) s = execTxc a s := rfl
@[simp] theorem exec_txa (s : State) : exec .txa s = execTxa s := rfl
@[simp] theorem exec_pub (a : Reg) (s : State) : exec (.pub a) s = execPub a s := rfl
@[simp] theorem exec_rdto (a b c : Reg) (s : State) : exec (.rdto a b c) s = execRdto a b c s := rfl
@[simp] theorem exec_rdtoWithReport (a b c : Reg) (f : BitVec 8) (s : State) : exec (.rdtoWithReport a b c f) s = execRdtoWithReport a b c f s := rfl
@[simp] theorem exec_rdtox (a b c : Reg) (s : State) : exec (.rdtox a b c) s = execRdtox a b c s := rfl
@[simp] theorem exec_rdtoxWithReport (a b c : Reg) (f : BitVec 8) (s : State) : exec (.rdtoxWithReport a b c f) s = execRdtoxWithReport a b c f s := rfl
@[simp] theorem exec_rdtog (a b c : Reg) (s : State) : exec (.rdtog a b c) s = execRdtog a b c s := rfl
@[simp] theorem exec_rdtogWithReport (a b c : Reg) (f : BitVec 8) (s : State) : exec (.rdtogWithReport a b c f) s = execRdtogWithReport a b c f s := rfl
@[simp] theorem exec_rdtogx (a b c : Reg) (s : State) : exec (.rdtogx a b c) s = execRdtogx a b c s := rfl
@[simp] theorem exec_rdtogxWithReport (a b c : Reg) (f : BitVec 8) (s : State) : exec (.rdtogxWithReport a b c f) s = execRdtogxWithReport a b c f s := rfl
@[simp] theorem exec_ldtag (a b : Reg) (d : BitVec 20) (s : State) : exec (.ldtag a b d) s = execLdtag a b d s := rfl
@[simp] theorem exec_chopen (a b c : Reg) (s : State) : exec (.chopen a b c) s = execChopen a b c s := rfl
@[simp] theorem exec_chclose (a : Reg) (s : State) : exec (.chclose a) s = execChclose a s := rfl
@[simp] theorem exec_send (a b : Reg) (s : State) : exec (.send a b) s = execSend a b s := rfl
@[simp] theorem exec_sendb (a b c : Reg) (s : State) : exec (.sendb a b c) s = execSendb a b c s := rfl
@[simp] theorem exec_sendt (a : BitVec 3) (b : Reg) (s : State) : exec (.sendt a b) s = execSendt a b s := rfl
@[simp] theorem exec_sendh (a b : Reg) (s : State) : exec (.sendh a b) s = execSendh a b s := rfl
@[simp] theorem exec_recv (a : Reg) (t : Bool) (b c d : Reg) (s : State) : exec (.recv a t b c d) s = execRecv a t b c d s := rfl
@[simp] theorem exec_recvb (a : Reg) (t : Bool) (b c d : Reg) (s : State) : exec (.recvb a t b c d) s = execRecvb a t b c d s := rfl
@[simp] theorem exec_recvt (a : BitVec 3) (t : Bool) (b c d : Reg) (s : State) : exec (.recvt a t b c d) s = execRecvt a t b c d s := rfl
@[simp] theorem exec_recvh (a : Reg) (t : Bool) (b c d : Reg) (s : State) : exec (.recvh a t b c d) s = execRecvh a t b c d s := rfl
@[simp] theorem exec_altp (a : Reg) (t : Bool) (b c d : Reg) (n : BitVec 4) (s : State) : exec (.altp a t b c d n) s = execAltp a t b c d n s := rfl
@[simp] theorem exec_altf (a : Reg) (t : Bool) (b c d : Reg) (n : BitVec 4) (s : State) : exec (.altf a t b c d n) s = execAltf a t b c d n s := rfl
@[simp] theorem exec_spawn (a b c : Reg) (p : BitVec 2) (s : State) : exec (.spawn a b c p) s = execSpawn a b c p s := rfl
@[simp] theorem exec_stop (s : State) : exec .stop s = execStop s := rfl
@[simp] theorem exec_join (a : Reg) (t : Bool) (b c d : Reg) (s : State) : exec (.join a t b c d) s = execJoin a t b c d s := rfl
@[simp] theorem exec_yield (s : State) : exec .yield s = execYield s := rfl
@[simp] theorem exec_setpri (a : Reg) (s : State) : exec (.setpri a) s = execSetpri a s := rfl
@[simp] theorem exec_time (a : Reg) (s : State) : exec (.time a) s = execTime a s := rfl
@[simp] theorem exec_twait (a : Reg) (s : State) : exec (.twait a) s = execTwait a s := rfl
@[simp] theorem exec_bara (sc : BitVec 3) (s : State) : exec (.bara sc) s = execBara sc s := rfl
@[simp] theorem exec_barw (a : Reg) (t : Bool) (b : Reg) (sc : BitVec 3) (s : State) : exec (.barw a t b sc) s = execBarw a t b sc s := rfl
@[simp] theorem exec_barx (a : Reg) (t : Bool) (b : Reg) (sc : BitVec 3) (s : State) : exec (.barx a t b sc) s = execBarx a t b sc s := rfl
@[simp] theorem exec_rden (a b : Reg) (f : Bool) (s : State) : exec (.rden a b f) s = execRden a b f s := rfl
@[simp] theorem exec_rdsv (a : Reg) (f : BitVec 8) (s : State) : exec (.rdsv a f) s = execRdsv a f s := rfl
@[simp] theorem exec_vsetl (a b : Reg) (t : BitVec 8) (s : State) : exec (.vsetl a b t) s = execVsetl a b t s := rfl
@[simp] theorem exec_vadd (o : VOps) (s : State) : exec (.vadd o) s = execVadd o s := rfl
@[simp] theorem exec_vsub (o : VOps) (s : State) : exec (.vsub o) s = execVsub o s := rfl
@[simp] theorem exec_vmul (o : VOps) (s : State) : exec (.vmul o) s = execVmul o s := rfl
@[simp] theorem exec_vdiv (o : VOps) (s : State) : exec (.vdiv o) s = execVdiv o s := rfl
@[simp] theorem exec_vfma (o : VOps) (s : State) : exec (.vfma o) s = execVfma o s := rfl
@[simp] theorem exec_vmin (o : VOps) (s : State) : exec (.vmin o) s = execVmin o s := rfl
@[simp] theorem exec_vmax (o : VOps) (s : State) : exec (.vmax o) s = execVmax o s := rfl
@[simp] theorem exec_vabs (o : VOps) (s : State) : exec (.vabs o) s = execVabs o s := rfl
@[simp] theorem exec_vneg (o : VOps) (s : State) : exec (.vneg o) s = execVneg o s := rfl
@[simp] theorem exec_vcmp (o : VOps) (s : State) : exec (.vcmp o) s = execVcmp o s := rfl
@[simp] theorem exec_vsel (o : VOps) (s : State) : exec (.vsel o) s = execVsel o s := rfl
@[simp] theorem exec_vand (o : VOps) (s : State) : exec (.vand o) s = execVand o s := rfl
@[simp] theorem exec_vor (o : VOps) (s : State) : exec (.vor o) s = execVor o s := rfl
@[simp] theorem exec_vxor (o : VOps) (s : State) : exec (.vxor o) s = execVxor o s := rfl
@[simp] theorem exec_vnot (o : VOps) (s : State) : exec (.vnot o) s = execVnot o s := rfl
@[simp] theorem exec_vshl (o : VOps) (s : State) : exec (.vshl o) s = execVshl o s := rfl
@[simp] theorem exec_vshr (o : VOps) (s : State) : exec (.vshr o) s = execVshr o s := rfl
@[simp] theorem exec_vsar (o : VOps) (s : State) : exec (.vsar o) s = execVsar o s := rfl
@[simp] theorem exec_vcvt (o : VOps) (s : State) : exec (.vcvt o) s = execVcvt o s := rfl
@[simp] theorem exec_vexp2 (o : VOps) (s : State) : exec (.vexp2 o) s = execVexp2 o s := rfl
@[simp] theorem exec_vlog2 (o : VOps) (s : State) : exec (.vlog2 o) s = execVlog2 o s := rfl
@[simp] theorem exec_vrcp (o : VOps) (s : State) : exec (.vrcp o) s = execVrcp o s := rfl
@[simp] theorem exec_vrsq (o : VOps) (s : State) : exec (.vrsq o) s = execVrsq o s := rfl
@[simp] theorem exec_vtanh (o : VOps) (s : State) : exec (.vtanh o) s = execVtanh o s := rfl
@[simp] theorem exec_vsqrt (o : VOps) (s : State) : exec (.vsqrt o) s = execVsqrt o s := rfl
@[simp] theorem exec_vred (o : VOps) (s : State) : exec (.vred o) s = execVred o s := rfl
@[simp] theorem exec_vscan (o : VOps) (s : State) : exec (.vscan o) s = execVscan o s := rfl
@[simp] theorem exec_vbcast (o : VOps) (s : State) : exec (.vbcast o) s = execVbcast o s := rfl
@[simp] theorem exec_vperm (o : VOps) (s : State) : exec (.vperm o) s = execVperm o s := rfl
@[simp] theorem exec_vgather (o : VOps) (s : State) : exec (.vgather o) s = execVgather o s := rfl
@[simp] theorem exec_vscatter (o : VOps) (s : State) : exec (.vscatter o) s = execVscatter o s := rfl
@[simp] theorem exec_vrand (o : VOps) (s : State) : exec (.vrand o) s = execVrand o s := rfl
@[simp] theorem exec_vmov (o : VOps) (s : State) : exec (.vmov o) s = execVmov o s := rfl
@[simp] theorem exec_vflg (a : Reg) (m : BitVec 2) (s : State) : exec (.vflg a m) s = execVflg a m s := rfl
@[simp] theorem exec_vsadd (o : VOps) (s : State) : exec (.vsadd o) s = execVsadd o s := rfl
@[simp] theorem exec_vssub (o : VOps) (s : State) : exec (.vssub o) s = execVssub o s := rfl
@[simp] theorem exec_vmulh (o : VOps) (s : State) : exec (.vmulh o) s = execVmulh o s := rfl
@[simp] theorem exec_tacq (s : State) : exec .tacq s = execTacq s := rfl
@[simp] theorem exec_trel (s : State) : exec .trel s = execTrel s := rfl
@[simp] theorem exec_tset (a : BitVec 3) (b : Reg) (s : State) : exec (.tset a b) s = execTset a b s := rfl
@[simp] theorem exec_tld (a : BitVec 3) (b c : Reg) (mx : Bool) (d : BitVec 20) (s : State) : exec (.tld a b c mx d) s = execTld a b c mx d s := rfl
@[simp] theorem exec_tst (a : BitVec 3) (b c : Reg) (mx : Bool) (d : BitVec 20) (s : State) : exec (.tst a b c mx d) s = execTst a b c mx d s := rfl
@[simp] theorem exec_tzcC (a : BitVec 3) (s : State) : exec (.tzcC a) s = execTzcC a s := rfl
@[simp] theorem exec_tzcT (a : BitVec 3) (s : State) : exec (.tzcT a) s = execTzcT a s := rfl
@[simp] theorem exec_tmmaBf16 (a b c : BitVec 3) (s : State) : exec (.tmmaBf16 a b c) s = execTmmaBf16 a b c s := rfl
@[simp] theorem exec_tmmaF16 (a b c : BitVec 3) (s : State) : exec (.tmmaF16 a b c) s = execTmmaF16 a b c s := rfl
@[simp] theorem exec_tmmaE4m3 (a b c : BitVec 3) (s : State) : exec (.tmmaE4m3 a b c) s = execTmmaE4m3 a b c s := rfl
@[simp] theorem exec_tmmaE5m2 (a b c : BitVec 3) (s : State) : exec (.tmmaE5m2 a b c) s = execTmmaE5m2 a b c s := rfl
@[simp] theorem exec_tmmaMxf8 (a b c : BitVec 3) (s : State) : exec (.tmmaMxf8 a b c) s = execTmmaMxf8 a b c s := rfl
@[simp] theorem exec_tmmaMxf6 (a b c : BitVec 3) (s : State) : exec (.tmmaMxf6 a b c) s = execTmmaMxf6 a b c s := rfl
@[simp] theorem exec_tmmaMxf4 (a b c : BitVec 3) (s : State) : exec (.tmmaMxf4 a b c) s = execTmmaMxf4 a b c s := rfl
@[simp] theorem exec_tmmaI8 (a b c : BitVec 3) (s : State) : exec (.tmmaI8 a b c) s = execTmmaI8 a b c s := rfl
@[simp] theorem exec_tcvt (a b : BitVec 3) (c : Reg) (i32 : Bool) (r : BitVec 3) (sat : Bool) (s : State) : exec (.tcvt a b c i32 r sat) s = execTcvt a b c i32 r sat s := rfl
@[simp] theorem exec_ttran (a b : BitVec 3) (s : State) : exec (.ttran a b) s = execTtran a b s := rfl
@[simp] theorem exec_tldc (a : BitVec 3) (b c : Reg) (d : BitVec 20) (s : State) : exec (.tldc a b c d) s = execTldc a b c d s := rfl
@[simp] theorem exec_tstc (a : BitVec 3) (b c : Reg) (d : BitVec 20) (s : State) : exec (.tstc a b c d) s = execTstc a b c d s := rfl
@[simp] theorem exec_cpset (b : Reg) (f : BitVec 4) (s : State) : exec (.cpset b f) s = execCpset b f s := rfl
@[simp] theorem exec_cpgo (a : Reg) (s : State) : exec (.cpgo a) s = execCpgo a s := rfl
@[simp] theorem exec_cpwait (a : Reg) (s : State) : exec (.cpwait a) s = execCpwait a s := rfl
@[simp] theorem exec_rgwait (a b : Reg) (s : State) : exec (.rgwait a b) s = execRgwait a b s := rfl
@[simp] theorem exec_rgrel (a b : Reg) (s : State) : exec (.rgrel a b) s = execRgrel a b s := rfl
@[simp] theorem exec_scrub (a b c : Reg) (s : State) : exec (.scrub a b c) s = execScrub a b c s := rfl
@[simp] theorem exec_trap (a : Reg) (i : BitVec 12) (s : State) : exec (.trap a i) s = execTrap a i s := rfl
@[simp] theorem exec_eret (s : State) : exec .eret s = execEret s := rfl
@[simp] theorem exec_krd (a b : Reg) (t : Bool) (n : BitVec 11) (s : State) : exec (.krd a b t n) s = execKrd a b t n s := rfl
@[simp] theorem exec_kwr (a b : Reg) (t : Bool) (n : BitVec 11) (s : State) : exec (.kwr a b t n) s = execKwr a b t n s := rfl
@[simp] theorem exec_resume (a b : Reg) (s : State) : exec (.resume a b) s = execResume a b s := rfl
@[simp] theorem exec_kill (a b : Reg) (s : State) : exec (.kill a b) s = execKill a b s := rfl
@[simp] theorem exec_mintGroup (a b c : Reg) (f : BitVec 2) (s : State) : exec (.mintGroup a b c f) s = execMintGroup a b c f s := rfl
@[simp] theorem exec_mintFarPointer (a b c : Reg) (f : BitVec 4) (s : State) : exec (.mintFarPointer a b c f) s = execMintFarPointer a b c f s := rfl
@[simp] theorem exec_rights (a b c : Reg) (s : State) : exec (.rights a b c) s = execRights a b c s := rfl
@[simp] theorem exec_plbinv (b c : Reg) (s : State) : exec (.plbinv b c) s = execPlbinv b c s := rfl
@[simp] theorem exec_ifence (s : State) : exec .ifence s = execIfence s := rfl
@[simp] theorem exec_waiti (a : Reg) (s : State) : exec (.waiti a) s = execWaiti a s := rfl
@[simp] theorem exec_quiesce (a : Reg) (m : Bool) (s : State) : exec (.quiesce a m) s = execQuiesce a m s := rfl
@[simp] theorem exec_brk (s : State) : exec .brk s = execBrk s := rfl
@[simp] theorem exec_unallocatedOpcode (w : BitVec 16) (s : State) : exec (.unallocatedOpcode w) s = execUnallocatedOpcode w s := rfl
@[simp] theorem exec_linePrefetch (g : Nat) (s : State) : exec (.linePrefetch g) s = execLinePrefetch g s := rfl
@[simp] theorem exec_sliceEnd (g : Nat) (s : State) : exec (.sliceEnd g) s = execSliceEnd g s := rfl
@[simp] theorem exec_priority0Preemption (g : Nat) (s : State) : exec (.priority0Preemption g) s = execPriority0Preemption g s := rfl
@[simp] theorem exec_deadlineComparison (g : Nat) (s : State) : exec (.deadlineComparison g) s = execDeadlineComparison g s := rfl
@[simp] theorem exec_channelHeaderArrival (n : Nat) (s : State) : exec (.channelHeaderArrival n) s = execChannelHeaderArrival n s := rfl
@[simp] theorem exec_headerResend (n : Nat) (s : State) : exec (.headerResend n) s = execHeaderResend n s := rfl
@[simp] theorem exec_transferGrant (n : Nat) (s : State) : exec (.transferGrant n) s = execTransferGrant n s := rfl
@[simp] theorem exec_transferDone (n : Nat) (s : State) : exec (.transferDone n) s = execTransferDone n s := rfl
@[simp] theorem exec_doneMessage (n : Nat) (s : State) : exec (.doneMessage n) s = execDoneMessage n s := rfl
@[simp] theorem exec_grantedDataArrival (n : Nat) (s : State) : exec (.grantedDataArrival n) s = execGrantedDataArrival n s := rfl
@[simp] theorem exec_acceptance (n : Nat) (s : State) : exec (.acceptance n) s = execAcceptance n s := rfl
@[simp] theorem exec_closedReply (n : Nat) (s : State) : exec (.closedReply n) s = execClosedReply n s := rfl
@[simp] theorem exec_loadDataArrival (n : Nat) (s : State) : exec (.loadDataArrival n) s = execLoadDataArrival n s := rfl
@[simp] theorem exec_errorResponse (n : Nat) (s : State) : exec (.errorResponse n) s = execErrorResponse n s := rfl
@[simp] theorem exec_deferredFaultTrap (g : Nat) (s : State) : exec (.deferredFaultTrap g) s = execDeferredFaultTrap g s := rfl
@[simp] theorem exec_writeQueueDrain (c k : Nat) (s : State) : exec (.writeQueueDrain c k) s = execWriteQueueDrain c k s := rfl
@[simp] theorem exec_storeAcknowledgement (n : Nat) (s : State) : exec (.storeAcknowledgement n) s = execStoreAcknowledgement n s := rfl
@[simp] theorem exec_homeRead (n : Nat) (e : Ecc) (s : State) : exec (.homeRead n e) s = execHomeRead n e s := rfl
@[simp] theorem exec_homeWrite (n : Nat) (s : State) : exec (.homeWrite n) s = execHomeWrite n s := rfl
@[simp] theorem exec_homeAtomic (n : Nat) (e : Ecc) (s : State) : exec (.homeAtomic n e) s = execHomeAtomic n e s := rfl
@[simp] theorem exec_atomicWatchdog (n : Nat) (s : State) : exec (.atomicWatchdog n) s = execAtomicWatchdog n s := rfl
@[simp] theorem exec_translationWalk (c : Nat) (dva : BitVec 52) (s : State) : exec (.translationWalk c dva) s = execTranslationWalk c dva s := rfl
@[simp] theorem exec_plbMiss (g : Nat) (dva : BitVec 52) (s : State) : exec (.plbMiss g dva) s = execPlbMiss g dva s := rfl
@[simp] theorem exec_snapshotRequest (k : Nat) (s : State) : exec (.snapshotRequest k) s = execSnapshotRequest k s := rfl
@[simp] theorem exec_epochMarker (k srv : Nat) (s : State) : exec (.epochMarker k srv) s = execEpochMarker k srv s := rfl
@[simp] theorem exec_epochMarkerAcknowledgement (k srv : Nat) (s : State) : exec (.epochMarkerAcknowledgement k srv) s = execEpochMarkerAcknowledgement k srv s := rfl
@[simp] theorem exec_snapshotReply (k : Nat) (s : State) : exec (.snapshotReply k) s = execSnapshotReply k s := rfl
@[simp] theorem exec_watermarkBroadcast (srv v : Nat) (s : State) : exec (.watermarkBroadcast srv v) s = execWatermarkBroadcast srv v s := rfl
@[simp] theorem exec_vheldBroadcast (g v : Nat) (s : State) : exec (.vheldBroadcast g v) s = execVheldBroadcast g v s := rfl
@[simp] theorem exec_firnLineBroadcast (srv : Nat) (s : State) : exec (.firnLineBroadcast srv) s = execFirnLineBroadcast srv s := rfl
@[simp] theorem exec_prepare (tx srv : Nat) (s : State) : exec (.prepare tx srv) s = execPrepare tx srv s := rfl
@[simp] theorem exec_vote (tx srv : Nat) (s : State) : exec (.vote tx srv) s = execVote tx srv s := rfl
@[simp] theorem exec_apply (tx srv : Nat) (s : State) : exec (.apply tx srv) s = execApply tx srv s := rfl
@[simp] theorem exec_abortTxid (tx srv : Nat) (s : State) : exec (.abortTxid tx srv) s = execAbortTxid tx srv s := rfl
@[simp] theorem exec_abortAcknowledgement (tx srv : Nat) (s : State) : exec (.abortAcknowledgement tx srv) s = execAbortAcknowledgement tx srv s := rfl
@[simp] theorem exec_publishApply (k srv : Nat) (s : State) : exec (.publishApply k srv) s = execPublishApply k srv s := rfl
@[simp] theorem exec_copyRegistration (g slot : Nat) (s : State) : exec (.copyRegistration g slot) s = execCopyRegistration g slot s := rfl
@[simp] theorem exec_revocation (line : Nat) (s : State) : exec (.revocation line) s = execRevocation line s := rfl
@[simp] theorem exec_revocationNotice (g ts : Nat) (s : State) : exec (.revocationNotice g ts) s = execRevocationNotice g ts s := rfl
@[simp] theorem exec_ablationReclaim (line ts : Nat) (s : State) : exec (.ablationReclaim line ts) s = execAblationReclaim line ts s := rfl
@[simp] theorem exec_sourceRead (k u : Nat) (e : Ecc) (s : State) : exec (.sourceRead k u e) s = execSourceRead k u e s := rfl
@[simp] theorem exec_thirdPartyDelivery (k i : Nat) (s : State) : exec (.thirdPartyDelivery k i) s = execThirdPartyDelivery k i s := rfl
@[simp] theorem exec_failedVoidDelivery (k i : Nat) (s : State) : exec (.failedVoidDelivery k i) s = execFailedVoidDelivery k i s := rfl
@[simp] theorem exec_errorCompletion (k : Nat) (s : State) : exec (.errorCompletion k) s = execErrorCompletion k s := rfl
@[simp] theorem exec_report (k : Nat) (s : State) : exec (.report k) s = execReport k s := rfl
@[simp] theorem exec_copyTransfer (c id : Nat) (u : CopyMove) (e : Ecc) (s : State) : exec (.copyTransfer c id u e) s = execCopyTransfer c id u e s := rfl
@[simp] theorem exec_copyCompletion (c id : Nat) (s : State) : exec (.copyCompletion c id) s = execCopyCompletion c id s := rfl
@[simp] theorem exec_tileCommandStart (g : Nat) (s : State) : exec (.tileCommandStart g) s = execTileCommandStart g s := rfl
@[simp] theorem exec_tileCommandComplete (g : Nat) (s : State) : exec (.tileCommandComplete g) s = execTileCommandComplete g s := rfl
@[simp] theorem exec_barrierArrival (g slot : Nat) (s : State) : exec (.barrierArrival g slot) s = execBarrierArrival g slot s := rfl
@[simp] theorem exec_barrierRelease (part lid sc unit : Nat) (s : State) : exec (.barrierRelease part lid sc unit) s = execBarrierRelease part lid sc unit s := rfl
@[simp] theorem exec_frostSweep (part lid g : Nat) (s : State) : exec (.frostSweep part lid g) s = execFrostSweep part lid g s := rfl
@[simp] theorem exec_sweepResult (part lid : Nat) (s : State) : exec (.sweepResult part lid) s = execSweepResult part lid s := rfl
@[simp] theorem exec_completionRecord (fn : Nat) (s : State) : exec (.completionRecord fn) s = execCompletionRecord fn s := rfl
@[simp] theorem exec_nrgo (fn : Nat) (s : State) : exec (.nrgo fn) s = execNrgo fn s := rfl
@[simp] theorem exec_launch (fn : Nat) (w : Word) (s : State) : exec (.launch fn w) s = execLaunch fn w s := rfl
@[simp] theorem exec_launchStart (fn : Nat) (s : State) : exec (.launchStart fn) s = execLaunchStart fn s := rfl
@[simp] theorem exec_netdel (fn : Nat) (w : Word) (s : State) : exec (.netdel fn w) s = execNetdel fn w s := rfl
@[simp] theorem exec_crcons (fn : Nat) (w : Word) (s : State) : exec (.crcons fn w) s = execCrcons fn w s := rfl
@[simp] theorem exec_abort (fn : Nat) (w : Word) (s : State) : exec (.abort fn w) s = execAbort fn w s := rfl
@[simp] theorem exec_hold (fn : Nat) (w : Word) (s : State) : exec (.hold fn w) s = execHold fn w s := rfl
@[simp] theorem exec_registerWrite (fn : BlockView) (off : Nat) (w : Word) (s : State) : exec (.registerWrite fn off w) s = execRegisterWrite fn off w s := rfl
@[simp] theorem exec_held (part : Nat) (s : State) : exec (.held part) s = execHeld part s := rfl
@[simp] theorem exec_partitionResume (part : Nat) (s : State) : exec (.partitionResume part) s = execPartitionResume part s := rfl
@[simp] theorem exec_quotaComparison (s : State) : exec .quotaComparison s = execQuotaComparison s := rfl
@[simp] theorem exec_meterFlush (u : Nat) (s : State) : exec (.meterFlush u) s = execMeterFlush u s := rfl
@[simp] theorem exec_correctionFactor (rail measured : Nat) (s : State) : exec (.correctionFactor rail measured) s = execCorrectionFactor rail measured s := rfl
@[simp] theorem exec_equota (part : Nat) (w : Word) (s : State) : exec (.equota part w) s = execEquota part w s := rfl
@[simp] theorem exec_create (node part : Nat) (s : State) : exec (.create node part) s = execCreate node part s := rfl
@[simp] theorem exec_destroy (part : Nat) (s : State) : exec (.destroy part) s = execDestroy part s := rfl
@[simp] theorem exec_merge (node : Nat) (s : State) : exec (.merge node) s = execMerge node s := rfl
@[simp] theorem exec_split (node part : Nat) (s : State) : exec (.split node part) s = execSplit node part s := rfl
@[simp] theorem exec_retire (quad part : Nat) (s : State) : exec (.retire quad part) s = execRetire quad part s := rfl
@[simp] theorem exec_badOp (op : BitVec 4) (s : State) : exec (.badOp op) s = execBadOp op s := rfl
@[simp] theorem exec_ptmap (o : MbOps) (tables : List Nat) (s : State) : exec (.ptmap o tables) s = execPtmap o tables s := rfl
@[simp] theorem exec_ptunmap (o : MbOps) (s : State) : exec (.ptunmap o) s = execPtunmap o s := rfl
@[simp] theorem exec_domset (o : MbOps) (s : State) : exec (.domset o) s = execDomset o s := rfl
@[simp] theorem exec_rangeset (o : MbOps) (s : State) : exec (.rangeset o) s = execRangeset o s := rfl
@[simp] theorem exec_ceweight (o : MbOps) (s : State) : exec (.ceweight o) s = execCeweight o s := rfl
@[simp] theorem exec_farmap (o : MbOps) (s : State) : exec (.farmap o) s = execFarmap o s := rfl
@[simp] theorem exec_farepoch (o : MbOps) (s : State) : exec (.farepoch o) s = execFarepoch o s := rfl
@[simp] theorem exec_qpcreate (o : MbOps) (s : State) : exec (.qpcreate o) s = execQpcreate o s := rfl
@[simp] theorem exec_qpreset (o : MbOps) (s : State) : exec (.qpreset o) s = execQpreset o s := rfl
@[simp] theorem exec_sparerow (o : MbOps) (row : SpareRow) (s : State) : exec (.sparerow o row) s = execSparerow o row s := rfl
@[simp] theorem exec_poisonset (o : MbOps) (s : State) : exec (.poisonset o) s = execPoisonset o s := rfl
@[simp] theorem exec_mailboxBadOp (o : MbOps) (op : BitVec 8) (s : State) : exec (.mailboxBadOp o op) s = execMailboxBadOp o op s := rfl
@[simp] theorem exec_dbell (fn : Nat) (w : Word) (s : State) : exec (.dbell fn w) s = execDbell fn w s := rfl
@[simp] theorem exec_sres (fn : Nat) (w : Word) (s : State) : exec (.sres fn w) s = execSres fn w s := rfl
@[simp] theorem exec_skill (fn : Nat) (w : Word) (s : State) : exec (.skill fn w) s = execSkill fn w s := rfl
@[simp] theorem exec_flcons (fn : Nat) (w : Word) (s : State) : exec (.flcons fn w) s = execFlcons fn w s := rfl
@[simp] theorem exec_hvgo (fn : Nat) (w : Word) (s : State) : exec (.hvgo fn w) s = execHvgo fn w s := rfl
@[simp] theorem exec_harvestEnd (fn lines : Nat) (s : State) : exec (.harvestEnd fn lines) s = execHarvestEnd fn lines s := rfl
@[simp] theorem exec_rcgo (fn : Nat) (w : Word) (ok : Bool) (s : State) : exec (.rcgo fn w ok) s = execRcgo fn w ok s := rfl
@[simp] theorem exec_podcfg (w : Word) (s : State) : exec (.podcfg w) s = execPodcfg w s := rfl
@[simp] theorem exec_perstDeassert (s : State) : exec .perstDeassert s = execPerstDeassert s := rfl
@[simp] theorem exec_unitReady (u : UnitId) (pass : Bool) (failedQuads : List Nat) (s : State) : exec (.unitReady u pass failedQuads) s = execUnitReady u pass failedQuads s := rfl
@[simp] theorem exec_functionLevelReset (fn : Nat) (s : State) : exec (.functionLevelReset fn) s = execFunctionLevelReset fn s := rfl
@[simp] theorem exec_physicalFunctionReset (s : State) : exec .physicalFunctionReset s = execPhysicalFunctionReset s := rfl
@[simp] theorem exec_flitReceive (port : Nat) (seqn : BitVec 12) (crcGood : Bool) (ack : BitVec 12) (p : Option Packet) (s : State) : exec (.flitReceive port seqn crcGood ack p) s = execFlitReceive port seqn crcGood ack p s := rfl
@[simp] theorem exec_negativeAcknowledgement (port : Nat) (seqn : BitVec 12) (s : State) : exec (.negativeAcknowledgement port seqn) s = execNegativeAcknowledgement port seqn s := rfl
@[simp] theorem exec_laneFailure (port : Nat) (lane : LaneErrors) (s : State) : exec (.laneFailure port lane) s = execLaneFailure port lane s := rfl
@[simp] theorem exec_deadList (pkgs links : List Nat) (s : State) : exec (.deadList pkgs links) s = execDeadList pkgs links s := rfl
@[simp] theorem exec_packetReturn (k : Nat) (s : State) : exec (.packetReturn k) s = execPacketReturn k s := rfl
@[simp] theorem exec_unreachableWatchdog (k : Nat) (s : State) : exec (.unreachableWatchdog k) s = execUnreachableWatchdog k s := rfl
@[simp] theorem exec_workRequest (n : Nat) (s : State) : exec (.workRequest n) s = execWorkRequest n s := rfl
@[simp] theorem exec_scaleOutPacket (port qp : Nat) (p : ScaleArrival) (s : State) : exec (.scaleOutPacket port qp p) s = execScaleOutPacket port qp p s := rfl
@[simp] theorem exec_retransmit (port qp : Nat) (s : State) : exec (.retransmit port qp) s = execRetransmit port qp s := rfl
@[simp] theorem exec_bar2Read (fn addr n : Nat) (s : State) : exec (.bar2Read fn addr n) s = execBar2Read fn addr n s := rfl
@[simp] theorem exec_bar2Write (fn addr : Nat) (bytes : List Byte) (s : State) : exec (.bar2Write fn addr bytes) s = execBar2Write fn addr bytes s := rfl
@[simp] theorem exec_lockInterface (fn : Nat) (s : State) : exec (.lockInterface fn) s = execLockInterface fn s := rfl
@[simp] theorem exec_startInterface (fn : Nat) (s : State) : exec (.startInterface fn) s = execStartInterface fn s := rfl
@[simp] theorem exec_stopInterface (fn : Nat) (s : State) : exec (.stopInterface fn) s = execStopInterface fn s := rfl
@[simp] theorem exec_getDeviceInterfaceReport (fn : Nat) (s : State) : exec (.getDeviceInterfaceReport fn) s = execGetDeviceInterfaceReport fn s := rfl
@[simp] theorem exec_ideKm (fn : Nat) (keyed : Bool) (s : State) : exec (.ideKm fn keyed) s = execIdeKm fn keyed s := rfl
@[simp] theorem exec_keyLoad (fn slot : Nat) (key : BitVec 256) (fixed : BitVec 32) (start : Word) (s : State) : exec (.keyLoad fn slot key fixed start) s = execKeyLoad fn slot key fixed start s := rfl
@[simp] theorem exec_keyDrop (fn slot : Nat) (s : State) : exec (.keyDrop fn slot) s = execKeyDrop fn slot s := rfl
@[simp] theorem exec_getVersion (fn : Nat) (s : State) : exec (.getVersion fn) s = execGetVersion fn s := rfl
@[simp] theorem exec_getCapabilities (fn : Nat) (s : State) : exec (.getCapabilities fn) s = execGetCapabilities fn s := rfl
@[simp] theorem exec_negotiateAlgorithms (fn : Nat) (s : State) : exec (.negotiateAlgorithms fn) s = execNegotiateAlgorithms fn s := rfl
@[simp] theorem exec_getDigests (fn : Nat) (s : State) : exec (.getDigests fn) s = execGetDigests fn s := rfl
@[simp] theorem exec_getCertificate (fn : Nat) (s : State) : exec (.getCertificate fn) s = execGetCertificate fn s := rfl
@[simp] theorem exec_challenge (fn : Nat) (s : State) : exec (.challenge fn) s = execChallenge fn s := rfl
@[simp] theorem exec_getMeasurements (fn idx : Nat) (signed : Bool) (s : State) : exec (.getMeasurements fn idx signed) s = execGetMeasurements fn idx signed s := rfl
@[simp] theorem exec_keyExchange (fn : Nat) (s : State) : exec (.keyExchange fn) s = execKeyExchange fn s := rfl
@[simp] theorem exec_finish (fn : Nat) (verified : Bool) (s : State) : exec (.finish fn verified) s = execFinish fn verified s := rfl
@[simp] theorem exec_endSession (fn : Nat) (s : State) : exec (.endSession fn) s = execEndSession fn s := rfl
@[simp] theorem exec_rowspare (srv : Nat) (row : SpareRow) (s : State) : exec (.rowspare srv row) s = execRowspare srv row s := rfl
@[simp] theorem exec_parity (u : ParityUnit) (s : State) : exec (.parity u) s = execParity u s := rfl
@[simp] theorem exec_elementGroup (g : Nat) (s : State) : exec (.elementGroup g) s = execElementGroup g s := rfl
@[simp] theorem exec_configurationWrite (fn : Nat) (s : State) : exec (.configurationWrite fn) s = execConfigurationWrite fn s := rfl
@[simp] theorem exec_linkRetrainingEnd (port : Nat) (up : Bool) (s : State) : exec (.linkRetrainingEnd port up) s = execLinkRetrainingEnd port up s := rfl
@[simp] theorem exec_firmwareImageVerified (verdict : PushVerdict) (svn : BitVec 32) (raises : Bool) (root : Nat) (s : State) : exec (.firmwareImageVerified verdict svn raises root) s = execFirmwareImageVerified verdict svn raises root s := rfl
@[simp] theorem exec_podSynchronisation (ns : Nat) (s : State) : exec (.podSynchronisation ns) s = execPodSynchronisation ns s := rfl

end Sys2Proof.Machine
end

