-- ==== Sys2Proof/Laws/Memory.lean ====
section
/-! SUPPORT. What a memory in canonical form answers: reading after writing, everywhere else as before, and every operation keeps the form. -/

namespace Sys2Proof.Machine

theorem Mem.wfFrom_mono {lo lo' : Nat} (h : lo' ≤ lo) : ∀ {m : Mem}, Mem.wfFrom lo m = true → Mem.wfFrom lo' m = true
  | [], _ => rfl
  | (k, v) :: t, hm => by
    simp only [Mem.wfFrom, Bool.and_eq_true, decide_eq_true_eq] at hm ⊢
    exact ⟨⟨Nat.le_trans h hm.1.1, hm.1.2⟩, hm.2⟩

theorem Mem.byte_below : ∀ {m : Mem} {lo i : Nat}, Mem.wfFrom lo m = true → i < lo → Mem.byte m i = 0
  | [], _, _, _, _ => rfl
  | (k, v) :: t, lo, i, hm, hi => by
    simp only [Mem.wfFrom, Bool.and_eq_true, decide_eq_true_eq] at hm
    have h1 : i < k := Nat.lt_of_lt_of_le hi hm.1.1
    simp [Mem.byte, h1, Nat.ne_of_lt h1]

/-- A memory written from entries before `a`, bytes at `a`, and entries after them. -/
theorem Mem.wfFrom_append {a : Nat} : ∀ {m n : Mem} {lo : Nat}, Mem.wfFrom lo m = true → (∀ c ∈ m, c.1 < a) → Mem.wfFrom (max a lo) n = true →
    Mem.wfFrom lo (m ++ n) = true
  | [], n, lo, _, _, hn => Mem.wfFrom_mono (Nat.le_max_right a lo) hn
  | (k, v) :: t, n, lo, hm, hl, hn => by
    simp only [Mem.wfFrom, Bool.and_eq_true, decide_eq_true_eq, List.cons_append] at hm ⊢
    have hk : k < a := hl (k, v) (by simp)
    refine ⟨hm.1, Mem.wfFrom_append hm.2 (fun c hc => hl c (by simp [hc])) ?_⟩
    exact Mem.wfFrom_mono (by omega) hn

theorem Mem.byte_append {a : Nat} : ∀ {m n : Mem} {i : Nat}, (∀ c ∈ m, c.1 < a) → Mem.wfFrom a n = true →
    Mem.byte (m ++ n) i = if i < a then Mem.byte m i else Mem.byte n i
  | [], n, i, _, hn => by
    by_cases h : i < a
    · simp [h, Mem.byte_below hn h, Mem.byte]
    · simp [h]
  | (k, v) :: t, n, i, hl, hn => by
    have hk : k < a := hl (k, v) (by simp)
    simp only [List.cons_append, Mem.byte]
    by_cases h1 : i = k
    · simp [h1, hk]
    · by_cases h2 : i < k
      · have : i < a := Nat.lt_trans h2 hk
        simp [h1, h2, this]
      · simp only [h1, h2, if_false]
        exact Mem.byte_append (fun c hc => hl c (by simp [hc])) hn

theorem Mem.cells_lt : ∀ {bs : List Byte} {a : Nat} {c : Host.Cell}, c ∈ Mem.cells a bs → c.1 < a + bs.length
  | [], _, _, h => by simp [Mem.cells] at h
  | b :: bs, a, c, h => by
    simp only [Mem.cells] at h
    simp only [List.length_cons]
    split at h
    · have := Mem.cells_lt h; omega
    · rcases List.mem_cons.1 h with rfl | h
      · simp
      · have := Mem.cells_lt h; omega

theorem Mem.cells_wf : ∀ (bs : List Byte) (a : Nat), Mem.wfFrom a (Mem.cells a bs) = true
  | [], _ => rfl
  | b :: bs, a => by
    simp only [Mem.cells]
    split
    · exact Mem.wfFrom_mono (Nat.le_succ a) (Mem.cells_wf bs (a + 1))
    · rename_i h
      simp only [Mem.wfFrom, Bool.and_eq_true, decide_eq_true_eq]
      exact ⟨⟨Nat.le_refl a, by simpa using h⟩, Mem.cells_wf bs (a + 1)⟩

theorem Mem.byte_cells : ∀ (bs : List Byte) (a i : Nat), Mem.byte (Mem.cells a bs) i = if a ≤ i then bs.getD (i - a) 0 else 0
  | [], a, i => by simp [Mem.cells, Mem.byte]
  | b :: bs, a, i => by
    have ih := Mem.byte_cells bs (a + 1) i
    simp only [Mem.cells]
    rcases Nat.lt_trichotomy i a with h | h | h
    · have h1 : ¬ a ≤ i := by omega
      have h2 : ¬ a + 1 ≤ i := by omega
      split <;> simp_all [Mem.byte]
      omega
    · subst h
      split
      · rename_i hb
        have h1 : ¬ i + 1 ≤ i := by omega
        rw [ih]
        simp [hb, h1]
      · simp [Mem.byte]
    · have h1 : a ≤ i := by omega
      have h2 : a + 1 ≤ i := by omega
      have h3 : i - a = (i - (a + 1)) + 1 := by omega
      split
      · rw [ih]
        simp [h2, h3]
      · have h4 : ¬ i = a := by omega
        have h5 : ¬ i < a := by omega
        simp only [Mem.byte, h4, h5, if_false]
        rw [ih]
        simp [h2, h3]

theorem Mem.takeWhile_lt (m : Mem) (a : Nat) : ∀ c ∈ m.takeWhile (fun c => decide (c.1 < a)), c.1 < a := by
  induction m with
  | nil => simp
  | cons x t ih =>
    intro c hc
    rw [List.takeWhile_cons] at hc
    split at hc
    · rename_i h
      rcases List.mem_cons.1 hc with rfl | hc
      · simpa using h
      · exact ih c hc
    · simp at hc

theorem Mem.wfFrom_takeWhile (a : Nat) : ∀ {m : Mem} {lo : Nat}, Mem.wfFrom lo m = true →
    Mem.wfFrom lo (m.takeWhile fun c => decide (c.1 < a)) = true
  | [], _, _ => rfl
  | (k, v) :: t, lo, hm => by
    simp only [Mem.wfFrom, Bool.and_eq_true, decide_eq_true_eq] at hm
    simp only [List.takeWhile_cons]
    split
    · simp only [Mem.wfFrom, Bool.and_eq_true, decide_eq_true_eq]
      exact ⟨hm.1, Mem.wfFrom_takeWhile a hm.2⟩
    · rfl

theorem Mem.wfFrom_dropWhile (a : Nat) : ∀ {m : Mem} {lo : Nat}, Mem.wfFrom lo m = true →
    Mem.wfFrom (max a lo) (m.dropWhile fun c => decide (c.1 < a)) = true
  | [], _, _ => rfl
  | (k, v) :: t, lo, hm => by
    simp only [Mem.wfFrom, Bool.and_eq_true, decide_eq_true_eq] at hm
    simp only [List.dropWhile_cons]
    split
    · rename_i h
      simp only [decide_eq_true_eq] at h
      exact Mem.wfFrom_mono (by omega) (Mem.wfFrom_dropWhile a hm.2)
    · rename_i h
      simp only [decide_eq_true_eq] at h
      simp only [Mem.wfFrom, Bool.and_eq_true, decide_eq_true_eq]
      exact ⟨⟨by omega, hm.1.2⟩, hm.2⟩

theorem Mem.byte_takeWhile (a : Nat) : ∀ {m : Mem} {lo i : Nat}, Mem.wfFrom lo m = true → i < a →
    Mem.byte (m.takeWhile fun c => decide (c.1 < a)) i = Mem.byte m i
  | [], _, _, _, _ => rfl
  | (k, v) :: t, lo, i, hm, hi => by
    simp only [Mem.wfFrom, Bool.and_eq_true, decide_eq_true_eq] at hm
    simp only [List.takeWhile_cons]
    split
    · simp only [Mem.byte]
      rw [Mem.byte_takeWhile a hm.2 hi]
    · rename_i h
      simp only [decide_eq_true_eq] at h
      have h1 : i < k := by omega
      simp [Mem.byte, h1, Nat.ne_of_lt h1]

theorem Mem.byte_dropWhile (a : Nat) : ∀ {m : Mem} {lo i : Nat}, Mem.wfFrom lo m = true → a ≤ i →
    Mem.byte (m.dropWhile fun c => decide (c.1 < a)) i = Mem.byte m i
  | [], _, _, _, _ => rfl
  | (k, v) :: t, lo, i, hm, hi => by
    simp only [Mem.wfFrom, Bool.and_eq_true, decide_eq_true_eq] at hm
    simp only [List.dropWhile_cons]
    split
    · rename_i h
      simp only [decide_eq_true_eq] at h
      have h1 : ¬ i = k := by omega
      have h2 : ¬ i < k := by omega
      simp only [Mem.byte, h1, h2, if_false]
      exact Mem.byte_dropWhile a hm.2 hi
    · rfl

/-- Writing keeps the canonical form. -/
theorem Mem.wf_write {m : Mem} (h : Memory.wf m = true) (a : Nat) (bs : List Byte) : Memory.wf (Mem.write m a bs) = true := by
  unfold Memory.wf Mem.write at *
  rw [List.append_assoc]
  refine Mem.wfFrom_append (a := a) (Mem.wfFrom_takeWhile a h) (Mem.takeWhile_lt m a) ?_
  refine Mem.wfFrom_mono (lo := a) (by simp) (Mem.wfFrom_append (a := a + bs.length) (Mem.cells_wf bs a) (fun c hc => Mem.cells_lt hc) ?_)
  exact Mem.wfFrom_mono (by omega) (Mem.wfFrom_dropWhile (a + bs.length) h)

/-- Every byte after a write: the written ones, and all others as before. -/
theorem Mem.byte_write {m : Mem} (h : Memory.wf m = true) (a : Nat) (bs : List Byte) (i : Nat) :
    Mem.byte (Mem.write m a bs) i = if a ≤ i ∧ i < a + bs.length then bs.getD (i - a) 0 else Mem.byte m i := by
  unfold Memory.wf at h
  unfold Mem.write
  have hd := Mem.wfFrom_dropWhile (a + bs.length) h
  have hd' : Mem.wfFrom (a + bs.length) (m.dropWhile fun c => decide (c.1 < a + bs.length)) = true := Mem.wfFrom_mono (by simp) hd
  have hc : Mem.wfFrom a (Mem.cells a bs ++ m.dropWhile fun c => decide (c.1 < a + bs.length)) = true :=
    Mem.wfFrom_append (a := a + bs.length) (Mem.cells_wf bs a) (fun c hc => Mem.cells_lt hc) (Mem.wfFrom_mono (by omega) hd)
  rw [List.append_assoc, Mem.byte_append (Mem.takeWhile_lt m a) hc]
  by_cases h1 : i < a
  · have h2 : ¬ (a ≤ i ∧ i < a + bs.length) := by omega
    simp only [h1, if_true, h2, if_false]
    exact Mem.byte_takeWhile a h h1
  · simp only [h1, if_false]
    rw [Mem.byte_append (fun c hc => Mem.cells_lt hc) hd']
    by_cases h2 : i < a + bs.length
    · have h3 : a ≤ i := by omega
      simp [h2, h3, Mem.byte_cells]
    · simp only [h2, if_false, and_false]
      exact Mem.byte_dropWhile _ h (by omega)

theorem Mem.wfFrom_filter (f : Host.Cell → Bool) : ∀ {m : Mem} {lo : Nat}, Mem.wfFrom lo m = true → Mem.wfFrom lo (m.filter f) = true
  | [], _, _ => rfl
  | (k, v) :: t, lo, hm => by
    simp only [Mem.wfFrom, Bool.and_eq_true, decide_eq_true_eq] at hm
    simp only [List.filter_cons]
    have ih := Mem.wfFrom_filter f hm.2
    split
    · simp only [Mem.wfFrom, Bool.and_eq_true, decide_eq_true_eq]
      exact ⟨hm.1, ih⟩
    · exact Mem.wfFrom_mono (by omega) ih

/-- Zeroing keeps the canonical form. -/
theorem Mem.wf_zero {m : Mem} (h : Memory.wf m = true) (a n : Nat) : Memory.wf (Mem.zero m a n) = true := Mem.wfFrom_filter _ h

theorem Mem.byte_filter (p : Nat → Bool) : ∀ {m : Mem} {lo : Nat} (i : Nat), Mem.wfFrom lo m = true →
    Mem.byte (m.filter fun c => p c.1) i = if p i then Mem.byte m i else 0
  | [], _, i, _ => by simp [Mem.byte]
  | (k, v) :: t, lo, i, hm => by
    simp only [Mem.wfFrom, Bool.and_eq_true, decide_eq_true_eq] at hm
    have ih := Mem.byte_filter p i hm.2
    simp only [List.filter_cons]
    rcases Nat.lt_trichotomy i k with h | h | h
    · have h1 : Mem.byte (t.filter fun c => p c.1) i = 0 := by
        rw [ih, Mem.byte_below hm.2 (by omega)]; simp
      split <;> simp [Mem.byte, h, Nat.ne_of_lt h, h1]
    · subst h
      have h1 : Mem.byte (t.filter fun c => p c.1) i = 0 := by
        rw [ih, Mem.byte_below hm.2 (by omega)]; simp
      split <;> simp_all [Mem.byte]
    · have h1 : ¬ i = k := by omega
      have h2 : ¬ i < k := by omega
      split <;> simp [Mem.byte, h1, h2, ih]

/-- Every byte after zeroing. -/
theorem Mem.byte_zero {m : Mem} (h : Memory.wf m = true) (a n i : Nat) :
    Mem.byte (Mem.zero m a n) i = if a ≤ i ∧ i < a + n then 0 else Mem.byte m i := by
  have := Mem.byte_filter (fun j => decide (j < a) || decide (a + n ≤ j)) i h
  unfold Mem.zero
  rw [this]
  by_cases h1 : a ≤ i ∧ i < a + n
  · have : ¬ i < a := by omega
    have : ¬ a + n ≤ i := by omega
    simp [*]
  · have : i < a ∨ a + n ≤ i := by omega
    simp [this, h1]

theorem Mem.take_eq : ∀ (n : Nat) {m : Mem} {a : Nat}, Mem.wfFrom a m = true → Mem.take m a n = (List.range n).map fun j => Mem.byte m (a + j)
  | 0, _, _, _ => by simp [Mem.take]
  | n + 1, [], a, _ => by
    have ih := Mem.take_eq n (m := []) (a := a + 1) rfl
    simp only [Mem.take, ih, List.range_succ_eq_map, List.map_cons, List.map_map]
    rfl
  | n + 1, (k, v) :: t, a, hm => by
    have hm' := hm
    simp only [Mem.wfFrom, Bool.and_eq_true, decide_eq_true_eq] at hm
    simp only [Mem.take, List.range_succ_eq_map, List.map_cons, List.map_map]
    split
    · rename_i h
      subst h
      rw [Mem.take_eq n hm.2]
      simp only [Nat.add_zero, Mem.byte, if_true, List.cons.injEq, true_and]
      apply List.map_congr_left
      intro j _
      have h2 : ¬ k + (j + 1) < k := by omega
      simp [h2, Nat.add_assoc, Nat.add_comm 1 j]
    · rename_i h
      have hlt : a < k := by omega
      have hw : Mem.wfFrom (a + 1) ((k, v) :: t) = true := by
        simp only [Mem.wfFrom, Bool.and_eq_true, decide_eq_true_eq]
        exact ⟨⟨by omega, hm.1.2⟩, hm.2⟩
      rw [Mem.take_eq n hw]
      have h0 : Mem.byte ((k, v) :: t) a = 0 := Mem.byte_below (lo := a + 1) hw (by omega)
      simp only [Nat.add_zero, h0, List.cons.injEq, true_and]
      apply List.map_congr_left
      intro j _
      simp [Nat.add_assoc, Nat.add_comm 1 j]

/-- Reading several bytes reads each. -/
theorem Mem.read_eq {m : Mem} (h : Memory.wf m = true) (a n : Nat) : Mem.read m a n = (List.range n).map fun j => Mem.byte m (a + j) := by
  unfold Mem.read
  have hd := Mem.wfFrom_dropWhile a (m := m) (lo := 0) h
  rw [Mem.take_eq n (Mem.wfFrom_mono (by simp) hd)]
  apply List.map_congr_left
  intro j _
  exact Mem.byte_dropWhile a h (by omega)

@[simp] theorem Mem.take_length : ∀ (n : Nat) (m : Mem) (a : Nat), (Mem.take m a n).length = n
  | 0, _, _ => by simp [Mem.take]
  | n + 1, [], a => by simp [Mem.take, Mem.take_length n]
  | n + 1, (k, v) :: t, a => by
    simp only [Mem.take]
    split <;> simp [Mem.take_length n]

@[simp] theorem Mem.read_length (m : Mem) (a n : Nat) : (Mem.read m a n).length = n := by simp [Mem.read]

/-- A read after a write to the same place gives the bytes written. -/
theorem Mem.read_write {m : Mem} (h : Memory.wf m = true) (a : Nat) (bs : List Byte) : Mem.read (Mem.write m a bs) a bs.length = bs := by
  rw [Mem.read_eq (Mem.wf_write h a bs)]
  apply List.ext_getElem
  · simp
  · intro i h1 h2
    have h3 : i < bs.length := by simpa using h2
    simp [Mem.byte_write h, h3]

/-- A read elsewhere gives what it gave. -/
theorem Mem.read_write_other {m : Mem} (h : Memory.wf m = true) (a : Nat) (bs : List Byte) (b n : Nat)
    (hd : b + n ≤ a ∨ a + bs.length ≤ b) : Mem.read (Mem.write m a bs) b n = Mem.read m b n := by
  rw [Mem.read_eq (Mem.wf_write h a bs), Mem.read_eq h]
  apply List.map_congr_left
  intro j hj
  have hj : j < n := by simpa using hj
  rw [Mem.byte_write h]
  have : ¬ (a ≤ b + j ∧ b + j < a + bs.length) := by omega
  simp [this]

theorem Mem.ext_from : ∀ {m n : Mem} {lo : Nat}, Mem.wfFrom lo m = true → Mem.wfFrom lo n = true → (∀ i, Mem.byte m i = Mem.byte n i) → m = n
  | [], [], _, _, _, _ => rfl
  | [], (k, v) :: t, lo, _, hn, h => by
    simp only [Mem.wfFrom, Bool.and_eq_true, decide_eq_true_eq] at hn
    have := h k
    simp [Mem.byte] at this
    simp [← this] at hn
  | (k, v) :: t, [], lo, hm, _, h => by
    simp only [Mem.wfFrom, Bool.and_eq_true, decide_eq_true_eq] at hm
    have := h k
    simp [Mem.byte] at this
    simp [this] at hm
  | (k, v) :: t, (k', v') :: t', lo, hm, hn, h => by
    have hm0 := hm
    have hn0 := hn
    simp only [Mem.wfFrom, Bool.and_eq_true, decide_eq_true_eq] at hm hn
    have hk : k = k' := by
      rcases Nat.lt_trichotomy k k' with h1 | h1 | h1
      · have := h k
        simp only [Mem.byte, if_true, h1, Nat.ne_of_lt h1, if_false] at this
        simp [this] at hm
      · exact h1
      · have := h k'
        simp only [Mem.byte, if_true, h1, Nat.ne_of_lt h1, if_false] at this
        simp [← this] at hn
    subst hk
    have hv : v = v' := by simpa [Mem.byte] using h k
    subst hv
    have ht : t = t' := Mem.ext_from hm.2 hn.2 fun i => by
      by_cases h1 : i < k + 1
      · rw [Mem.byte_below hm.2 h1, Mem.byte_below hn.2 h1]
      · have := h i
        have h2 : ¬ i = k := by omega
        have h3 : ¬ i < k := by omega
        simpa [Mem.byte, h2, h3] using this
    rw [ht]

/-- Memories in canonical form that read alike are equal. -/
theorem Mem.ext {m n : Mem} (hm : Memory.wf m = true) (hn : Memory.wf n = true) (h : ∀ i, Mem.byte m i = Mem.byte n i) : m = n :=
  Mem.ext_from hm hn h

/-! Tables. -/

variable {α : Type}

@[simp] theorem Tbl.get_put_self (d x : α) : ∀ (t : Tbl α) (i : Nat), Tbl.get d (Tbl.put t i x) i = x
  | [], i => by simp [Tbl.put, Tbl.get]
  | (k, v) :: t, i => by
    simp only [Tbl.put]
    split
    · rename_i h; simp [Tbl.get, h]
    · split
      · simp [Tbl.get]
      · rename_i h1 h2; simp [Tbl.get, h1, h2, Tbl.get_put_self d x t i]

theorem Tbl.get_put_ne (d x : α) : ∀ (t : Tbl α) (i j : Nat), j ≠ i → Tbl.get d (Tbl.put t i x) j = Tbl.get d t j
  | [], i, j, h => by simp [Tbl.put, Tbl.get, h]
  | (k, v) :: t, i, j, h => by
    simp only [Tbl.put]
    split
    · rename_i hk
      subst hk
      simp [Tbl.get, h]
    · split
      · rename_i h1 h2
        simp only [Tbl.get, h, if_false]
        split
        · rename_i h3
          have h4 : ¬ j = k := by omega
          have h5 : j < k := by omega
          simp [h4, h5]
        · rfl
      · simp only [Tbl.get]
        rw [Tbl.get_put_ne d x t i j h]

@[simp] theorem Tbl.find_put_self (x : α) : ∀ (t : Tbl α) (i : Nat), Tbl.find (Tbl.put t i x) i = some x
  | [], i => by simp [Tbl.put, Tbl.find]
  | (k, v) :: t, i => by
    simp only [Tbl.put]
    split
    · rename_i h; simp [Tbl.find, h]
    · split
      · simp [Tbl.find]
      · rename_i h1 h2; simp [Tbl.find, h1, h2, Tbl.find_put_self x t i]

/-- Every entry of a table after one was replaced is that one or an old one. -/
theorem Tbl.mem_put (x : α) : ∀ {t : Tbl α} {i : Nat} {e : Nat × α}, e ∈ Tbl.put t i x → e = (i, x) ∨ e ∈ t
  | [], i, e, h => by simp [Tbl.put] at h; simp [h]
  | (k, v) :: t, i, e, h => by
    simp only [Tbl.put] at h
    split at h
    · rename_i hk
      subst hk
      rcases List.mem_cons.1 h with h | h
      · exact .inl h
      · exact .inr (by simp [h])
    · split at h
      · rcases List.mem_cons.1 h with h | h
        · exact .inl h
        · exact .inr h
      · rcases List.mem_cons.1 h with h | h
        · exact .inr (by simp [h])
        · rcases Tbl.mem_put x h with h | h
          · exact .inl h
          · exact .inr (by simp [h])

/-- What a table answers at a key is the default or an entry. -/
theorem Tbl.get_mem (d : α) : ∀ (t : Tbl α) (i : Nat), Tbl.get d t i = d ∨ (i, Tbl.get d t i) ∈ t
  | [], i => by simp [Tbl.get]
  | (k, v) :: t, i => by
    simp only [Tbl.get]
    split
    · rename_i h; simp [h]
    · split
      · simp
      · rcases Tbl.get_mem d t i with h | h
        · exact .inl h
        · exact .inr (by simp [h])

end Sys2Proof.Machine
end

