-- ==== Sys2Proof/Laws/PerInstr.lean ====
section
/-! SUPPORT. For each constructor: an instruction has a word exactly when it is no step of the device's own (spec/95) and no unallocated
opcode (05 R201). -/

namespace Sys2Proof.Laws.WordOrEvent

/-- The row that stands for the encodings of no instruction (05 R201). -/
def unallocated : Instr → Bool
  | .unallocatedOpcode _ => true
  | _ => false

/-- An instruction has no word exactly when it is a step of the device or an unallocated opcode. -/
def Statement (i : Instr) : Prop := i.raw.isNone = (i.isEvent || unallocated i)


theorem nop : Statement (.nop) := rfl
theorem add (a b c : Reg) : Statement (.add a b c) := rfl
theorem sub (a b c : Reg) : Statement (.sub a b c) := rfl
theorem mul (a b c : Reg) : Statement (.mul a b c) := rfl
theorem mulh (a b c : Reg) : Statement (.mulh a b c) := rfl
theorem mulhu (a b c : Reg) : Statement (.mulhu a b c) := rfl
theorem mulhsu (a b c : Reg) : Statement (.mulhsu a b c) := rfl
theorem div (a b c : Reg) : Statement (.div a b c) := rfl
theorem divu (a b c : Reg) : Statement (.divu a b c) := rfl
theorem rem (a b c : Reg) : Statement (.rem a b c) := rfl
theorem remu (a b c : Reg) : Statement (.remu a b c) := rfl
theorem and (a b c : Reg) : Statement (.and a b c) := rfl
theorem or (a b c : Reg) : Statement (.or a b c) := rfl
theorem xor (a b c : Reg) : Statement (.xor a b c) := rfl
theorem andn (a b c : Reg) : Statement (.andn a b c) := rfl
theorem shl (a b c : Reg) : Statement (.shl a b c) := rfl
theorem shr (a b c : Reg) : Statement (.shr a b c) := rfl
theorem sar (a b c : Reg) : Statement (.sar a b c) := rfl
theorem ror (a b c : Reg) : Statement (.ror a b c) := rfl
theorem min (a b c : Reg) : Statement (.min a b c) := rfl
theorem minu (a b c : Reg) : Statement (.minu a b c) := rfl
theorem max (a b c : Reg) : Statement (.max a b c) := rfl
theorem maxu (a b c : Reg) : Statement (.maxu a b c) := rfl
theorem cset (a b c : Reg) (f : BitVec 3) : Statement (.cset a b c f) := rfl
theorem sel (a b c d : Reg) : Statement (.sel a b c d) := rfl
theorem clz (a b : Reg) : Statement (.clz a b) := rfl
theorem ctz (a b : Reg) : Statement (.ctz a b) := rfl
theorem popc (a b : Reg) : Statement (.popc a b) := rfl
theorem brev (a b : Reg) : Statement (.brev a b) := rfl
theorem sxb (a b : Reg) : Statement (.sxb a b) := rfl
theorem sxh (a b : Reg) : Statement (.sxh a b) := rfl
theorem sxw (a b : Reg) : Statement (.sxw a b) := rfl
theorem zxw (a b : Reg) : Statement (.zxw a b) := rfl
theorem addi (a b : Reg) (i : BitVec 12) : Statement (.addi a b i) := rfl
theorem andi (a b : Reg) (i : BitVec 12) : Statement (.andi a b i) := rfl
theorem ori (a b : Reg) (i : BitVec 12) : Statement (.ori a b i) := rfl
theorem xori (a b : Reg) (i : BitVec 12) : Statement (.xori a b i) := rfl
theorem shli (a b : Reg) (i : BitVec 6) : Statement (.shli a b i) := rfl
theorem shri (a b : Reg) (i : BitVec 6) : Statement (.shri a b i) := rfl
theorem sari (a b : Reg) (i : BitVec 6) : Statement (.sari a b i) := rfl
theorem rori (a b : Reg) (i : BitVec 6) : Statement (.rori a b i) := rfl
theorem seqi (a b : Reg) (i : BitVec 12) : Statement (.seqi a b i) := rfl
theorem snei (a b : Reg) (i : BitVec 12) : Statement (.snei a b i) := rfl
theorem slti (a b : Reg) (i : BitVec 12) : Statement (.slti a b i) := rfl
theorem sltui (a b : Reg) (i : BitVec 12) : Statement (.sltui a b i) := rfl
theorem moviU (a : Reg) (i : BitVec 16) : Statement (.moviU a i) := rfl
theorem moviUZero (a : Reg) (i : BitVec 16) : Statement (.moviUZero a i) := rfl
theorem moviK (a : Reg) (i : BitVec 32) : Statement (.moviK a i) := rfl
theorem moviKZero (a : Reg) (i : BitVec 32) : Statement (.moviKZero a i) := rfl
theorem moviX (a : Reg) (i : BitVec 64) : Statement (.moviX a i) := rfl
theorem bfx (a b : Reg) (p w : BitVec 6) : Statement (.bfx a b p w) := rfl
theorem bfi (a b : Reg) (p w : BitVec 6) : Statement (.bfi a b p w) := rfl
theorem lea (a b c : Reg) (x : Bool) (sc : BitVec 3) (d : BitVec 20) : Statement (.lea a b c x sc d) := rfl
theorem leap (a : Reg) (d : BitVec 26) (h : BitVec 6) : Statement (.leap a d h) := rfl
theorem brJ (d : BitVec 10) (h : BitVec 6) : Statement (.brJ d h) := rfl
theorem brL (d : BitVec 26) (h : BitVec 6) : Statement (.brL d h) := rfl
theorem beq (a b : Reg) (d : BitVec 22) (h : BitVec 6) : Statement (.beq a b d h) := rfl
theorem bne (a b : Reg) (d : BitVec 22) (h : BitVec 6) : Statement (.bne a b d h) := rfl
theorem blt (a b : Reg) (d : BitVec 22) (h : BitVec 6) : Statement (.blt a b d h) := rfl
theorem bge (a b : Reg) (d : BitVec 22) (h : BitVec 6) : Statement (.bge a b d h) := rfl
theorem bltu (a b : Reg) (d : BitVec 22) (h : BitVec 6) : Statement (.bltu a b d h) := rfl
theorem bgeu (a b : Reg) (d : BitVec 22) (h : BitVec 6) : Statement (.bgeu a b d h) := rfl
theorem loop (a : Reg) (d : BitVec 10) (h : BitVec 6) : Statement (.loop a d h) := rfl
theorem brx (a : Reg) : Statement (.brx a) := rfl
theorem call (d : BitVec 26) (h : BitVec 6) : Statement (.call d h) := rfl
theorem callr (a : Reg) : Statement (.callr a) := rfl
theorem ret : Statement (.ret) := rfl
theorem ld (m : BitVec 2) (sx : Bool) (a b : Reg) (d : BitVec 20) : Statement (.ld m sx a b d) := rfl
theorem st (m : BitVec 2) (a b : Reg) (d : BitVec 20) : Statement (.st m a b d) := rfl
theorem ldp (a b : Reg) (d : BitVec 20) : Statement (.ldp a b d) := rfl
theorem stp (a b : Reg) (d : BitVec 20) : Statement (.stp a b d) := rfl
theorem ldc (a b : Reg) (d : BitVec 20) : Statement (.ldc a b d) := rfl
theorem stc (a b : Reg) (d : BitVec 20) : Statement (.stc a b d) := rfl
theorem ldcg (a b : Reg) (d : BitVec 20) : Statement (.ldcg a b d) := rfl
theorem stcg (a b : Reg) (d : BitVec 20) : Statement (.stcg a b d) := rfl
theorem movp (a b : Reg) : Statement (.movp a b) := rfl
theorem ldg (m sc : BitVec 2) (acq sx : Bool) (a b : Reg) (d : BitVec 20) : Statement (.ldg m sc acq sx a b d) := rfl
theorem stg (m sc : BitVec 2) (rel : Bool) (a b : Reg) (d : BitVec 20) : Statement (.stg m sc rel a b d) := rfl
theorem ldgp (sc : BitVec 2) (acq : Bool) (a b : Reg) (d : BitVec 20) : Statement (.ldgp sc acq a b d) := rfl
theorem stgp (sc : BitVec 2) (rel : Bool) (a b : Reg) (d : BitVec 20) : Statement (.stgp sc rel a b d) := rfl
theorem aadd (o : AtomOps) : Statement (.aadd o) := rfl
theorem aand (o : AtomOps) : Statement (.aand o) := rfl
theorem aor (o : AtomOps) : Statement (.aor o) := rfl
theorem axor (o : AtomOps) : Statement (.axor o) := rfl
theorem amin (o : AtomOps) : Statement (.amin o) := rfl
theorem aminu (o : AtomOps) : Statement (.aminu o) := rfl
theorem amax (o : AtomOps) : Statement (.amax o) := rfl
theorem amaxu (o : AtomOps) : Statement (.amaxu o) := rfl
theorem axchg (o : AtomOps) : Statement (.axchg o) := rfl
theorem acas (o : AtomOps) : Statement (.acas o) := rfl
theorem afadd (o : AtomOps) : Statement (.afadd o) := rfl
theorem redadd (o : RedOps) : Statement (.redadd o) := rfl
theorem redand (o : RedOps) : Statement (.redand o) := rfl
theorem redor (o : RedOps) : Statement (.redor o) := rfl
theorem redxor (o : RedOps) : Statement (.redxor o) := rfl
theorem redmin (o : RedOps) : Statement (.redmin o) := rfl
theorem redminu (o : RedOps) : Statement (.redminu o) := rfl
theorem redmax (o : RedOps) : Statement (.redmax o) := rfl
theorem redmaxu (o : RedOps) : Statement (.redmaxu o) := rfl
theorem redfadd (o : RedOps) : Statement (.redfadd o) := rfl
theorem fence (m : BitVec 2) : Statement (.fence m) := rfl
theorem fencer (m : BitVec 2) (b c : Reg) : Statement (.fencer m b c) := rfl
theorem snapset (a : Reg) : Statement (.snapset a) := rfl
theorem snapreg (a : Reg) : Statement (.snapreg a) := rfl
theorem snaprel : Statement (.snaprel) := rfl
theorem txb (a : Reg) : Statement (.txb a) := rfl
theorem txc (a : Reg) : Statement (.txc a) := rfl
theorem txa : Statement (.txa) := rfl
theorem pub (a : Reg) : Statement (.pub a) := rfl
theorem rdto (a b c : Reg) : Statement (.rdto a b c) := rfl
theorem rdtoWithReport (a b c : Reg) (f : BitVec 8) : Statement (.rdtoWithReport a b c f) := rfl
theorem rdtox (a b c : Reg) : Statement (.rdtox a b c) := rfl
theorem rdtoxWithReport (a b c : Reg) (f : BitVec 8) : Statement (.rdtoxWithReport a b c f) := rfl
theorem rdtog (a b c : Reg) : Statement (.rdtog a b c) := rfl
theorem rdtogWithReport (a b c : Reg) (f : BitVec 8) : Statement (.rdtogWithReport a b c f) := rfl
theorem rdtogx (a b c : Reg) : Statement (.rdtogx a b c) := rfl
theorem rdtogxWithReport (a b c : Reg) (f : BitVec 8) : Statement (.rdtogxWithReport a b c f) := rfl
theorem ldtag (a b : Reg) (d : BitVec 20) : Statement (.ldtag a b d) := rfl
theorem chopen (a b c : Reg) : Statement (.chopen a b c) := rfl
theorem chclose (a : Reg) : Statement (.chclose a) := rfl
theorem send (a b : Reg) : Statement (.send a b) := rfl
theorem sendb (a b c : Reg) : Statement (.sendb a b c) := rfl
theorem sendt (a : BitVec 3) (b : Reg) : Statement (.sendt a b) := rfl
theorem sendh (a b : Reg) : Statement (.sendh a b) := rfl
theorem recv (a : Reg) (t : Bool) (b c d : Reg) : Statement (.recv a t b c d) := rfl
theorem recvb (a : Reg) (t : Bool) (b c d : Reg) : Statement (.recvb a t b c d) := rfl
theorem recvt (a : BitVec 3) (t : Bool) (b c d : Reg) : Statement (.recvt a t b c d) := rfl
theorem recvh (a : Reg) (t : Bool) (b c d : Reg) : Statement (.recvh a t b c d) := rfl
theorem altp (a : Reg) (t : Bool) (b c d : Reg) (n : BitVec 4) : Statement (.altp a t b c d n) := rfl
theorem altf (a : Reg) (t : Bool) (b c d : Reg) (n : BitVec 4) : Statement (.altf a t b c d n) := rfl
theorem spawn (a b c : Reg) (p : BitVec 2) : Statement (.spawn a b c p) := rfl
theorem stop : Statement (.stop) := rfl
theorem join (a : Reg) (t : Bool) (b c d : Reg) : Statement (.join a t b c d) := rfl
theorem yield : Statement (.yield) := rfl
theorem setpri (a : Reg) : Statement (.setpri a) := rfl
theorem time (a : Reg) : Statement (.time a) := rfl
theorem twait (a : Reg) : Statement (.twait a) := rfl
theorem bara (sc : BitVec 3) : Statement (.bara sc) := rfl
theorem barw (a : Reg) (t : Bool) (b : Reg) (sc : BitVec 3) : Statement (.barw a t b sc) := rfl
theorem barx (a : Reg) (t : Bool) (b : Reg) (sc : BitVec 3) : Statement (.barx a t b sc) := rfl
theorem rden (a b : Reg) (f : Bool) : Statement (.rden a b f) := rfl
theorem rdsv (a : Reg) (f : BitVec 8) : Statement (.rdsv a f) := rfl
theorem vsetl (a b : Reg) (t : BitVec 8) : Statement (.vsetl a b t) := rfl
theorem vadd (o : VOps) : Statement (.vadd o) := rfl
theorem vsub (o : VOps) : Statement (.vsub o) := rfl
theorem vmul (o : VOps) : Statement (.vmul o) := rfl
theorem vdiv (o : VOps) : Statement (.vdiv o) := rfl
theorem vfma (o : VOps) : Statement (.vfma o) := rfl
theorem vmin (o : VOps) : Statement (.vmin o) := rfl
theorem vmax (o : VOps) : Statement (.vmax o) := rfl
theorem vabs (o : VOps) : Statement (.vabs o) := rfl
theorem vneg (o : VOps) : Statement (.vneg o) := rfl
theorem vcmp (o : VOps) : Statement (.vcmp o) := rfl
theorem vsel (o : VOps) : Statement (.vsel o) := rfl
theorem vand (o : VOps) : Statement (.vand o) := rfl
theorem vor (o : VOps) : Statement (.vor o) := rfl
theorem vxor (o : VOps) : Statement (.vxor o) := rfl
theorem vnot (o : VOps) : Statement (.vnot o) := rfl
theorem vshl (o : VOps) : Statement (.vshl o) := rfl
theorem vshr (o : VOps) : Statement (.vshr o) := rfl
theorem vsar (o : VOps) : Statement (.vsar o) := rfl
theorem vcvt (o : VOps) : Statement (.vcvt o) := rfl
theorem vexp2 (o : VOps) : Statement (.vexp2 o) := rfl
theorem vlog2 (o : VOps) : Statement (.vlog2 o) := rfl
theorem vrcp (o : VOps) : Statement (.vrcp o) := rfl
theorem vrsq (o : VOps) : Statement (.vrsq o) := rfl
theorem vtanh (o : VOps) : Statement (.vtanh o) := rfl
theorem vsqrt (o : VOps) : Statement (.vsqrt o) := rfl
theorem vred (o : VOps) : Statement (.vred o) := rfl
theorem vscan (o : VOps) : Statement (.vscan o) := rfl
theorem vbcast (o : VOps) : Statement (.vbcast o) := rfl
theorem vperm (o : VOps) : Statement (.vperm o) := rfl
theorem vgather (o : VOps) : Statement (.vgather o) := rfl
theorem vscatter (o : VOps) : Statement (.vscatter o) := rfl
theorem vrand (o : VOps) : Statement (.vrand o) := rfl
theorem vmov (o : VOps) : Statement (.vmov o) := rfl
theorem vflg (a : Reg) (m : BitVec 2) : Statement (.vflg a m) := rfl
theorem vsadd (o : VOps) : Statement (.vsadd o) := rfl
theorem vssub (o : VOps) : Statement (.vssub o) := rfl
theorem vmulh (o : VOps) : Statement (.vmulh o) := rfl
theorem tacq : Statement (.tacq) := rfl
theorem trel : Statement (.trel) := rfl
theorem tset (a : BitVec 3) (b : Reg) : Statement (.tset a b) := rfl
theorem tld (a : BitVec 3) (b c : Reg) (mx : Bool) (d : BitVec 20) : Statement (.tld a b c mx d) := rfl
theorem tst (a : BitVec 3) (b c : Reg) (mx : Bool) (d : BitVec 20) : Statement (.tst a b c mx d) := rfl
theorem tzcC (a : BitVec 3) : Statement (.tzcC a) := rfl
theorem tzcT (a : BitVec 3) : Statement (.tzcT a) := rfl
theorem tmmaBf16 (a b c : BitVec 3) : Statement (.tmmaBf16 a b c) := rfl
theorem tmmaF16 (a b c : BitVec 3) : Statement (.tmmaF16 a b c) := rfl
theorem tmmaE4m3 (a b c : BitVec 3) : Statement (.tmmaE4m3 a b c) := rfl
theorem tmmaE5m2 (a b c : BitVec 3) : Statement (.tmmaE5m2 a b c) := rfl
theorem tmmaMxf8 (a b c : BitVec 3) : Statement (.tmmaMxf8 a b c) := rfl
theorem tmmaMxf6 (a b c : BitVec 3) : Statement (.tmmaMxf6 a b c) := rfl
theorem tmmaMxf4 (a b c : BitVec 3) : Statement (.tmmaMxf4 a b c) := rfl
theorem tmmaI8 (a b c : BitVec 3) : Statement (.tmmaI8 a b c) := rfl
theorem tcvt (a b : BitVec 3) (c : Reg) (i32 : Bool) (r : BitVec 3) (sat : Bool) : Statement (.tcvt a b c i32 r sat) := rfl
theorem ttran (a b : BitVec 3) : Statement (.ttran a b) := rfl
theorem tldc (a : BitVec 3) (b c : Reg) (d : BitVec 20) : Statement (.tldc a b c d) := rfl
theorem tstc (a : BitVec 3) (b c : Reg) (d : BitVec 20) : Statement (.tstc a b c d) := rfl
theorem cpset (b : Reg) (f : BitVec 4) : Statement (.cpset b f) := rfl
theorem cpgo (a : Reg) : Statement (.cpgo a) := rfl
theorem cpwait (a : Reg) : Statement (.cpwait a) := rfl
theorem rgwait (a b : Reg) : Statement (.rgwait a b) := rfl
theorem rgrel (a b : Reg) : Statement (.rgrel a b) := rfl
theorem scrub (a b c : Reg) : Statement (.scrub a b c) := rfl
theorem trap (a : Reg) (i : BitVec 12) : Statement (.trap a i) := rfl
theorem eret : Statement (.eret) := rfl
theorem krd (a b : Reg) (t : Bool) (n : BitVec 11) : Statement (.krd a b t n) := rfl
theorem kwr (a b : Reg) (t : Bool) (n : BitVec 11) : Statement (.kwr a b t n) := rfl
theorem resume (a b : Reg) : Statement (.resume a b) := rfl
theorem kill (a b : Reg) : Statement (.kill a b) := rfl
theorem mintGroup (a b c : Reg) (f : BitVec 2) : Statement (.mintGroup a b c f) := rfl
theorem mintFarPointer (a b c : Reg) (f : BitVec 4) : Statement (.mintFarPointer a b c f) := rfl
theorem rights (a b c : Reg) : Statement (.rights a b c) := rfl
theorem plbinv (b c : Reg) : Statement (.plbinv b c) := rfl
theorem ifence : Statement (.ifence) := rfl
theorem waiti (a : Reg) : Statement (.waiti a) := rfl
theorem quiesce (a : Reg) (m : Bool) : Statement (.quiesce a m) := rfl
theorem brk : Statement (.brk) := rfl
theorem unallocatedOpcode (w : BitVec 16) : Statement (.unallocatedOpcode w) := rfl
theorem linePrefetch (g : Nat) : Statement (.linePrefetch g) := rfl
theorem sliceEnd (g : Nat) : Statement (.sliceEnd g) := rfl
theorem priority0Preemption (g : Nat) : Statement (.priority0Preemption g) := rfl
theorem deadlineComparison (g : Nat) : Statement (.deadlineComparison g) := rfl
theorem channelHeaderArrival (n : Nat) : Statement (.channelHeaderArrival n) := rfl
theorem headerResend (n : Nat) : Statement (.headerResend n) := rfl
theorem transferGrant (n : Nat) : Statement (.transferGrant n) := rfl
theorem transferDone (n : Nat) : Statement (.transferDone n) := rfl
theorem doneMessage (n : Nat) : Statement (.doneMessage n) := rfl
theorem grantedDataArrival (n : Nat) : Statement (.grantedDataArrival n) := rfl
theorem acceptance (n : Nat) : Statement (.acceptance n) := rfl
theorem closedReply (n : Nat) : Statement (.closedReply n) := rfl
theorem loadDataArrival (n : Nat) : Statement (.loadDataArrival n) := rfl
theorem errorResponse (n : Nat) : Statement (.errorResponse n) := rfl
theorem deferredFaultTrap (g : Nat) : Statement (.deferredFaultTrap g) := rfl
theorem writeQueueDrain (c k : Nat) : Statement (.writeQueueDrain c k) := rfl
theorem storeAcknowledgement (n : Nat) : Statement (.storeAcknowledgement n) := rfl
theorem homeRead (n : Nat) (e : Ecc) : Statement (.homeRead n e) := rfl
theorem homeWrite (n : Nat) : Statement (.homeWrite n) := rfl
theorem homeAtomic (n : Nat) (e : Ecc) : Statement (.homeAtomic n e) := rfl
theorem atomicWatchdog (n : Nat) : Statement (.atomicWatchdog n) := rfl
theorem translationWalk (c : Nat) (dva : BitVec 52) : Statement (.translationWalk c dva) := rfl
theorem plbMiss (g : Nat) (dva : BitVec 52) : Statement (.plbMiss g dva) := rfl
theorem snapshotRequest (k : Nat) : Statement (.snapshotRequest k) := rfl
theorem epochMarker (k srv : Nat) : Statement (.epochMarker k srv) := rfl
theorem epochMarkerAcknowledgement (k srv : Nat) : Statement (.epochMarkerAcknowledgement k srv) := rfl
theorem snapshotReply (k : Nat) : Statement (.snapshotReply k) := rfl
theorem watermarkBroadcast (srv v : Nat) : Statement (.watermarkBroadcast srv v) := rfl
theorem vheldBroadcast (g v : Nat) : Statement (.vheldBroadcast g v) := rfl
theorem firnLineBroadcast (srv : Nat) : Statement (.firnLineBroadcast srv) := rfl
theorem prepare (tx srv : Nat) : Statement (.prepare tx srv) := rfl
theorem vote (tx srv : Nat) : Statement (.vote tx srv) := rfl
theorem apply (tx srv : Nat) : Statement (.apply tx srv) := rfl
theorem abortTxid (tx srv : Nat) : Statement (.abortTxid tx srv) := rfl
theorem abortAcknowledgement (tx srv : Nat) : Statement (.abortAcknowledgement tx srv) := rfl
theorem publishApply (k srv : Nat) : Statement (.publishApply k srv) := rfl
theorem copyRegistration (g slot : Nat) : Statement (.copyRegistration g slot) := rfl
theorem revocation (line : Nat) : Statement (.revocation line) := rfl
theorem revocationNotice (g ts : Nat) : Statement (.revocationNotice g ts) := rfl
theorem ablationReclaim (line ts : Nat) : Statement (.ablationReclaim line ts) := rfl
theorem sourceRead (k u : Nat) (e : Ecc) : Statement (.sourceRead k u e) := rfl
theorem thirdPartyDelivery (k i : Nat) : Statement (.thirdPartyDelivery k i) := rfl
theorem failedVoidDelivery (k i : Nat) : Statement (.failedVoidDelivery k i) := rfl
theorem errorCompletion (k : Nat) : Statement (.errorCompletion k) := rfl
theorem report (k : Nat) : Statement (.report k) := rfl
theorem copyTransfer (c id : Nat) (u : CopyMove) (e : Ecc) : Statement (.copyTransfer c id u e) := rfl
theorem copyCompletion (c id : Nat) : Statement (.copyCompletion c id) := rfl
theorem tileCommandStart (g : Nat) : Statement (.tileCommandStart g) := rfl
theorem tileCommandComplete (g : Nat) : Statement (.tileCommandComplete g) := rfl
theorem barrierArrival (g slot : Nat) : Statement (.barrierArrival g slot) := rfl
theorem barrierRelease (part lid sc unit : Nat) : Statement (.barrierRelease part lid sc unit) := rfl
theorem frostSweep (part lid g : Nat) : Statement (.frostSweep part lid g) := rfl
theorem sweepResult (part lid : Nat) : Statement (.sweepResult part lid) := rfl
theorem completionRecord (fn : Nat) : Statement (.completionRecord fn) := rfl
theorem nrgo (fn : Nat) : Statement (.nrgo fn) := rfl
theorem launch (fn : Nat) (w : Word) : Statement (.launch fn w) := rfl
theorem launchStart (fn : Nat) : Statement (.launchStart fn) := rfl
theorem netdel (fn : Nat) (w : Word) : Statement (.netdel fn w) := rfl
theorem crcons (fn : Nat) (w : Word) : Statement (.crcons fn w) := rfl
theorem abort (fn : Nat) (w : Word) : Statement (.abort fn w) := rfl
theorem hold (fn : Nat) (w : Word) : Statement (.hold fn w) := rfl
theorem registerWrite (fn : BlockView) (off : Nat) (w : Word) : Statement (.registerWrite fn off w) := rfl
theorem held (part : Nat) : Statement (.held part) := rfl
theorem partitionResume (part : Nat) : Statement (.partitionResume part) := rfl
theorem quotaComparison : Statement (.quotaComparison) := rfl
theorem meterFlush (u : Nat) : Statement (.meterFlush u) := rfl
theorem correctionFactor (rail measured : Nat) : Statement (.correctionFactor rail measured) := rfl
theorem equota (part : Nat) (w : Word) : Statement (.equota part w) := rfl
theorem create (node part : Nat) : Statement (.create node part) := rfl
theorem destroy (part : Nat) : Statement (.destroy part) := rfl
theorem merge (node : Nat) : Statement (.merge node) := rfl
theorem split (node part : Nat) : Statement (.split node part) := rfl
theorem retire (quad part : Nat) : Statement (.retire quad part) := rfl
theorem badOp (op : BitVec 4) : Statement (.badOp op) := rfl
theorem ptmap (o : MbOps) (tables : List Nat) : Statement (.ptmap o tables) := rfl
theorem ptunmap (o : MbOps) : Statement (.ptunmap o) := rfl
theorem domset (o : MbOps) : Statement (.domset o) := rfl
theorem rangeset (o : MbOps) : Statement (.rangeset o) := rfl
theorem ceweight (o : MbOps) : Statement (.ceweight o) := rfl
theorem farmap (o : MbOps) : Statement (.farmap o) := rfl
theorem farepoch (o : MbOps) : Statement (.farepoch o) := rfl
theorem qpcreate (o : MbOps) : Statement (.qpcreate o) := rfl
theorem qpreset (o : MbOps) : Statement (.qpreset o) := rfl
theorem sparerow (o : MbOps) (row : SpareRow) : Statement (.sparerow o row) := rfl
theorem poisonset (o : MbOps) : Statement (.poisonset o) := rfl
theorem mailboxBadOp (o : MbOps) (op : BitVec 8) : Statement (.mailboxBadOp o op) := rfl
theorem dbell (fn : Nat) (w : Word) : Statement (.dbell fn w) := rfl
theorem sres (fn : Nat) (w : Word) : Statement (.sres fn w) := rfl
theorem skill (fn : Nat) (w : Word) : Statement (.skill fn w) := rfl
theorem flcons (fn : Nat) (w : Word) : Statement (.flcons fn w) := rfl
theorem hvgo (fn : Nat) (w : Word) : Statement (.hvgo fn w) := rfl
theorem harvestEnd (fn lines : Nat) : Statement (.harvestEnd fn lines) := rfl
theorem rcgo (fn : Nat) (w : Word) (ok : Bool) : Statement (.rcgo fn w ok) := rfl
theorem podcfg (w : Word) : Statement (.podcfg w) := rfl
theorem perstDeassert : Statement (.perstDeassert) := rfl
theorem unitReady (u : UnitId) (pass : Bool) (failedQuads : List Nat) : Statement (.unitReady u pass failedQuads) := rfl
theorem functionLevelReset (fn : Nat) : Statement (.functionLevelReset fn) := rfl
theorem physicalFunctionReset : Statement (.physicalFunctionReset) := rfl
theorem flitReceive (port : Nat) (seqn : BitVec 12) (crcGood : Bool) (ack : BitVec 12) (p : Option Packet) : Statement (.flitReceive port seqn crcGood ack p) := rfl
theorem negativeAcknowledgement (port : Nat) (seqn : BitVec 12) : Statement (.negativeAcknowledgement port seqn) := rfl
theorem laneFailure (port : Nat) (lane : LaneErrors) : Statement (.laneFailure port lane) := rfl
theorem deadList (pkgs links : List Nat) : Statement (.deadList pkgs links) := rfl
theorem packetReturn (k : Nat) : Statement (.packetReturn k) := rfl
theorem unreachableWatchdog (k : Nat) : Statement (.unreachableWatchdog k) := rfl
theorem workRequest (n : Nat) : Statement (.workRequest n) := rfl
theorem scaleOutPacket (port qp : Nat) (p : ScaleArrival) : Statement (.scaleOutPacket port qp p) := rfl
theorem retransmit (port qp : Nat) : Statement (.retransmit port qp) := rfl
theorem bar2Read (fn addr n : Nat) : Statement (.bar2Read fn addr n) := rfl
theorem bar2Write (fn addr : Nat) (bytes : List Byte) : Statement (.bar2Write fn addr bytes) := rfl
theorem lockInterface (fn : Nat) : Statement (.lockInterface fn) := rfl
theorem startInterface (fn : Nat) : Statement (.startInterface fn) := rfl
theorem stopInterface (fn : Nat) : Statement (.stopInterface fn) := rfl
theorem getDeviceInterfaceReport (fn : Nat) : Statement (.getDeviceInterfaceReport fn) := rfl
theorem ideKm (fn : Nat) (keyed : Bool) : Statement (.ideKm fn keyed) := rfl
theorem keyLoad (fn slot : Nat) (key : BitVec 256) (fixed : BitVec 32) (start : Word) : Statement (.keyLoad fn slot key fixed start) := rfl
theorem keyDrop (fn slot : Nat) : Statement (.keyDrop fn slot) := rfl
theorem getVersion (fn : Nat) : Statement (.getVersion fn) := rfl
theorem getCapabilities (fn : Nat) : Statement (.getCapabilities fn) := rfl
theorem negotiateAlgorithms (fn : Nat) : Statement (.negotiateAlgorithms fn) := rfl
theorem getDigests (fn : Nat) : Statement (.getDigests fn) := rfl
theorem getCertificate (fn : Nat) : Statement (.getCertificate fn) := rfl
theorem challenge (fn : Nat) : Statement (.challenge fn) := rfl
theorem getMeasurements (fn idx : Nat) (signed : Bool) : Statement (.getMeasurements fn idx signed) := rfl
theorem keyExchange (fn : Nat) : Statement (.keyExchange fn) := rfl
theorem finish (fn : Nat) (verified : Bool) : Statement (.finish fn verified) := rfl
theorem endSession (fn : Nat) : Statement (.endSession fn) := rfl
theorem rowspare (srv : Nat) (row : SpareRow) : Statement (.rowspare srv row) := rfl
theorem parity (u : ParityUnit) : Statement (.parity u) := rfl
theorem elementGroup (g : Nat) : Statement (.elementGroup g) := rfl
theorem configurationWrite (fn : Nat) : Statement (.configurationWrite fn) := rfl
theorem linkRetrainingEnd (port : Nat) (up : Bool) : Statement (.linkRetrainingEnd port up) := rfl
theorem firmwareImageVerified (verdict : PushVerdict) (svn : BitVec 32) (raises : Bool) (root : Nat) : Statement (.firmwareImageVerified verdict svn raises root) := rfl
theorem podSynchronisation (ns : Nat) : Statement (.podSynchronisation ns) := rfl

end Sys2Proof.Laws.WordOrEvent
end

