-- ==== Sys2Proof/Laws/State.lean ====
section
/-! SUPPORT. One lemma per field per update, and what reading after an update gives. -/

namespace Sys2Proof.Machine

/-! The package. -/

@[simp] theorem State.setCore_cycle (s : State) (i : Nat) (x : Core) : (s.setCore i x).cycle = s.cycle := rfl
@[simp] theorem State.setCore_cur (s : State) (i : Nat) (x : Core) : (s.setCore i x).cur = s.cur := rfl
@[simp] theorem State.setCore_agenda (s : State) (i : Nat) (x : Core) : (s.setCore i x).agenda = s.agenda := rfl
@[simp] theorem State.setCore_freeCtr (s : State) (i : Nat) (x : Core) : (s.setCore i x).freeCtr = s.freeCtr := rfl
@[simp] theorem State.setCore_nextId (s : State) (i : Nat) (x : Core) : (s.setCore i x).nextId = s.nextId := rfl
@[simp] theorem State.setCore_cores (s : State) (i : Nat) (x : Core) : (s.setCore i x).cores = Tbl.put s.cores i x := rfl
@[simp] theorem State.setCore_clusters (s : State) (i : Nat) (x : Core) : (s.setCore i x).clusters = s.clusters := rfl
@[simp] theorem State.setCore_dies (s : State) (i : Nat) (x : Core) : (s.setCore i x).dies = s.dies := rfl
@[simp] theorem State.setCore_servers (s : State) (i : Nat) (x : Core) : (s.setCore i x).servers = s.servers := rfl
@[simp] theorem State.setCore_hbm (s : State) (i : Nat) (x : Core) : (s.setCore i x).hbm = s.hbm := rfl
@[simp] theorem State.setCore_hbmIdle (s : State) (i : Nat) (x : Core) : (s.setCore i x).hbmIdle = s.hbmIdle := rfl
@[simp] theorem State.setCore_setLog (s : State) (i : Nat) (x : Core) : (s.setCore i x).setLog = s.setLog := rfl
@[simp] theorem State.setCore_net (s : State) (i : Nat) (x : Core) : (s.setCore i x).net = s.net := rfl
@[simp] theorem State.setCore_spilled (s : State) (i : Nat) (x : Core) : (s.setCore i x).spilled = s.spilled := rfl
@[simp] theorem State.setCore_hostMem (s : State) (i : Nat) (x : Core) : (s.setCore i x).hostMem = s.hostMem := rfl
@[simp] theorem State.setCore_tss (s : State) (i : Nat) (x : Core) : (s.setCore i x).tss = s.tss := rfl
@[simp] theorem State.setCore_parts (s : State) (i : Nat) (x : Core) : (s.setCore i x).parts = s.parts := rfl
@[simp] theorem State.setCore_fns (s : State) (i : Nat) (x : Core) : (s.setCore i x).fns = s.fns := rfl
@[simp] theorem State.setCore_pcimg (s : State) (i : Nat) (x : Core) : (s.setCore i x).pcimg = s.pcimg := rfl
@[simp] theorem State.setCore_pcRetire (s : State) (i : Nat) (x : Core) : (s.setCore i x).pcRetire = s.pcRetire := rfl
@[simp] theorem State.setCore_pcStatus (s : State) (i : Nat) (x : Core) : (s.setCore i x).pcStatus = s.pcStatus := rfl
@[simp] theorem State.setCore_ranges (s : State) (i : Nat) (x : Core) : (s.setCore i x).ranges = s.ranges := rfl
@[simp] theorem State.setCore_ptroot (s : State) (i : Nat) (x : Core) : (s.setCore i x).ptroot = s.ptroot := rfl
@[simp] theorem State.setCore_retired (s : State) (i : Nat) (x : Core) : (s.setCore i x).retired = s.retired := rfl
@[simp] theorem State.setCore_tprs (s : State) (i : Nat) (x : Core) : (s.setCore i x).tprs = s.tprs := rfl
@[simp] theorem State.setCore_launches (s : State) (i : Nat) (x : Core) : (s.setCore i x).launches = s.launches := rfl
@[simp] theorem State.setCore_madder (s : State) (i : Nat) (x : Core) : (s.setCore i x).madder = s.madder := rfl
@[simp] theorem State.setCore_keys (s : State) (i : Nat) (x : Core) : (s.setCore i x).keys = s.keys := rfl
@[simp] theorem State.setCore_ports (s : State) (i : Nat) (x : Core) : (s.setCore i x).ports = s.ports := rfl
@[simp] theorem State.setCore_deadPkgs (s : State) (i : Nat) (x : Core) : (s.setCore i x).deadPkgs = s.deadPkgs := rfl
@[simp] theorem State.setCore_deadLinks (s : State) (i : Nat) (x : Core) : (s.setCore i x).deadLinks = s.deadLinks := rfl
@[simp] theorem State.setCore_unacked (s : State) (i : Nat) (x : Core) : (s.setCore i x).unacked = s.unacked := rfl
@[simp] theorem State.setCore_egress (s : State) (i : Nat) (x : Core) : (s.setCore i x).egress = s.egress := rfl
@[simp] theorem State.setCore_egressSeq (s : State) (i : Nat) (x : Core) : (s.setCore i x).egressSeq = s.egressSeq := rfl
@[simp] theorem State.setCore_farOut (s : State) (i : Nat) (x : Core) : (s.setCore i x).farOut = s.farOut := rfl
@[simp] theorem State.setCore_devFar (s : State) (i : Nat) (x : Core) : (s.setCore i x).devFar = s.devFar := rfl
@[simp] theorem State.setCore_devHeld (s : State) (i : Nat) (x : Core) : (s.setCore i x).devHeld = s.devHeld := rfl
@[simp] theorem State.setCore_farHdrs (s : State) (i : Nat) (x : Core) : (s.setCore i x).farHdrs = s.farHdrs := rfl
@[simp] theorem State.setCore_farIn (s : State) (i : Nat) (x : Core) : (s.setCore i x).farIn = s.farIn := rfl
@[simp] theorem State.setCore_qps (s : State) (i : Nat) (x : Core) : (s.setCore i x).qps = s.qps := rfl
@[simp] theorem State.setCore_bring (s : State) (i : Nat) (x : Core) : (s.setCore i x).bring = s.bring := rfl
@[simp] theorem State.setCore_corr (s : State) (i : Nat) (x : Core) : (s.setCore i x).corr = s.corr := rfl
@[simp] theorem State.setCore_hostOut (s : State) (i : Nat) (x : Core) : (s.setCore i x).hostOut = s.hostOut := rfl
@[simp] theorem State.setCore_upsets (s : State) (i : Nat) (x : Core) : (s.setCore i x).upsets = s.upsets := rfl
@[simp] theorem State.setCore_retireQueue (s : State) (i : Nat) (x : Core) : (s.setCore i x).retireQueue = s.retireQueue := rfl
@[simp] theorem State.setCore_owed (s : State) (i : Nat) (x : Core) : (s.setCore i x).owed = s.owed := rfl

@[simp] theorem State.setCluster_cycle (s : State) (i : Nat) (x : Cluster) : (s.setCluster i x).cycle = s.cycle := rfl
@[simp] theorem State.setCluster_cur (s : State) (i : Nat) (x : Cluster) : (s.setCluster i x).cur = s.cur := rfl
@[simp] theorem State.setCluster_agenda (s : State) (i : Nat) (x : Cluster) : (s.setCluster i x).agenda = s.agenda := rfl
@[simp] theorem State.setCluster_freeCtr (s : State) (i : Nat) (x : Cluster) : (s.setCluster i x).freeCtr = s.freeCtr := rfl
@[simp] theorem State.setCluster_nextId (s : State) (i : Nat) (x : Cluster) : (s.setCluster i x).nextId = s.nextId := rfl
@[simp] theorem State.setCluster_cores (s : State) (i : Nat) (x : Cluster) : (s.setCluster i x).cores = s.cores := rfl
@[simp] theorem State.setCluster_clusters (s : State) (i : Nat) (x : Cluster) : (s.setCluster i x).clusters = Tbl.put s.clusters i x := rfl
@[simp] theorem State.setCluster_dies (s : State) (i : Nat) (x : Cluster) : (s.setCluster i x).dies = s.dies := rfl
@[simp] theorem State.setCluster_servers (s : State) (i : Nat) (x : Cluster) : (s.setCluster i x).servers = s.servers := rfl
@[simp] theorem State.setCluster_hbm (s : State) (i : Nat) (x : Cluster) : (s.setCluster i x).hbm = s.hbm := rfl
@[simp] theorem State.setCluster_hbmIdle (s : State) (i : Nat) (x : Cluster) : (s.setCluster i x).hbmIdle = s.hbmIdle := rfl
@[simp] theorem State.setCluster_setLog (s : State) (i : Nat) (x : Cluster) : (s.setCluster i x).setLog = s.setLog := rfl
@[simp] theorem State.setCluster_net (s : State) (i : Nat) (x : Cluster) : (s.setCluster i x).net = s.net := rfl
@[simp] theorem State.setCluster_spilled (s : State) (i : Nat) (x : Cluster) : (s.setCluster i x).spilled = s.spilled := rfl
@[simp] theorem State.setCluster_hostMem (s : State) (i : Nat) (x : Cluster) : (s.setCluster i x).hostMem = s.hostMem := rfl
@[simp] theorem State.setCluster_tss (s : State) (i : Nat) (x : Cluster) : (s.setCluster i x).tss = s.tss := rfl
@[simp] theorem State.setCluster_parts (s : State) (i : Nat) (x : Cluster) : (s.setCluster i x).parts = s.parts := rfl
@[simp] theorem State.setCluster_fns (s : State) (i : Nat) (x : Cluster) : (s.setCluster i x).fns = s.fns := rfl
@[simp] theorem State.setCluster_pcimg (s : State) (i : Nat) (x : Cluster) : (s.setCluster i x).pcimg = s.pcimg := rfl
@[simp] theorem State.setCluster_pcRetire (s : State) (i : Nat) (x : Cluster) : (s.setCluster i x).pcRetire = s.pcRetire := rfl
@[simp] theorem State.setCluster_pcStatus (s : State) (i : Nat) (x : Cluster) : (s.setCluster i x).pcStatus = s.pcStatus := rfl
@[simp] theorem State.setCluster_ranges (s : State) (i : Nat) (x : Cluster) : (s.setCluster i x).ranges = s.ranges := rfl
@[simp] theorem State.setCluster_ptroot (s : State) (i : Nat) (x : Cluster) : (s.setCluster i x).ptroot = s.ptroot := rfl
@[simp] theorem State.setCluster_retired (s : State) (i : Nat) (x : Cluster) : (s.setCluster i x).retired = s.retired := rfl
@[simp] theorem State.setCluster_tprs (s : State) (i : Nat) (x : Cluster) : (s.setCluster i x).tprs = s.tprs := rfl
@[simp] theorem State.setCluster_launches (s : State) (i : Nat) (x : Cluster) : (s.setCluster i x).launches = s.launches := rfl
@[simp] theorem State.setCluster_madder (s : State) (i : Nat) (x : Cluster) : (s.setCluster i x).madder = s.madder := rfl
@[simp] theorem State.setCluster_keys (s : State) (i : Nat) (x : Cluster) : (s.setCluster i x).keys = s.keys := rfl
@[simp] theorem State.setCluster_ports (s : State) (i : Nat) (x : Cluster) : (s.setCluster i x).ports = s.ports := rfl
@[simp] theorem State.setCluster_deadPkgs (s : State) (i : Nat) (x : Cluster) : (s.setCluster i x).deadPkgs = s.deadPkgs := rfl
@[simp] theorem State.setCluster_deadLinks (s : State) (i : Nat) (x : Cluster) : (s.setCluster i x).deadLinks = s.deadLinks := rfl
@[simp] theorem State.setCluster_unacked (s : State) (i : Nat) (x : Cluster) : (s.setCluster i x).unacked = s.unacked := rfl
@[simp] theorem State.setCluster_egress (s : State) (i : Nat) (x : Cluster) : (s.setCluster i x).egress = s.egress := rfl
@[simp] theorem State.setCluster_egressSeq (s : State) (i : Nat) (x : Cluster) : (s.setCluster i x).egressSeq = s.egressSeq := rfl
@[simp] theorem State.setCluster_farOut (s : State) (i : Nat) (x : Cluster) : (s.setCluster i x).farOut = s.farOut := rfl
@[simp] theorem State.setCluster_devFar (s : State) (i : Nat) (x : Cluster) : (s.setCluster i x).devFar = s.devFar := rfl
@[simp] theorem State.setCluster_devHeld (s : State) (i : Nat) (x : Cluster) : (s.setCluster i x).devHeld = s.devHeld := rfl
@[simp] theorem State.setCluster_farHdrs (s : State) (i : Nat) (x : Cluster) : (s.setCluster i x).farHdrs = s.farHdrs := rfl
@[simp] theorem State.setCluster_farIn (s : State) (i : Nat) (x : Cluster) : (s.setCluster i x).farIn = s.farIn := rfl
@[simp] theorem State.setCluster_qps (s : State) (i : Nat) (x : Cluster) : (s.setCluster i x).qps = s.qps := rfl
@[simp] theorem State.setCluster_bring (s : State) (i : Nat) (x : Cluster) : (s.setCluster i x).bring = s.bring := rfl
@[simp] theorem State.setCluster_corr (s : State) (i : Nat) (x : Cluster) : (s.setCluster i x).corr = s.corr := rfl
@[simp] theorem State.setCluster_hostOut (s : State) (i : Nat) (x : Cluster) : (s.setCluster i x).hostOut = s.hostOut := rfl
@[simp] theorem State.setCluster_upsets (s : State) (i : Nat) (x : Cluster) : (s.setCluster i x).upsets = s.upsets := rfl
@[simp] theorem State.setCluster_retireQueue (s : State) (i : Nat) (x : Cluster) : (s.setCluster i x).retireQueue = s.retireQueue := rfl
@[simp] theorem State.setCluster_owed (s : State) (i : Nat) (x : Cluster) : (s.setCluster i x).owed = s.owed := rfl

@[simp] theorem State.setDie_cycle (s : State) (i : Nat) (x : Die) : (s.setDie i x).cycle = s.cycle := rfl
@[simp] theorem State.setDie_cur (s : State) (i : Nat) (x : Die) : (s.setDie i x).cur = s.cur := rfl
@[simp] theorem State.setDie_agenda (s : State) (i : Nat) (x : Die) : (s.setDie i x).agenda = s.agenda := rfl
@[simp] theorem State.setDie_freeCtr (s : State) (i : Nat) (x : Die) : (s.setDie i x).freeCtr = s.freeCtr := rfl
@[simp] theorem State.setDie_nextId (s : State) (i : Nat) (x : Die) : (s.setDie i x).nextId = s.nextId := rfl
@[simp] theorem State.setDie_cores (s : State) (i : Nat) (x : Die) : (s.setDie i x).cores = s.cores := rfl
@[simp] theorem State.setDie_clusters (s : State) (i : Nat) (x : Die) : (s.setDie i x).clusters = s.clusters := rfl
@[simp] theorem State.setDie_dies (s : State) (i : Nat) (x : Die) : (s.setDie i x).dies = Tbl.put s.dies i x := rfl
@[simp] theorem State.setDie_servers (s : State) (i : Nat) (x : Die) : (s.setDie i x).servers = s.servers := rfl
@[simp] theorem State.setDie_hbm (s : State) (i : Nat) (x : Die) : (s.setDie i x).hbm = s.hbm := rfl
@[simp] theorem State.setDie_hbmIdle (s : State) (i : Nat) (x : Die) : (s.setDie i x).hbmIdle = s.hbmIdle := rfl
@[simp] theorem State.setDie_setLog (s : State) (i : Nat) (x : Die) : (s.setDie i x).setLog = s.setLog := rfl
@[simp] theorem State.setDie_net (s : State) (i : Nat) (x : Die) : (s.setDie i x).net = s.net := rfl
@[simp] theorem State.setDie_spilled (s : State) (i : Nat) (x : Die) : (s.setDie i x).spilled = s.spilled := rfl
@[simp] theorem State.setDie_hostMem (s : State) (i : Nat) (x : Die) : (s.setDie i x).hostMem = s.hostMem := rfl
@[simp] theorem State.setDie_tss (s : State) (i : Nat) (x : Die) : (s.setDie i x).tss = s.tss := rfl
@[simp] theorem State.setDie_parts (s : State) (i : Nat) (x : Die) : (s.setDie i x).parts = s.parts := rfl
@[simp] theorem State.setDie_fns (s : State) (i : Nat) (x : Die) : (s.setDie i x).fns = s.fns := rfl
@[simp] theorem State.setDie_pcimg (s : State) (i : Nat) (x : Die) : (s.setDie i x).pcimg = s.pcimg := rfl
@[simp] theorem State.setDie_pcRetire (s : State) (i : Nat) (x : Die) : (s.setDie i x).pcRetire = s.pcRetire := rfl
@[simp] theorem State.setDie_pcStatus (s : State) (i : Nat) (x : Die) : (s.setDie i x).pcStatus = s.pcStatus := rfl
@[simp] theorem State.setDie_ranges (s : State) (i : Nat) (x : Die) : (s.setDie i x).ranges = s.ranges := rfl
@[simp] theorem State.setDie_ptroot (s : State) (i : Nat) (x : Die) : (s.setDie i x).ptroot = s.ptroot := rfl
@[simp] theorem State.setDie_retired (s : State) (i : Nat) (x : Die) : (s.setDie i x).retired = s.retired := rfl
@[simp] theorem State.setDie_tprs (s : State) (i : Nat) (x : Die) : (s.setDie i x).tprs = s.tprs := rfl
@[simp] theorem State.setDie_launches (s : State) (i : Nat) (x : Die) : (s.setDie i x).launches = s.launches := rfl
@[simp] theorem State.setDie_madder (s : State) (i : Nat) (x : Die) : (s.setDie i x).madder = s.madder := rfl
@[simp] theorem State.setDie_keys (s : State) (i : Nat) (x : Die) : (s.setDie i x).keys = s.keys := rfl
@[simp] theorem State.setDie_ports (s : State) (i : Nat) (x : Die) : (s.setDie i x).ports = s.ports := rfl
@[simp] theorem State.setDie_deadPkgs (s : State) (i : Nat) (x : Die) : (s.setDie i x).deadPkgs = s.deadPkgs := rfl
@[simp] theorem State.setDie_deadLinks (s : State) (i : Nat) (x : Die) : (s.setDie i x).deadLinks = s.deadLinks := rfl
@[simp] theorem State.setDie_unacked (s : State) (i : Nat) (x : Die) : (s.setDie i x).unacked = s.unacked := rfl
@[simp] theorem State.setDie_egress (s : State) (i : Nat) (x : Die) : (s.setDie i x).egress = s.egress := rfl
@[simp] theorem State.setDie_egressSeq (s : State) (i : Nat) (x : Die) : (s.setDie i x).egressSeq = s.egressSeq := rfl
@[simp] theorem State.setDie_farOut (s : State) (i : Nat) (x : Die) : (s.setDie i x).farOut = s.farOut := rfl
@[simp] theorem State.setDie_devFar (s : State) (i : Nat) (x : Die) : (s.setDie i x).devFar = s.devFar := rfl
@[simp] theorem State.setDie_devHeld (s : State) (i : Nat) (x : Die) : (s.setDie i x).devHeld = s.devHeld := rfl
@[simp] theorem State.setDie_farHdrs (s : State) (i : Nat) (x : Die) : (s.setDie i x).farHdrs = s.farHdrs := rfl
@[simp] theorem State.setDie_farIn (s : State) (i : Nat) (x : Die) : (s.setDie i x).farIn = s.farIn := rfl
@[simp] theorem State.setDie_qps (s : State) (i : Nat) (x : Die) : (s.setDie i x).qps = s.qps := rfl
@[simp] theorem State.setDie_bring (s : State) (i : Nat) (x : Die) : (s.setDie i x).bring = s.bring := rfl
@[simp] theorem State.setDie_corr (s : State) (i : Nat) (x : Die) : (s.setDie i x).corr = s.corr := rfl
@[simp] theorem State.setDie_hostOut (s : State) (i : Nat) (x : Die) : (s.setDie i x).hostOut = s.hostOut := rfl
@[simp] theorem State.setDie_upsets (s : State) (i : Nat) (x : Die) : (s.setDie i x).upsets = s.upsets := rfl
@[simp] theorem State.setDie_retireQueue (s : State) (i : Nat) (x : Die) : (s.setDie i x).retireQueue = s.retireQueue := rfl
@[simp] theorem State.setDie_owed (s : State) (i : Nat) (x : Die) : (s.setDie i x).owed = s.owed := rfl

@[simp] theorem State.setServer_cycle (s : State) (i : Nat) (x : Server) : (s.setServer i x).cycle = s.cycle := rfl
@[simp] theorem State.setServer_cur (s : State) (i : Nat) (x : Server) : (s.setServer i x).cur = s.cur := rfl
@[simp] theorem State.setServer_agenda (s : State) (i : Nat) (x : Server) : (s.setServer i x).agenda = s.agenda := rfl
@[simp] theorem State.setServer_freeCtr (s : State) (i : Nat) (x : Server) : (s.setServer i x).freeCtr = s.freeCtr := rfl
@[simp] theorem State.setServer_nextId (s : State) (i : Nat) (x : Server) : (s.setServer i x).nextId = s.nextId := rfl
@[simp] theorem State.setServer_cores (s : State) (i : Nat) (x : Server) : (s.setServer i x).cores = s.cores := rfl
@[simp] theorem State.setServer_clusters (s : State) (i : Nat) (x : Server) : (s.setServer i x).clusters = s.clusters := rfl
@[simp] theorem State.setServer_dies (s : State) (i : Nat) (x : Server) : (s.setServer i x).dies = s.dies := rfl
@[simp] theorem State.setServer_servers (s : State) (i : Nat) (x : Server) : (s.setServer i x).servers = Tbl.put s.servers i x := rfl
@[simp] theorem State.setServer_hbm (s : State) (i : Nat) (x : Server) : (s.setServer i x).hbm = s.hbm := rfl
@[simp] theorem State.setServer_hbmIdle (s : State) (i : Nat) (x : Server) : (s.setServer i x).hbmIdle = s.hbmIdle := rfl
@[simp] theorem State.setServer_setLog (s : State) (i : Nat) (x : Server) : (s.setServer i x).setLog = s.setLog := rfl
@[simp] theorem State.setServer_net (s : State) (i : Nat) (x : Server) : (s.setServer i x).net = s.net := rfl
@[simp] theorem State.setServer_spilled (s : State) (i : Nat) (x : Server) : (s.setServer i x).spilled = s.spilled := rfl
@[simp] theorem State.setServer_hostMem (s : State) (i : Nat) (x : Server) : (s.setServer i x).hostMem = s.hostMem := rfl
@[simp] theorem State.setServer_tss (s : State) (i : Nat) (x : Server) : (s.setServer i x).tss = s.tss := rfl
@[simp] theorem State.setServer_parts (s : State) (i : Nat) (x : Server) : (s.setServer i x).parts = s.parts := rfl
@[simp] theorem State.setServer_fns (s : State) (i : Nat) (x : Server) : (s.setServer i x).fns = s.fns := rfl
@[simp] theorem State.setServer_pcimg (s : State) (i : Nat) (x : Server) : (s.setServer i x).pcimg = s.pcimg := rfl
@[simp] theorem State.setServer_pcRetire (s : State) (i : Nat) (x : Server) : (s.setServer i x).pcRetire = s.pcRetire := rfl
@[simp] theorem State.setServer_pcStatus (s : State) (i : Nat) (x : Server) : (s.setServer i x).pcStatus = s.pcStatus := rfl
@[simp] theorem State.setServer_ranges (s : State) (i : Nat) (x : Server) : (s.setServer i x).ranges = s.ranges := rfl
@[simp] theorem State.setServer_ptroot (s : State) (i : Nat) (x : Server) : (s.setServer i x).ptroot = s.ptroot := rfl
@[simp] theorem State.setServer_retired (s : State) (i : Nat) (x : Server) : (s.setServer i x).retired = s.retired := rfl
@[simp] theorem State.setServer_tprs (s : State) (i : Nat) (x : Server) : (s.setServer i x).tprs = s.tprs := rfl
@[simp] theorem State.setServer_launches (s : State) (i : Nat) (x : Server) : (s.setServer i x).launches = s.launches := rfl
@[simp] theorem State.setServer_madder (s : State) (i : Nat) (x : Server) : (s.setServer i x).madder = s.madder := rfl
@[simp] theorem State.setServer_keys (s : State) (i : Nat) (x : Server) : (s.setServer i x).keys = s.keys := rfl
@[simp] theorem State.setServer_ports (s : State) (i : Nat) (x : Server) : (s.setServer i x).ports = s.ports := rfl
@[simp] theorem State.setServer_deadPkgs (s : State) (i : Nat) (x : Server) : (s.setServer i x).deadPkgs = s.deadPkgs := rfl
@[simp] theorem State.setServer_deadLinks (s : State) (i : Nat) (x : Server) : (s.setServer i x).deadLinks = s.deadLinks := rfl
@[simp] theorem State.setServer_unacked (s : State) (i : Nat) (x : Server) : (s.setServer i x).unacked = s.unacked := rfl
@[simp] theorem State.setServer_egress (s : State) (i : Nat) (x : Server) : (s.setServer i x).egress = s.egress := rfl
@[simp] theorem State.setServer_egressSeq (s : State) (i : Nat) (x : Server) : (s.setServer i x).egressSeq = s.egressSeq := rfl
@[simp] theorem State.setServer_farOut (s : State) (i : Nat) (x : Server) : (s.setServer i x).farOut = s.farOut := rfl
@[simp] theorem State.setServer_devFar (s : State) (i : Nat) (x : Server) : (s.setServer i x).devFar = s.devFar := rfl
@[simp] theorem State.setServer_devHeld (s : State) (i : Nat) (x : Server) : (s.setServer i x).devHeld = s.devHeld := rfl
@[simp] theorem State.setServer_farHdrs (s : State) (i : Nat) (x : Server) : (s.setServer i x).farHdrs = s.farHdrs := rfl
@[simp] theorem State.setServer_farIn (s : State) (i : Nat) (x : Server) : (s.setServer i x).farIn = s.farIn := rfl
@[simp] theorem State.setServer_qps (s : State) (i : Nat) (x : Server) : (s.setServer i x).qps = s.qps := rfl
@[simp] theorem State.setServer_bring (s : State) (i : Nat) (x : Server) : (s.setServer i x).bring = s.bring := rfl
@[simp] theorem State.setServer_corr (s : State) (i : Nat) (x : Server) : (s.setServer i x).corr = s.corr := rfl
@[simp] theorem State.setServer_hostOut (s : State) (i : Nat) (x : Server) : (s.setServer i x).hostOut = s.hostOut := rfl
@[simp] theorem State.setServer_upsets (s : State) (i : Nat) (x : Server) : (s.setServer i x).upsets = s.upsets := rfl
@[simp] theorem State.setServer_retireQueue (s : State) (i : Nat) (x : Server) : (s.setServer i x).retireQueue = s.retireQueue := rfl
@[simp] theorem State.setServer_owed (s : State) (i : Nat) (x : Server) : (s.setServer i x).owed = s.owed := rfl

@[simp] theorem State.setLine_cycle (s : State) (i : Nat) (x : Line) : (s.setLine i x).cycle = s.cycle := rfl
@[simp] theorem State.setLine_cur (s : State) (i : Nat) (x : Line) : (s.setLine i x).cur = s.cur := rfl
@[simp] theorem State.setLine_agenda (s : State) (i : Nat) (x : Line) : (s.setLine i x).agenda = s.agenda := rfl
@[simp] theorem State.setLine_freeCtr (s : State) (i : Nat) (x : Line) : (s.setLine i x).freeCtr = s.freeCtr := rfl
@[simp] theorem State.setLine_nextId (s : State) (i : Nat) (x : Line) : (s.setLine i x).nextId = s.nextId := rfl
@[simp] theorem State.setLine_cores (s : State) (i : Nat) (x : Line) : (s.setLine i x).cores = s.cores := rfl
@[simp] theorem State.setLine_clusters (s : State) (i : Nat) (x : Line) : (s.setLine i x).clusters = s.clusters := rfl
@[simp] theorem State.setLine_dies (s : State) (i : Nat) (x : Line) : (s.setLine i x).dies = s.dies := rfl
@[simp] theorem State.setLine_servers (s : State) (i : Nat) (x : Line) : (s.setLine i x).servers = s.servers := rfl
@[simp] theorem State.setLine_hbm (s : State) (i : Nat) (x : Line) : (s.setLine i x).hbm = Tbl.put s.hbm i x := rfl
@[simp] theorem State.setLine_hbmIdle (s : State) (i : Nat) (x : Line) : (s.setLine i x).hbmIdle = s.hbmIdle := rfl
@[simp] theorem State.setLine_setLog (s : State) (i : Nat) (x : Line) : (s.setLine i x).setLog = s.setLog := rfl
@[simp] theorem State.setLine_net (s : State) (i : Nat) (x : Line) : (s.setLine i x).net = s.net := rfl
@[simp] theorem State.setLine_spilled (s : State) (i : Nat) (x : Line) : (s.setLine i x).spilled = s.spilled := rfl
@[simp] theorem State.setLine_hostMem (s : State) (i : Nat) (x : Line) : (s.setLine i x).hostMem = s.hostMem := rfl
@[simp] theorem State.setLine_tss (s : State) (i : Nat) (x : Line) : (s.setLine i x).tss = s.tss := rfl
@[simp] theorem State.setLine_parts (s : State) (i : Nat) (x : Line) : (s.setLine i x).parts = s.parts := rfl
@[simp] theorem State.setLine_fns (s : State) (i : Nat) (x : Line) : (s.setLine i x).fns = s.fns := rfl
@[simp] theorem State.setLine_pcimg (s : State) (i : Nat) (x : Line) : (s.setLine i x).pcimg = s.pcimg := rfl
@[simp] theorem State.setLine_pcRetire (s : State) (i : Nat) (x : Line) : (s.setLine i x).pcRetire = s.pcRetire := rfl
@[simp] theorem State.setLine_pcStatus (s : State) (i : Nat) (x : Line) : (s.setLine i x).pcStatus = s.pcStatus := rfl
@[simp] theorem State.setLine_ranges (s : State) (i : Nat) (x : Line) : (s.setLine i x).ranges = s.ranges := rfl
@[simp] theorem State.setLine_ptroot (s : State) (i : Nat) (x : Line) : (s.setLine i x).ptroot = s.ptroot := rfl
@[simp] theorem State.setLine_retired (s : State) (i : Nat) (x : Line) : (s.setLine i x).retired = s.retired := rfl
@[simp] theorem State.setLine_tprs (s : State) (i : Nat) (x : Line) : (s.setLine i x).tprs = s.tprs := rfl
@[simp] theorem State.setLine_launches (s : State) (i : Nat) (x : Line) : (s.setLine i x).launches = s.launches := rfl
@[simp] theorem State.setLine_madder (s : State) (i : Nat) (x : Line) : (s.setLine i x).madder = s.madder := rfl
@[simp] theorem State.setLine_keys (s : State) (i : Nat) (x : Line) : (s.setLine i x).keys = s.keys := rfl
@[simp] theorem State.setLine_ports (s : State) (i : Nat) (x : Line) : (s.setLine i x).ports = s.ports := rfl
@[simp] theorem State.setLine_deadPkgs (s : State) (i : Nat) (x : Line) : (s.setLine i x).deadPkgs = s.deadPkgs := rfl
@[simp] theorem State.setLine_deadLinks (s : State) (i : Nat) (x : Line) : (s.setLine i x).deadLinks = s.deadLinks := rfl
@[simp] theorem State.setLine_unacked (s : State) (i : Nat) (x : Line) : (s.setLine i x).unacked = s.unacked := rfl
@[simp] theorem State.setLine_egress (s : State) (i : Nat) (x : Line) : (s.setLine i x).egress = s.egress := rfl
@[simp] theorem State.setLine_egressSeq (s : State) (i : Nat) (x : Line) : (s.setLine i x).egressSeq = s.egressSeq := rfl
@[simp] theorem State.setLine_farOut (s : State) (i : Nat) (x : Line) : (s.setLine i x).farOut = s.farOut := rfl
@[simp] theorem State.setLine_devFar (s : State) (i : Nat) (x : Line) : (s.setLine i x).devFar = s.devFar := rfl
@[simp] theorem State.setLine_devHeld (s : State) (i : Nat) (x : Line) : (s.setLine i x).devHeld = s.devHeld := rfl
@[simp] theorem State.setLine_farHdrs (s : State) (i : Nat) (x : Line) : (s.setLine i x).farHdrs = s.farHdrs := rfl
@[simp] theorem State.setLine_farIn (s : State) (i : Nat) (x : Line) : (s.setLine i x).farIn = s.farIn := rfl
@[simp] theorem State.setLine_qps (s : State) (i : Nat) (x : Line) : (s.setLine i x).qps = s.qps := rfl
@[simp] theorem State.setLine_bring (s : State) (i : Nat) (x : Line) : (s.setLine i x).bring = s.bring := rfl
@[simp] theorem State.setLine_corr (s : State) (i : Nat) (x : Line) : (s.setLine i x).corr = s.corr := rfl
@[simp] theorem State.setLine_hostOut (s : State) (i : Nat) (x : Line) : (s.setLine i x).hostOut = s.hostOut := rfl
@[simp] theorem State.setLine_upsets (s : State) (i : Nat) (x : Line) : (s.setLine i x).upsets = s.upsets := rfl
@[simp] theorem State.setLine_retireQueue (s : State) (i : Nat) (x : Line) : (s.setLine i x).retireQueue = s.retireQueue := rfl
@[simp] theorem State.setLine_owed (s : State) (i : Nat) (x : Line) : (s.setLine i x).owed = s.owed := rfl

@[simp] theorem State.setPart_cycle (s : State) (i : Nat) (x : Part) : (s.setPart i x).cycle = s.cycle := rfl
@[simp] theorem State.setPart_cur (s : State) (i : Nat) (x : Part) : (s.setPart i x).cur = s.cur := rfl
@[simp] theorem State.setPart_agenda (s : State) (i : Nat) (x : Part) : (s.setPart i x).agenda = s.agenda := rfl
@[simp] theorem State.setPart_freeCtr (s : State) (i : Nat) (x : Part) : (s.setPart i x).freeCtr = s.freeCtr := rfl
@[simp] theorem State.setPart_nextId (s : State) (i : Nat) (x : Part) : (s.setPart i x).nextId = s.nextId := rfl
@[simp] theorem State.setPart_cores (s : State) (i : Nat) (x : Part) : (s.setPart i x).cores = s.cores := rfl
@[simp] theorem State.setPart_clusters (s : State) (i : Nat) (x : Part) : (s.setPart i x).clusters = s.clusters := rfl
@[simp] theorem State.setPart_dies (s : State) (i : Nat) (x : Part) : (s.setPart i x).dies = s.dies := rfl
@[simp] theorem State.setPart_servers (s : State) (i : Nat) (x : Part) : (s.setPart i x).servers = s.servers := rfl
@[simp] theorem State.setPart_hbm (s : State) (i : Nat) (x : Part) : (s.setPart i x).hbm = s.hbm := rfl
@[simp] theorem State.setPart_hbmIdle (s : State) (i : Nat) (x : Part) : (s.setPart i x).hbmIdle = s.hbmIdle := rfl
@[simp] theorem State.setPart_setLog (s : State) (i : Nat) (x : Part) : (s.setPart i x).setLog = s.setLog := rfl
@[simp] theorem State.setPart_net (s : State) (i : Nat) (x : Part) : (s.setPart i x).net = s.net := rfl
@[simp] theorem State.setPart_spilled (s : State) (i : Nat) (x : Part) : (s.setPart i x).spilled = s.spilled := rfl
@[simp] theorem State.setPart_hostMem (s : State) (i : Nat) (x : Part) : (s.setPart i x).hostMem = s.hostMem := rfl
@[simp] theorem State.setPart_tss (s : State) (i : Nat) (x : Part) : (s.setPart i x).tss = s.tss := rfl
@[simp] theorem State.setPart_parts (s : State) (i : Nat) (x : Part) : (s.setPart i x).parts = Tbl.put s.parts i x := rfl
@[simp] theorem State.setPart_fns (s : State) (i : Nat) (x : Part) : (s.setPart i x).fns = s.fns := rfl
@[simp] theorem State.setPart_pcimg (s : State) (i : Nat) (x : Part) : (s.setPart i x).pcimg = s.pcimg := rfl
@[simp] theorem State.setPart_pcRetire (s : State) (i : Nat) (x : Part) : (s.setPart i x).pcRetire = s.pcRetire := rfl
@[simp] theorem State.setPart_pcStatus (s : State) (i : Nat) (x : Part) : (s.setPart i x).pcStatus = s.pcStatus := rfl
@[simp] theorem State.setPart_ranges (s : State) (i : Nat) (x : Part) : (s.setPart i x).ranges = s.ranges := rfl
@[simp] theorem State.setPart_ptroot (s : State) (i : Nat) (x : Part) : (s.setPart i x).ptroot = s.ptroot := rfl
@[simp] theorem State.setPart_retired (s : State) (i : Nat) (x : Part) : (s.setPart i x).retired = s.retired := rfl
@[simp] theorem State.setPart_tprs (s : State) (i : Nat) (x : Part) : (s.setPart i x).tprs = s.tprs := rfl
@[simp] theorem State.setPart_launches (s : State) (i : Nat) (x : Part) : (s.setPart i x).launches = s.launches := rfl
@[simp] theorem State.setPart_madder (s : State) (i : Nat) (x : Part) : (s.setPart i x).madder = s.madder := rfl
@[simp] theorem State.setPart_keys (s : State) (i : Nat) (x : Part) : (s.setPart i x).keys = s.keys := rfl
@[simp] theorem State.setPart_ports (s : State) (i : Nat) (x : Part) : (s.setPart i x).ports = s.ports := rfl
@[simp] theorem State.setPart_deadPkgs (s : State) (i : Nat) (x : Part) : (s.setPart i x).deadPkgs = s.deadPkgs := rfl
@[simp] theorem State.setPart_deadLinks (s : State) (i : Nat) (x : Part) : (s.setPart i x).deadLinks = s.deadLinks := rfl
@[simp] theorem State.setPart_unacked (s : State) (i : Nat) (x : Part) : (s.setPart i x).unacked = s.unacked := rfl
@[simp] theorem State.setPart_egress (s : State) (i : Nat) (x : Part) : (s.setPart i x).egress = s.egress := rfl
@[simp] theorem State.setPart_egressSeq (s : State) (i : Nat) (x : Part) : (s.setPart i x).egressSeq = s.egressSeq := rfl
@[simp] theorem State.setPart_farOut (s : State) (i : Nat) (x : Part) : (s.setPart i x).farOut = s.farOut := rfl
@[simp] theorem State.setPart_devFar (s : State) (i : Nat) (x : Part) : (s.setPart i x).devFar = s.devFar := rfl
@[simp] theorem State.setPart_devHeld (s : State) (i : Nat) (x : Part) : (s.setPart i x).devHeld = s.devHeld := rfl
@[simp] theorem State.setPart_farHdrs (s : State) (i : Nat) (x : Part) : (s.setPart i x).farHdrs = s.farHdrs := rfl
@[simp] theorem State.setPart_farIn (s : State) (i : Nat) (x : Part) : (s.setPart i x).farIn = s.farIn := rfl
@[simp] theorem State.setPart_qps (s : State) (i : Nat) (x : Part) : (s.setPart i x).qps = s.qps := rfl
@[simp] theorem State.setPart_bring (s : State) (i : Nat) (x : Part) : (s.setPart i x).bring = s.bring := rfl
@[simp] theorem State.setPart_corr (s : State) (i : Nat) (x : Part) : (s.setPart i x).corr = s.corr := rfl
@[simp] theorem State.setPart_hostOut (s : State) (i : Nat) (x : Part) : (s.setPart i x).hostOut = s.hostOut := rfl
@[simp] theorem State.setPart_upsets (s : State) (i : Nat) (x : Part) : (s.setPart i x).upsets = s.upsets := rfl
@[simp] theorem State.setPart_retireQueue (s : State) (i : Nat) (x : Part) : (s.setPart i x).retireQueue = s.retireQueue := rfl
@[simp] theorem State.setPart_owed (s : State) (i : Nat) (x : Part) : (s.setPart i x).owed = s.owed := rfl

@[simp] theorem State.setFn_cycle (s : State) (i : Nat) (x : Fn) : (s.setFn i x).cycle = s.cycle := rfl
@[simp] theorem State.setFn_cur (s : State) (i : Nat) (x : Fn) : (s.setFn i x).cur = s.cur := rfl
@[simp] theorem State.setFn_agenda (s : State) (i : Nat) (x : Fn) : (s.setFn i x).agenda = s.agenda := rfl
@[simp] theorem State.setFn_freeCtr (s : State) (i : Nat) (x : Fn) : (s.setFn i x).freeCtr = s.freeCtr := rfl
@[simp] theorem State.setFn_nextId (s : State) (i : Nat) (x : Fn) : (s.setFn i x).nextId = s.nextId := rfl
@[simp] theorem State.setFn_cores (s : State) (i : Nat) (x : Fn) : (s.setFn i x).cores = s.cores := rfl
@[simp] theorem State.setFn_clusters (s : State) (i : Nat) (x : Fn) : (s.setFn i x).clusters = s.clusters := rfl
@[simp] theorem State.setFn_dies (s : State) (i : Nat) (x : Fn) : (s.setFn i x).dies = s.dies := rfl
@[simp] theorem State.setFn_servers (s : State) (i : Nat) (x : Fn) : (s.setFn i x).servers = s.servers := rfl
@[simp] theorem State.setFn_hbm (s : State) (i : Nat) (x : Fn) : (s.setFn i x).hbm = s.hbm := rfl
@[simp] theorem State.setFn_hbmIdle (s : State) (i : Nat) (x : Fn) : (s.setFn i x).hbmIdle = s.hbmIdle := rfl
@[simp] theorem State.setFn_setLog (s : State) (i : Nat) (x : Fn) : (s.setFn i x).setLog = s.setLog := rfl
@[simp] theorem State.setFn_net (s : State) (i : Nat) (x : Fn) : (s.setFn i x).net = s.net := rfl
@[simp] theorem State.setFn_spilled (s : State) (i : Nat) (x : Fn) : (s.setFn i x).spilled = s.spilled := rfl
@[simp] theorem State.setFn_hostMem (s : State) (i : Nat) (x : Fn) : (s.setFn i x).hostMem = s.hostMem := rfl
@[simp] theorem State.setFn_tss (s : State) (i : Nat) (x : Fn) : (s.setFn i x).tss = s.tss := rfl
@[simp] theorem State.setFn_parts (s : State) (i : Nat) (x : Fn) : (s.setFn i x).parts = s.parts := rfl
@[simp] theorem State.setFn_fns (s : State) (i : Nat) (x : Fn) : (s.setFn i x).fns = Tbl.put s.fns i x := rfl
@[simp] theorem State.setFn_pcimg (s : State) (i : Nat) (x : Fn) : (s.setFn i x).pcimg = s.pcimg := rfl
@[simp] theorem State.setFn_pcRetire (s : State) (i : Nat) (x : Fn) : (s.setFn i x).pcRetire = s.pcRetire := rfl
@[simp] theorem State.setFn_pcStatus (s : State) (i : Nat) (x : Fn) : (s.setFn i x).pcStatus = s.pcStatus := rfl
@[simp] theorem State.setFn_ranges (s : State) (i : Nat) (x : Fn) : (s.setFn i x).ranges = s.ranges := rfl
@[simp] theorem State.setFn_ptroot (s : State) (i : Nat) (x : Fn) : (s.setFn i x).ptroot = s.ptroot := rfl
@[simp] theorem State.setFn_retired (s : State) (i : Nat) (x : Fn) : (s.setFn i x).retired = s.retired := rfl
@[simp] theorem State.setFn_tprs (s : State) (i : Nat) (x : Fn) : (s.setFn i x).tprs = s.tprs := rfl
@[simp] theorem State.setFn_launches (s : State) (i : Nat) (x : Fn) : (s.setFn i x).launches = s.launches := rfl
@[simp] theorem State.setFn_madder (s : State) (i : Nat) (x : Fn) : (s.setFn i x).madder = s.madder := rfl
@[simp] theorem State.setFn_keys (s : State) (i : Nat) (x : Fn) : (s.setFn i x).keys = s.keys := rfl
@[simp] theorem State.setFn_ports (s : State) (i : Nat) (x : Fn) : (s.setFn i x).ports = s.ports := rfl
@[simp] theorem State.setFn_deadPkgs (s : State) (i : Nat) (x : Fn) : (s.setFn i x).deadPkgs = s.deadPkgs := rfl
@[simp] theorem State.setFn_deadLinks (s : State) (i : Nat) (x : Fn) : (s.setFn i x).deadLinks = s.deadLinks := rfl
@[simp] theorem State.setFn_unacked (s : State) (i : Nat) (x : Fn) : (s.setFn i x).unacked = s.unacked := rfl
@[simp] theorem State.setFn_egress (s : State) (i : Nat) (x : Fn) : (s.setFn i x).egress = s.egress := rfl
@[simp] theorem State.setFn_egressSeq (s : State) (i : Nat) (x : Fn) : (s.setFn i x).egressSeq = s.egressSeq := rfl
@[simp] theorem State.setFn_farOut (s : State) (i : Nat) (x : Fn) : (s.setFn i x).farOut = s.farOut := rfl
@[simp] theorem State.setFn_devFar (s : State) (i : Nat) (x : Fn) : (s.setFn i x).devFar = s.devFar := rfl
@[simp] theorem State.setFn_devHeld (s : State) (i : Nat) (x : Fn) : (s.setFn i x).devHeld = s.devHeld := rfl
@[simp] theorem State.setFn_farHdrs (s : State) (i : Nat) (x : Fn) : (s.setFn i x).farHdrs = s.farHdrs := rfl
@[simp] theorem State.setFn_farIn (s : State) (i : Nat) (x : Fn) : (s.setFn i x).farIn = s.farIn := rfl
@[simp] theorem State.setFn_qps (s : State) (i : Nat) (x : Fn) : (s.setFn i x).qps = s.qps := rfl
@[simp] theorem State.setFn_bring (s : State) (i : Nat) (x : Fn) : (s.setFn i x).bring = s.bring := rfl
@[simp] theorem State.setFn_corr (s : State) (i : Nat) (x : Fn) : (s.setFn i x).corr = s.corr := rfl
@[simp] theorem State.setFn_hostOut (s : State) (i : Nat) (x : Fn) : (s.setFn i x).hostOut = s.hostOut := rfl
@[simp] theorem State.setFn_upsets (s : State) (i : Nat) (x : Fn) : (s.setFn i x).upsets = s.upsets := rfl
@[simp] theorem State.setFn_retireQueue (s : State) (i : Nat) (x : Fn) : (s.setFn i x).retireQueue = s.retireQueue := rfl
@[simp] theorem State.setFn_owed (s : State) (i : Nat) (x : Fn) : (s.setFn i x).owed = s.owed := rfl

@[simp] theorem State.setPort_cycle (s : State) (i : Nat) (x : Port) : (s.setPort i x).cycle = s.cycle := rfl
@[simp] theorem State.setPort_cur (s : State) (i : Nat) (x : Port) : (s.setPort i x).cur = s.cur := rfl
@[simp] theorem State.setPort_agenda (s : State) (i : Nat) (x : Port) : (s.setPort i x).agenda = s.agenda := rfl
@[simp] theorem State.setPort_freeCtr (s : State) (i : Nat) (x : Port) : (s.setPort i x).freeCtr = s.freeCtr := rfl
@[simp] theorem State.setPort_nextId (s : State) (i : Nat) (x : Port) : (s.setPort i x).nextId = s.nextId := rfl
@[simp] theorem State.setPort_cores (s : State) (i : Nat) (x : Port) : (s.setPort i x).cores = s.cores := rfl
@[simp] theorem State.setPort_clusters (s : State) (i : Nat) (x : Port) : (s.setPort i x).clusters = s.clusters := rfl
@[simp] theorem State.setPort_dies (s : State) (i : Nat) (x : Port) : (s.setPort i x).dies = s.dies := rfl
@[simp] theorem State.setPort_servers (s : State) (i : Nat) (x : Port) : (s.setPort i x).servers = s.servers := rfl
@[simp] theorem State.setPort_hbm (s : State) (i : Nat) (x : Port) : (s.setPort i x).hbm = s.hbm := rfl
@[simp] theorem State.setPort_hbmIdle (s : State) (i : Nat) (x : Port) : (s.setPort i x).hbmIdle = s.hbmIdle := rfl
@[simp] theorem State.setPort_setLog (s : State) (i : Nat) (x : Port) : (s.setPort i x).setLog = s.setLog := rfl
@[simp] theorem State.setPort_net (s : State) (i : Nat) (x : Port) : (s.setPort i x).net = s.net := rfl
@[simp] theorem State.setPort_spilled (s : State) (i : Nat) (x : Port) : (s.setPort i x).spilled = s.spilled := rfl
@[simp] theorem State.setPort_hostMem (s : State) (i : Nat) (x : Port) : (s.setPort i x).hostMem = s.hostMem := rfl
@[simp] theorem State.setPort_tss (s : State) (i : Nat) (x : Port) : (s.setPort i x).tss = s.tss := rfl
@[simp] theorem State.setPort_parts (s : State) (i : Nat) (x : Port) : (s.setPort i x).parts = s.parts := rfl
@[simp] theorem State.setPort_fns (s : State) (i : Nat) (x : Port) : (s.setPort i x).fns = s.fns := rfl
@[simp] theorem State.setPort_pcimg (s : State) (i : Nat) (x : Port) : (s.setPort i x).pcimg = s.pcimg := rfl
@[simp] theorem State.setPort_pcRetire (s : State) (i : Nat) (x : Port) : (s.setPort i x).pcRetire = s.pcRetire := rfl
@[simp] theorem State.setPort_pcStatus (s : State) (i : Nat) (x : Port) : (s.setPort i x).pcStatus = s.pcStatus := rfl
@[simp] theorem State.setPort_ranges (s : State) (i : Nat) (x : Port) : (s.setPort i x).ranges = s.ranges := rfl
@[simp] theorem State.setPort_ptroot (s : State) (i : Nat) (x : Port) : (s.setPort i x).ptroot = s.ptroot := rfl
@[simp] theorem State.setPort_retired (s : State) (i : Nat) (x : Port) : (s.setPort i x).retired = s.retired := rfl
@[simp] theorem State.setPort_tprs (s : State) (i : Nat) (x : Port) : (s.setPort i x).tprs = s.tprs := rfl
@[simp] theorem State.setPort_launches (s : State) (i : Nat) (x : Port) : (s.setPort i x).launches = s.launches := rfl
@[simp] theorem State.setPort_madder (s : State) (i : Nat) (x : Port) : (s.setPort i x).madder = s.madder := rfl
@[simp] theorem State.setPort_keys (s : State) (i : Nat) (x : Port) : (s.setPort i x).keys = s.keys := rfl
@[simp] theorem State.setPort_ports (s : State) (i : Nat) (x : Port) : (s.setPort i x).ports = Tbl.put s.ports i x := rfl
@[simp] theorem State.setPort_deadPkgs (s : State) (i : Nat) (x : Port) : (s.setPort i x).deadPkgs = s.deadPkgs := rfl
@[simp] theorem State.setPort_deadLinks (s : State) (i : Nat) (x : Port) : (s.setPort i x).deadLinks = s.deadLinks := rfl
@[simp] theorem State.setPort_unacked (s : State) (i : Nat) (x : Port) : (s.setPort i x).unacked = s.unacked := rfl
@[simp] theorem State.setPort_egress (s : State) (i : Nat) (x : Port) : (s.setPort i x).egress = s.egress := rfl
@[simp] theorem State.setPort_egressSeq (s : State) (i : Nat) (x : Port) : (s.setPort i x).egressSeq = s.egressSeq := rfl
@[simp] theorem State.setPort_farOut (s : State) (i : Nat) (x : Port) : (s.setPort i x).farOut = s.farOut := rfl
@[simp] theorem State.setPort_devFar (s : State) (i : Nat) (x : Port) : (s.setPort i x).devFar = s.devFar := rfl
@[simp] theorem State.setPort_devHeld (s : State) (i : Nat) (x : Port) : (s.setPort i x).devHeld = s.devHeld := rfl
@[simp] theorem State.setPort_farHdrs (s : State) (i : Nat) (x : Port) : (s.setPort i x).farHdrs = s.farHdrs := rfl
@[simp] theorem State.setPort_farIn (s : State) (i : Nat) (x : Port) : (s.setPort i x).farIn = s.farIn := rfl
@[simp] theorem State.setPort_qps (s : State) (i : Nat) (x : Port) : (s.setPort i x).qps = s.qps := rfl
@[simp] theorem State.setPort_bring (s : State) (i : Nat) (x : Port) : (s.setPort i x).bring = s.bring := rfl
@[simp] theorem State.setPort_corr (s : State) (i : Nat) (x : Port) : (s.setPort i x).corr = s.corr := rfl
@[simp] theorem State.setPort_hostOut (s : State) (i : Nat) (x : Port) : (s.setPort i x).hostOut = s.hostOut := rfl
@[simp] theorem State.setPort_upsets (s : State) (i : Nat) (x : Port) : (s.setPort i x).upsets = s.upsets := rfl
@[simp] theorem State.setPort_retireQueue (s : State) (i : Nat) (x : Port) : (s.setPort i x).retireQueue = s.retireQueue := rfl
@[simp] theorem State.setPort_owed (s : State) (i : Nat) (x : Port) : (s.setPort i x).owed = s.owed := rfl

@[simp] theorem State.charge_cycle (s : State) (u : Nat) (dye : BitVec 16) (e : Ev) (n : Nat) : (s.charge u dye e n).cycle = s.cycle := rfl
@[simp] theorem State.charge_cur (s : State) (u : Nat) (dye : BitVec 16) (e : Ev) (n : Nat) : (s.charge u dye e n).cur = s.cur := rfl
@[simp] theorem State.charge_agenda (s : State) (u : Nat) (dye : BitVec 16) (e : Ev) (n : Nat) : (s.charge u dye e n).agenda = s.agenda := rfl
@[simp] theorem State.charge_freeCtr (s : State) (u : Nat) (dye : BitVec 16) (e : Ev) (n : Nat) : (s.charge u dye e n).freeCtr = s.freeCtr := rfl
@[simp] theorem State.charge_nextId (s : State) (u : Nat) (dye : BitVec 16) (e : Ev) (n : Nat) : (s.charge u dye e n).nextId = s.nextId := rfl
@[simp] theorem State.charge_cores (s : State) (u : Nat) (dye : BitVec 16) (e : Ev) (n : Nat) : (s.charge u dye e n).cores = s.cores := rfl
@[simp] theorem State.charge_clusters (s : State) (u : Nat) (dye : BitVec 16) (e : Ev) (n : Nat) : (s.charge u dye e n).clusters = s.clusters := rfl
@[simp] theorem State.charge_dies (s : State) (u : Nat) (dye : BitVec 16) (e : Ev) (n : Nat) : (s.charge u dye e n).dies = s.dies := rfl
@[simp] theorem State.charge_servers (s : State) (u : Nat) (dye : BitVec 16) (e : Ev) (n : Nat) : (s.charge u dye e n).servers = s.servers := rfl
@[simp] theorem State.charge_hbm (s : State) (u : Nat) (dye : BitVec 16) (e : Ev) (n : Nat) : (s.charge u dye e n).hbm = s.hbm := rfl
@[simp] theorem State.charge_hbmIdle (s : State) (u : Nat) (dye : BitVec 16) (e : Ev) (n : Nat) : (s.charge u dye e n).hbmIdle = s.hbmIdle := rfl
@[simp] theorem State.charge_setLog (s : State) (u : Nat) (dye : BitVec 16) (e : Ev) (n : Nat) : (s.charge u dye e n).setLog = s.setLog := rfl
@[simp] theorem State.charge_net (s : State) (u : Nat) (dye : BitVec 16) (e : Ev) (n : Nat) : (s.charge u dye e n).net = s.net := rfl
@[simp] theorem State.charge_spilled (s : State) (u : Nat) (dye : BitVec 16) (e : Ev) (n : Nat) : (s.charge u dye e n).spilled = s.spilled := rfl
@[simp] theorem State.charge_hostMem (s : State) (u : Nat) (dye : BitVec 16) (e : Ev) (n : Nat) : (s.charge u dye e n).hostMem = s.hostMem := rfl
@[simp] theorem State.charge_tss (s : State) (u : Nat) (dye : BitVec 16) (e : Ev) (n : Nat) : (s.charge u dye e n).tss = s.tss := rfl
@[simp] theorem State.charge_parts (s : State) (u : Nat) (dye : BitVec 16) (e : Ev) (n : Nat) : (s.charge u dye e n).parts = s.parts := rfl
@[simp] theorem State.charge_fns (s : State) (u : Nat) (dye : BitVec 16) (e : Ev) (n : Nat) : (s.charge u dye e n).fns = s.fns := rfl
@[simp] theorem State.charge_pcimg (s : State) (u : Nat) (dye : BitVec 16) (e : Ev) (n : Nat) : (s.charge u dye e n).pcimg = s.pcimg := rfl
@[simp] theorem State.charge_pcRetire (s : State) (u : Nat) (dye : BitVec 16) (e : Ev) (n : Nat) : (s.charge u dye e n).pcRetire = s.pcRetire := rfl
@[simp] theorem State.charge_pcStatus (s : State) (u : Nat) (dye : BitVec 16) (e : Ev) (n : Nat) : (s.charge u dye e n).pcStatus = s.pcStatus := rfl
@[simp] theorem State.charge_ranges (s : State) (u : Nat) (dye : BitVec 16) (e : Ev) (n : Nat) : (s.charge u dye e n).ranges = s.ranges := rfl
@[simp] theorem State.charge_ptroot (s : State) (u : Nat) (dye : BitVec 16) (e : Ev) (n : Nat) : (s.charge u dye e n).ptroot = s.ptroot := rfl
@[simp] theorem State.charge_retired (s : State) (u : Nat) (dye : BitVec 16) (e : Ev) (n : Nat) : (s.charge u dye e n).retired = s.retired := rfl
@[simp] theorem State.charge_tprs (s : State) (u : Nat) (dye : BitVec 16) (e : Ev) (n : Nat) : (s.charge u dye e n).tprs = s.tprs := rfl
@[simp] theorem State.charge_launches (s : State) (u : Nat) (dye : BitVec 16) (e : Ev) (n : Nat) : (s.charge u dye e n).launches = s.launches := rfl
@[simp] theorem State.charge_madder (s : State) (u : Nat) (dye : BitVec 16) (e : Ev) (n : Nat) : (s.charge u dye e n).madder = s.madder.charge u dye e.rail (n * s.madder.coeff.getD e.idx 0) := rfl
@[simp] theorem State.charge_keys (s : State) (u : Nat) (dye : BitVec 16) (e : Ev) (n : Nat) : (s.charge u dye e n).keys = s.keys := rfl
@[simp] theorem State.charge_ports (s : State) (u : Nat) (dye : BitVec 16) (e : Ev) (n : Nat) : (s.charge u dye e n).ports = s.ports := rfl
@[simp] theorem State.charge_deadPkgs (s : State) (u : Nat) (dye : BitVec 16) (e : Ev) (n : Nat) : (s.charge u dye e n).deadPkgs = s.deadPkgs := rfl
@[simp] theorem State.charge_deadLinks (s : State) (u : Nat) (dye : BitVec 16) (e : Ev) (n : Nat) : (s.charge u dye e n).deadLinks = s.deadLinks := rfl
@[simp] theorem State.charge_unacked (s : State) (u : Nat) (dye : BitVec 16) (e : Ev) (n : Nat) : (s.charge u dye e n).unacked = s.unacked := rfl
@[simp] theorem State.charge_egress (s : State) (u : Nat) (dye : BitVec 16) (e : Ev) (n : Nat) : (s.charge u dye e n).egress = s.egress := rfl
@[simp] theorem State.charge_egressSeq (s : State) (u : Nat) (dye : BitVec 16) (e : Ev) (n : Nat) : (s.charge u dye e n).egressSeq = s.egressSeq := rfl
@[simp] theorem State.charge_farOut (s : State) (u : Nat) (dye : BitVec 16) (e : Ev) (n : Nat) : (s.charge u dye e n).farOut = s.farOut := rfl
@[simp] theorem State.charge_devFar (s : State) (u : Nat) (dye : BitVec 16) (e : Ev) (n : Nat) : (s.charge u dye e n).devFar = s.devFar := rfl
@[simp] theorem State.charge_devHeld (s : State) (u : Nat) (dye : BitVec 16) (e : Ev) (n : Nat) : (s.charge u dye e n).devHeld = s.devHeld := rfl
@[simp] theorem State.charge_farHdrs (s : State) (u : Nat) (dye : BitVec 16) (e : Ev) (n : Nat) : (s.charge u dye e n).farHdrs = s.farHdrs := rfl
@[simp] theorem State.charge_farIn (s : State) (u : Nat) (dye : BitVec 16) (e : Ev) (n : Nat) : (s.charge u dye e n).farIn = s.farIn := rfl
@[simp] theorem State.charge_qps (s : State) (u : Nat) (dye : BitVec 16) (e : Ev) (n : Nat) : (s.charge u dye e n).qps = s.qps := rfl
@[simp] theorem State.charge_bring (s : State) (u : Nat) (dye : BitVec 16) (e : Ev) (n : Nat) : (s.charge u dye e n).bring = s.bring := rfl
@[simp] theorem State.charge_corr (s : State) (u : Nat) (dye : BitVec 16) (e : Ev) (n : Nat) : (s.charge u dye e n).corr = s.corr := rfl
@[simp] theorem State.charge_hostOut (s : State) (u : Nat) (dye : BitVec 16) (e : Ev) (n : Nat) : (s.charge u dye e n).hostOut = s.hostOut := rfl
@[simp] theorem State.charge_upsets (s : State) (u : Nat) (dye : BitVec 16) (e : Ev) (n : Nat) : (s.charge u dye e n).upsets = s.upsets := rfl
@[simp] theorem State.charge_retireQueue (s : State) (u : Nat) (dye : BitVec 16) (e : Ev) (n : Nat) : (s.charge u dye e n).retireQueue = s.retireQueue := rfl
@[simp] theorem State.charge_owed (s : State) (u : Nat) (dye : BitVec 16) (e : Ev) (n : Nat) : (s.charge u dye e n).owed = s.owed := rfl

@[simp] theorem State.post_cycle (s : State) (a b : Node) (x : Body) : (s.post a b x).cycle = s.cycle := rfl
@[simp] theorem State.post_cur (s : State) (a b : Node) (x : Body) : (s.post a b x).cur = s.cur := rfl
@[simp] theorem State.post_agenda (s : State) (a b : Node) (x : Body) : (s.post a b x).agenda = s.agenda := rfl
@[simp] theorem State.post_freeCtr (s : State) (a b : Node) (x : Body) : (s.post a b x).freeCtr = s.freeCtr := rfl
@[simp] theorem State.post_nextId (s : State) (a b : Node) (x : Body) : (s.post a b x).nextId = s.nextId := rfl
@[simp] theorem State.post_cores (s : State) (a b : Node) (x : Body) : (s.post a b x).cores = s.cores := rfl
@[simp] theorem State.post_clusters (s : State) (a b : Node) (x : Body) : (s.post a b x).clusters = s.clusters := rfl
@[simp] theorem State.post_dies (s : State) (a b : Node) (x : Body) : (s.post a b x).dies = s.dies := rfl
@[simp] theorem State.post_servers (s : State) (a b : Node) (x : Body) : (s.post a b x).servers = s.servers := rfl
@[simp] theorem State.post_hbm (s : State) (a b : Node) (x : Body) : (s.post a b x).hbm = s.hbm := rfl
@[simp] theorem State.post_hbmIdle (s : State) (a b : Node) (x : Body) : (s.post a b x).hbmIdle = s.hbmIdle := rfl
@[simp] theorem State.post_setLog (s : State) (a b : Node) (x : Body) : (s.post a b x).setLog = s.setLog := rfl
@[simp] theorem State.post_net (s : State) (a b : Node) (x : Body) : (s.post a b x).net = s.net ++ [{ src := a, dst := b, body := x }] := rfl
@[simp] theorem State.post_spilled (s : State) (a b : Node) (x : Body) : (s.post a b x).spilled = s.spilled := rfl
@[simp] theorem State.post_hostMem (s : State) (a b : Node) (x : Body) : (s.post a b x).hostMem = s.hostMem := rfl
@[simp] theorem State.post_tss (s : State) (a b : Node) (x : Body) : (s.post a b x).tss = s.tss := rfl
@[simp] theorem State.post_parts (s : State) (a b : Node) (x : Body) : (s.post a b x).parts = s.parts := rfl
@[simp] theorem State.post_fns (s : State) (a b : Node) (x : Body) : (s.post a b x).fns = s.fns := rfl
@[simp] theorem State.post_pcimg (s : State) (a b : Node) (x : Body) : (s.post a b x).pcimg = s.pcimg := rfl
@[simp] theorem State.post_pcRetire (s : State) (a b : Node) (x : Body) : (s.post a b x).pcRetire = s.pcRetire := rfl
@[simp] theorem State.post_pcStatus (s : State) (a b : Node) (x : Body) : (s.post a b x).pcStatus = s.pcStatus := rfl
@[simp] theorem State.post_ranges (s : State) (a b : Node) (x : Body) : (s.post a b x).ranges = s.ranges := rfl
@[simp] theorem State.post_ptroot (s : State) (a b : Node) (x : Body) : (s.post a b x).ptroot = s.ptroot := rfl
@[simp] theorem State.post_retired (s : State) (a b : Node) (x : Body) : (s.post a b x).retired = s.retired := rfl
@[simp] theorem State.post_tprs (s : State) (a b : Node) (x : Body) : (s.post a b x).tprs = s.tprs := rfl
@[simp] theorem State.post_launches (s : State) (a b : Node) (x : Body) : (s.post a b x).launches = s.launches := rfl
@[simp] theorem State.post_madder (s : State) (a b : Node) (x : Body) : (s.post a b x).madder = s.madder := rfl
@[simp] theorem State.post_keys (s : State) (a b : Node) (x : Body) : (s.post a b x).keys = s.keys := rfl
@[simp] theorem State.post_ports (s : State) (a b : Node) (x : Body) : (s.post a b x).ports = s.ports := rfl
@[simp] theorem State.post_deadPkgs (s : State) (a b : Node) (x : Body) : (s.post a b x).deadPkgs = s.deadPkgs := rfl
@[simp] theorem State.post_deadLinks (s : State) (a b : Node) (x : Body) : (s.post a b x).deadLinks = s.deadLinks := rfl
@[simp] theorem State.post_unacked (s : State) (a b : Node) (x : Body) : (s.post a b x).unacked = s.unacked := rfl
@[simp] theorem State.post_egress (s : State) (a b : Node) (x : Body) : (s.post a b x).egress = s.egress := rfl
@[simp] theorem State.post_egressSeq (s : State) (a b : Node) (x : Body) : (s.post a b x).egressSeq = s.egressSeq := rfl
@[simp] theorem State.post_farOut (s : State) (a b : Node) (x : Body) : (s.post a b x).farOut = s.farOut := rfl
@[simp] theorem State.post_devFar (s : State) (a b : Node) (x : Body) : (s.post a b x).devFar = s.devFar := rfl
@[simp] theorem State.post_devHeld (s : State) (a b : Node) (x : Body) : (s.post a b x).devHeld = s.devHeld := rfl
@[simp] theorem State.post_farHdrs (s : State) (a b : Node) (x : Body) : (s.post a b x).farHdrs = s.farHdrs := rfl
@[simp] theorem State.post_farIn (s : State) (a b : Node) (x : Body) : (s.post a b x).farIn = s.farIn := rfl
@[simp] theorem State.post_qps (s : State) (a b : Node) (x : Body) : (s.post a b x).qps = s.qps := rfl
@[simp] theorem State.post_bring (s : State) (a b : Node) (x : Body) : (s.post a b x).bring = s.bring := rfl
@[simp] theorem State.post_corr (s : State) (a b : Node) (x : Body) : (s.post a b x).corr = s.corr := rfl
@[simp] theorem State.post_hostOut (s : State) (a b : Node) (x : Body) : (s.post a b x).hostOut = s.hostOut := rfl
@[simp] theorem State.post_upsets (s : State) (a b : Node) (x : Body) : (s.post a b x).upsets = s.upsets := rfl
@[simp] theorem State.post_retireQueue (s : State) (a b : Node) (x : Body) : (s.post a b x).retireQueue = s.retireQueue := rfl
@[simp] theorem State.post_owed (s : State) (a b : Node) (x : Body) : (s.post a b x).owed = s.owed := rfl

@[simp] theorem State.msix_cycle (s : State) (fn v : Nat) : (s.msix fn v).cycle = s.cycle := rfl
@[simp] theorem State.msix_cur (s : State) (fn v : Nat) : (s.msix fn v).cur = s.cur := rfl
@[simp] theorem State.msix_agenda (s : State) (fn v : Nat) : (s.msix fn v).agenda = s.agenda := rfl
@[simp] theorem State.msix_freeCtr (s : State) (fn v : Nat) : (s.msix fn v).freeCtr = s.freeCtr := rfl
@[simp] theorem State.msix_nextId (s : State) (fn v : Nat) : (s.msix fn v).nextId = s.nextId := rfl
@[simp] theorem State.msix_cores (s : State) (fn v : Nat) : (s.msix fn v).cores = s.cores := rfl
@[simp] theorem State.msix_clusters (s : State) (fn v : Nat) : (s.msix fn v).clusters = s.clusters := rfl
@[simp] theorem State.msix_dies (s : State) (fn v : Nat) : (s.msix fn v).dies = s.dies := rfl
@[simp] theorem State.msix_servers (s : State) (fn v : Nat) : (s.msix fn v).servers = s.servers := rfl
@[simp] theorem State.msix_hbm (s : State) (fn v : Nat) : (s.msix fn v).hbm = s.hbm := rfl
@[simp] theorem State.msix_hbmIdle (s : State) (fn v : Nat) : (s.msix fn v).hbmIdle = s.hbmIdle := rfl
@[simp] theorem State.msix_setLog (s : State) (fn v : Nat) : (s.msix fn v).setLog = s.setLog := rfl
@[simp] theorem State.msix_net (s : State) (fn v : Nat) : (s.msix fn v).net = s.net := rfl
@[simp] theorem State.msix_spilled (s : State) (fn v : Nat) : (s.msix fn v).spilled = s.spilled := rfl
@[simp] theorem State.msix_hostMem (s : State) (fn v : Nat) : (s.msix fn v).hostMem = s.hostMem := rfl
@[simp] theorem State.msix_tss (s : State) (fn v : Nat) : (s.msix fn v).tss = s.tss := rfl
@[simp] theorem State.msix_parts (s : State) (fn v : Nat) : (s.msix fn v).parts = s.parts := rfl
@[simp] theorem State.msix_fns (s : State) (fn v : Nat) : (s.msix fn v).fns = s.fns := rfl
@[simp] theorem State.msix_pcimg (s : State) (fn v : Nat) : (s.msix fn v).pcimg = s.pcimg := rfl
@[simp] theorem State.msix_pcRetire (s : State) (fn v : Nat) : (s.msix fn v).pcRetire = s.pcRetire := rfl
@[simp] theorem State.msix_pcStatus (s : State) (fn v : Nat) : (s.msix fn v).pcStatus = s.pcStatus := rfl
@[simp] theorem State.msix_ranges (s : State) (fn v : Nat) : (s.msix fn v).ranges = s.ranges := rfl
@[simp] theorem State.msix_ptroot (s : State) (fn v : Nat) : (s.msix fn v).ptroot = s.ptroot := rfl
@[simp] theorem State.msix_retired (s : State) (fn v : Nat) : (s.msix fn v).retired = s.retired := rfl
@[simp] theorem State.msix_tprs (s : State) (fn v : Nat) : (s.msix fn v).tprs = s.tprs := rfl
@[simp] theorem State.msix_launches (s : State) (fn v : Nat) : (s.msix fn v).launches = s.launches := rfl
@[simp] theorem State.msix_madder (s : State) (fn v : Nat) : (s.msix fn v).madder = s.madder := rfl
@[simp] theorem State.msix_keys (s : State) (fn v : Nat) : (s.msix fn v).keys = s.keys := rfl
@[simp] theorem State.msix_ports (s : State) (fn v : Nat) : (s.msix fn v).ports = s.ports := rfl
@[simp] theorem State.msix_deadPkgs (s : State) (fn v : Nat) : (s.msix fn v).deadPkgs = s.deadPkgs := rfl
@[simp] theorem State.msix_deadLinks (s : State) (fn v : Nat) : (s.msix fn v).deadLinks = s.deadLinks := rfl
@[simp] theorem State.msix_unacked (s : State) (fn v : Nat) : (s.msix fn v).unacked = s.unacked := rfl
@[simp] theorem State.msix_egress (s : State) (fn v : Nat) : (s.msix fn v).egress = s.egress := rfl
@[simp] theorem State.msix_egressSeq (s : State) (fn v : Nat) : (s.msix fn v).egressSeq = s.egressSeq := rfl
@[simp] theorem State.msix_farOut (s : State) (fn v : Nat) : (s.msix fn v).farOut = s.farOut := rfl
@[simp] theorem State.msix_devFar (s : State) (fn v : Nat) : (s.msix fn v).devFar = s.devFar := rfl
@[simp] theorem State.msix_devHeld (s : State) (fn v : Nat) : (s.msix fn v).devHeld = s.devHeld := rfl
@[simp] theorem State.msix_farHdrs (s : State) (fn v : Nat) : (s.msix fn v).farHdrs = s.farHdrs := rfl
@[simp] theorem State.msix_farIn (s : State) (fn v : Nat) : (s.msix fn v).farIn = s.farIn := rfl
@[simp] theorem State.msix_qps (s : State) (fn v : Nat) : (s.msix fn v).qps = s.qps := rfl
@[simp] theorem State.msix_bring (s : State) (fn v : Nat) : (s.msix fn v).bring = s.bring := rfl
@[simp] theorem State.msix_corr (s : State) (fn v : Nat) : (s.msix fn v).corr = s.corr := rfl
@[simp] theorem State.msix_hostOut (s : State) (fn v : Nat) : (s.msix fn v).hostOut = s.hostOut ++ [.msix fn v] := rfl
@[simp] theorem State.msix_upsets (s : State) (fn v : Nat) : (s.msix fn v).upsets = s.upsets := rfl
@[simp] theorem State.msix_retireQueue (s : State) (fn v : Nat) : (s.msix fn v).retireQueue = s.retireQueue := rfl
@[simp] theorem State.msix_owed (s : State) (fn v : Nat) : (s.msix fn v).owed = s.owed := rfl

@[simp] theorem State.carry_cycle (s : State) (g : Nat) (n : Node) (dye : BitVec 16) (b : Nat) : (s.carry g n dye b).cycle = s.cycle := rfl
@[simp] theorem State.carry_cur (s : State) (g : Nat) (n : Node) (dye : BitVec 16) (b : Nat) : (s.carry g n dye b).cur = s.cur := rfl
@[simp] theorem State.carry_agenda (s : State) (g : Nat) (n : Node) (dye : BitVec 16) (b : Nat) : (s.carry g n dye b).agenda = s.agenda := rfl
@[simp] theorem State.carry_freeCtr (s : State) (g : Nat) (n : Node) (dye : BitVec 16) (b : Nat) : (s.carry g n dye b).freeCtr = s.freeCtr := rfl
@[simp] theorem State.carry_nextId (s : State) (g : Nat) (n : Node) (dye : BitVec 16) (b : Nat) : (s.carry g n dye b).nextId = s.nextId := rfl
@[simp] theorem State.carry_cores (s : State) (g : Nat) (n : Node) (dye : BitVec 16) (b : Nat) : (s.carry g n dye b).cores = s.cores := rfl
@[simp] theorem State.carry_clusters (s : State) (g : Nat) (n : Node) (dye : BitVec 16) (b : Nat) : (s.carry g n dye b).clusters = s.clusters := rfl
@[simp] theorem State.carry_dies (s : State) (g : Nat) (n : Node) (dye : BitVec 16) (b : Nat) : (s.carry g n dye b).dies = s.dies := rfl
@[simp] theorem State.carry_servers (s : State) (g : Nat) (n : Node) (dye : BitVec 16) (b : Nat) : (s.carry g n dye b).servers = s.servers := rfl
@[simp] theorem State.carry_hbm (s : State) (g : Nat) (n : Node) (dye : BitVec 16) (b : Nat) : (s.carry g n dye b).hbm = s.hbm := rfl
@[simp] theorem State.carry_hbmIdle (s : State) (g : Nat) (n : Node) (dye : BitVec 16) (b : Nat) : (s.carry g n dye b).hbmIdle = s.hbmIdle := rfl
@[simp] theorem State.carry_setLog (s : State) (g : Nat) (n : Node) (dye : BitVec 16) (b : Nat) : (s.carry g n dye b).setLog = s.setLog := rfl
@[simp] theorem State.carry_net (s : State) (g : Nat) (n : Node) (dye : BitVec 16) (b : Nat) : (s.carry g n dye b).net = s.net := rfl
@[simp] theorem State.carry_spilled (s : State) (g : Nat) (n : Node) (dye : BitVec 16) (b : Nat) : (s.carry g n dye b).spilled = s.spilled := rfl
@[simp] theorem State.carry_hostMem (s : State) (g : Nat) (n : Node) (dye : BitVec 16) (b : Nat) : (s.carry g n dye b).hostMem = s.hostMem := rfl
@[simp] theorem State.carry_tss (s : State) (g : Nat) (n : Node) (dye : BitVec 16) (b : Nat) : (s.carry g n dye b).tss = s.tss := rfl
@[simp] theorem State.carry_parts (s : State) (g : Nat) (n : Node) (dye : BitVec 16) (b : Nat) : (s.carry g n dye b).parts = s.parts := rfl
@[simp] theorem State.carry_fns (s : State) (g : Nat) (n : Node) (dye : BitVec 16) (b : Nat) : (s.carry g n dye b).fns = s.fns := rfl
@[simp] theorem State.carry_pcimg (s : State) (g : Nat) (n : Node) (dye : BitVec 16) (b : Nat) : (s.carry g n dye b).pcimg = s.pcimg := rfl
@[simp] theorem State.carry_pcRetire (s : State) (g : Nat) (n : Node) (dye : BitVec 16) (b : Nat) : (s.carry g n dye b).pcRetire = s.pcRetire := rfl
@[simp] theorem State.carry_pcStatus (s : State) (g : Nat) (n : Node) (dye : BitVec 16) (b : Nat) : (s.carry g n dye b).pcStatus = s.pcStatus := rfl
@[simp] theorem State.carry_ranges (s : State) (g : Nat) (n : Node) (dye : BitVec 16) (b : Nat) : (s.carry g n dye b).ranges = s.ranges := rfl
@[simp] theorem State.carry_ptroot (s : State) (g : Nat) (n : Node) (dye : BitVec 16) (b : Nat) : (s.carry g n dye b).ptroot = s.ptroot := rfl
@[simp] theorem State.carry_retired (s : State) (g : Nat) (n : Node) (dye : BitVec 16) (b : Nat) : (s.carry g n dye b).retired = s.retired := rfl
@[simp] theorem State.carry_tprs (s : State) (g : Nat) (n : Node) (dye : BitVec 16) (b : Nat) : (s.carry g n dye b).tprs = s.tprs := rfl
@[simp] theorem State.carry_launches (s : State) (g : Nat) (n : Node) (dye : BitVec 16) (b : Nat) : (s.carry g n dye b).launches = s.launches := rfl
@[simp] theorem State.carry_keys (s : State) (g : Nat) (n : Node) (dye : BitVec 16) (b : Nat) : (s.carry g n dye b).keys = s.keys := rfl
@[simp] theorem State.carry_ports (s : State) (g : Nat) (n : Node) (dye : BitVec 16) (b : Nat) : (s.carry g n dye b).ports = s.ports := rfl
@[simp] theorem State.carry_deadPkgs (s : State) (g : Nat) (n : Node) (dye : BitVec 16) (b : Nat) : (s.carry g n dye b).deadPkgs = s.deadPkgs := rfl
@[simp] theorem State.carry_deadLinks (s : State) (g : Nat) (n : Node) (dye : BitVec 16) (b : Nat) : (s.carry g n dye b).deadLinks = s.deadLinks := rfl
@[simp] theorem State.carry_unacked (s : State) (g : Nat) (n : Node) (dye : BitVec 16) (b : Nat) : (s.carry g n dye b).unacked = s.unacked := rfl
@[simp] theorem State.carry_egress (s : State) (g : Nat) (n : Node) (dye : BitVec 16) (b : Nat) : (s.carry g n dye b).egress = s.egress := rfl
@[simp] theorem State.carry_egressSeq (s : State) (g : Nat) (n : Node) (dye : BitVec 16) (b : Nat) : (s.carry g n dye b).egressSeq = s.egressSeq := rfl
@[simp] theorem State.carry_farOut (s : State) (g : Nat) (n : Node) (dye : BitVec 16) (b : Nat) : (s.carry g n dye b).farOut = s.farOut := rfl
@[simp] theorem State.carry_devFar (s : State) (g : Nat) (n : Node) (dye : BitVec 16) (b : Nat) : (s.carry g n dye b).devFar = s.devFar := rfl
@[simp] theorem State.carry_devHeld (s : State) (g : Nat) (n : Node) (dye : BitVec 16) (b : Nat) : (s.carry g n dye b).devHeld = s.devHeld := rfl
@[simp] theorem State.carry_farHdrs (s : State) (g : Nat) (n : Node) (dye : BitVec 16) (b : Nat) : (s.carry g n dye b).farHdrs = s.farHdrs := rfl
@[simp] theorem State.carry_farIn (s : State) (g : Nat) (n : Node) (dye : BitVec 16) (b : Nat) : (s.carry g n dye b).farIn = s.farIn := rfl
@[simp] theorem State.carry_qps (s : State) (g : Nat) (n : Node) (dye : BitVec 16) (b : Nat) : (s.carry g n dye b).qps = s.qps := rfl
@[simp] theorem State.carry_bring (s : State) (g : Nat) (n : Node) (dye : BitVec 16) (b : Nat) : (s.carry g n dye b).bring = s.bring := rfl
@[simp] theorem State.carry_corr (s : State) (g : Nat) (n : Node) (dye : BitVec 16) (b : Nat) : (s.carry g n dye b).corr = s.corr := rfl
@[simp] theorem State.carry_hostOut (s : State) (g : Nat) (n : Node) (dye : BitVec 16) (b : Nat) : (s.carry g n dye b).hostOut = s.hostOut := rfl
@[simp] theorem State.carry_upsets (s : State) (g : Nat) (n : Node) (dye : BitVec 16) (b : Nat) : (s.carry g n dye b).upsets = s.upsets := rfl
@[simp] theorem State.carry_retireQueue (s : State) (g : Nat) (n : Node) (dye : BitVec 16) (b : Nat) : (s.carry g n dye b).retireQueue = s.retireQueue := rfl
@[simp] theorem State.carry_owed (s : State) (g : Nat) (n : Node) (dye : BitVec 16) (b : Nat) : (s.carry g n dye b).owed = s.owed := rfl

/-! A core. -/

@[simp] theorem Core.setProc_lm (c : Core) (k : Nat) (p : Proc) : (c.setProc k p).lm = c.lm := rfl
@[simp] theorem Core.setProc_lmTags (c : Core) (k : Nat) (p : Proc) : (c.setProc k p).lmTags = c.lmTags := rfl
@[simp] theorem Core.setProc_lmDirty (c : Core) (k : Nat) (p : Proc) : (c.setProc k p).lmDirty = c.lmDirty := rfl
@[simp] theorem Core.setProc_lmBad (c : Core) (k : Nat) (p : Proc) : (c.setProc k p).lmBad = c.lmBad := rfl
@[simp] theorem Core.setProc_procs (c : Core) (k : Nat) (p : Proc) : (c.setProc k p).procs = Tbl.put c.procs k p := rfl
@[simp] theorem Core.setProc_gens (c : Core) (k : Nat) (p : Proc) : (c.setProc k p).gens = c.gens := rfl
@[simp] theorem Core.setProc_eps (c : Core) (k : Nat) (p : Proc) : (c.setProc k p).eps = c.eps := rfl
@[simp] theorem Core.setProc_rq0 (c : Core) (k : Nat) (p : Proc) : (c.setProc k p).rq0 = c.rq0 := rfl
@[simp] theorem Core.setProc_rq1 (c : Core) (k : Nat) (p : Proc) : (c.setProc k p).rq1 = c.rq1 := rfl
@[simp] theorem Core.setProc_rq2 (c : Core) (k : Nat) (p : Proc) : (c.setProc k p).rq2 = c.rq2 := rfl
@[simp] theorem Core.setProc_rq3 (c : Core) (k : Nat) (p : Proc) : (c.setProc k p).rq3 = c.rq3 := rfl
@[simp] theorem Core.setProc_run (c : Core) (k : Nat) (p : Proc) : (c.setProc k p).run = c.run := rfl
@[simp] theorem Core.setProc_sliceCnt (c : Core) (k : Nat) (p : Proc) : (c.setProc k p).sliceCnt = c.sliceCnt := rfl
@[simp] theorem Core.setProc_cached (c : Core) (k : Nat) (p : Proc) : (c.setProc k p).cached = c.cached := rfl
@[simp] theorem Core.setProc_fb (c : Core) (k : Nat) (p : Proc) : (c.setProc k p).fb = c.fb := rfl
@[simp] theorem Core.setProc_lid (c : Core) (k : Nat) (p : Proc) : (c.setProc k p).lid = c.lid := rfl
@[simp] theorem Core.setProc_netH (c : Core) (k : Nat) (p : Proc) : (c.setProc k p).netH = c.netH := rfl
@[simp] theorem Core.setProc_fn (c : Core) (k : Nat) (p : Proc) : (c.setProc k p).fn = c.fn := rfl
@[simp] theorem Core.setProc_sent (c : Core) (k : Nat) (p : Proc) : (c.setProc k p).sent = c.sent := rfl
@[simp] theorem Core.setProc_rcvd (c : Core) (k : Nat) (p : Proc) : (c.setProc k p).rcvd = c.rcvd := rfl
@[simp] theorem Core.setProc_vheld (c : Core) (k : Nat) (p : Proc) : (c.setProc k p).vheld = c.vheld := rfl
@[simp] theorem Core.setProc_notices (c : Core) (k : Nat) (p : Proc) : (c.setProc k p).notices = c.notices := rfl
@[simp] theorem Core.setProc_plb (c : Core) (k : Nat) (p : Proc) : (c.setProc k p).plb = c.plb := rfl
@[simp] theorem Core.setProc_tile (c : Core) (k : Nat) (p : Proc) : (c.setProc k p).tile = c.tile := rfl
@[simp] theorem Core.setProc_fenced (c : Core) (k : Nat) (p : Proc) : (c.setProc k p).fenced = c.fenced := rfl
@[simp] theorem Core.setProc_weight (c : Core) (k : Nat) (p : Proc) : (c.setProc k p).weight = c.weight := rfl

@[simp] theorem Core.setEp_lm (c : Core) (e : Nat) (x : Endp) : (c.setEp e x).lm = c.lm := rfl
@[simp] theorem Core.setEp_lmTags (c : Core) (e : Nat) (x : Endp) : (c.setEp e x).lmTags = c.lmTags := rfl
@[simp] theorem Core.setEp_lmDirty (c : Core) (e : Nat) (x : Endp) : (c.setEp e x).lmDirty = markDirty c.lmDirty (0x58000 + 32 * e) 32 := rfl
@[simp] theorem Core.setEp_lmBad (c : Core) (e : Nat) (x : Endp) : (c.setEp e x).lmBad = c.lmBad := rfl
@[simp] theorem Core.setEp_procs (c : Core) (e : Nat) (x : Endp) : (c.setEp e x).procs = c.procs := rfl
@[simp] theorem Core.setEp_gens (c : Core) (e : Nat) (x : Endp) : (c.setEp e x).gens = c.gens := rfl
@[simp] theorem Core.setEp_eps (c : Core) (e : Nat) (x : Endp) : (c.setEp e x).eps = Tbl.put c.eps e x := rfl
@[simp] theorem Core.setEp_rq0 (c : Core) (e : Nat) (x : Endp) : (c.setEp e x).rq0 = c.rq0 := rfl
@[simp] theorem Core.setEp_rq1 (c : Core) (e : Nat) (x : Endp) : (c.setEp e x).rq1 = c.rq1 := rfl
@[simp] theorem Core.setEp_rq2 (c : Core) (e : Nat) (x : Endp) : (c.setEp e x).rq2 = c.rq2 := rfl
@[simp] theorem Core.setEp_rq3 (c : Core) (e : Nat) (x : Endp) : (c.setEp e x).rq3 = c.rq3 := rfl
@[simp] theorem Core.setEp_run (c : Core) (e : Nat) (x : Endp) : (c.setEp e x).run = c.run := rfl
@[simp] theorem Core.setEp_sliceCnt (c : Core) (e : Nat) (x : Endp) : (c.setEp e x).sliceCnt = c.sliceCnt := rfl
@[simp] theorem Core.setEp_cached (c : Core) (e : Nat) (x : Endp) : (c.setEp e x).cached = c.cached := rfl
@[simp] theorem Core.setEp_fb (c : Core) (e : Nat) (x : Endp) : (c.setEp e x).fb = c.fb := rfl
@[simp] theorem Core.setEp_lid (c : Core) (e : Nat) (x : Endp) : (c.setEp e x).lid = c.lid := rfl
@[simp] theorem Core.setEp_netH (c : Core) (e : Nat) (x : Endp) : (c.setEp e x).netH = c.netH := rfl
@[simp] theorem Core.setEp_fn (c : Core) (e : Nat) (x : Endp) : (c.setEp e x).fn = c.fn := rfl
@[simp] theorem Core.setEp_sent (c : Core) (e : Nat) (x : Endp) : (c.setEp e x).sent = c.sent := rfl
@[simp] theorem Core.setEp_rcvd (c : Core) (e : Nat) (x : Endp) : (c.setEp e x).rcvd = c.rcvd := rfl
@[simp] theorem Core.setEp_vheld (c : Core) (e : Nat) (x : Endp) : (c.setEp e x).vheld = c.vheld := rfl
@[simp] theorem Core.setEp_notices (c : Core) (e : Nat) (x : Endp) : (c.setEp e x).notices = c.notices := rfl
@[simp] theorem Core.setEp_plb (c : Core) (e : Nat) (x : Endp) : (c.setEp e x).plb = c.plb := rfl
@[simp] theorem Core.setEp_tile (c : Core) (e : Nat) (x : Endp) : (c.setEp e x).tile = c.tile := rfl
@[simp] theorem Core.setEp_fenced (c : Core) (e : Nat) (x : Endp) : (c.setEp e x).fenced = c.fenced := rfl
@[simp] theorem Core.setEp_weight (c : Core) (e : Nat) (x : Endp) : (c.setEp e x).weight = c.weight := rfl

@[simp] theorem Core.unrun_lm (c : Core) : (c.unrun).lm = c.lm := rfl
@[simp] theorem Core.unrun_lmTags (c : Core) : (c.unrun).lmTags = c.lmTags := rfl
@[simp] theorem Core.unrun_lmDirty (c : Core) : (c.unrun).lmDirty = c.lmDirty := rfl
@[simp] theorem Core.unrun_lmBad (c : Core) : (c.unrun).lmBad = c.lmBad := rfl
@[simp] theorem Core.unrun_procs (c : Core) : (c.unrun).procs = c.procs := rfl
@[simp] theorem Core.unrun_gens (c : Core) : (c.unrun).gens = c.gens := rfl
@[simp] theorem Core.unrun_eps (c : Core) : (c.unrun).eps = c.eps := rfl
@[simp] theorem Core.unrun_rq0 (c : Core) : (c.unrun).rq0 = c.rq0 := rfl
@[simp] theorem Core.unrun_rq1 (c : Core) : (c.unrun).rq1 = c.rq1 := rfl
@[simp] theorem Core.unrun_rq2 (c : Core) : (c.unrun).rq2 = c.rq2 := rfl
@[simp] theorem Core.unrun_rq3 (c : Core) : (c.unrun).rq3 = c.rq3 := rfl
@[simp] theorem Core.unrun_run (c : Core) : (c.unrun).run = none := rfl
@[simp] theorem Core.unrun_sliceCnt (c : Core) : (c.unrun).sliceCnt = c.sliceCnt := rfl
@[simp] theorem Core.unrun_cached (c : Core) : (c.unrun).cached = c.cached := rfl
@[simp] theorem Core.unrun_fb (c : Core) : (c.unrun).fb = .empty := rfl
@[simp] theorem Core.unrun_lid (c : Core) : (c.unrun).lid = c.lid := rfl
@[simp] theorem Core.unrun_netH (c : Core) : (c.unrun).netH = c.netH := rfl
@[simp] theorem Core.unrun_fn (c : Core) : (c.unrun).fn = c.fn := rfl
@[simp] theorem Core.unrun_sent (c : Core) : (c.unrun).sent = c.sent := rfl
@[simp] theorem Core.unrun_rcvd (c : Core) : (c.unrun).rcvd = c.rcvd := rfl
@[simp] theorem Core.unrun_vheld (c : Core) : (c.unrun).vheld = c.vheld := rfl
@[simp] theorem Core.unrun_notices (c : Core) : (c.unrun).notices = c.notices := rfl
@[simp] theorem Core.unrun_plb (c : Core) : (c.unrun).plb = c.plb := rfl
@[simp] theorem Core.unrun_tile (c : Core) : (c.unrun).tile = c.tile := rfl
@[simp] theorem Core.unrun_fenced (c : Core) : (c.unrun).fenced = c.fenced := rfl
@[simp] theorem Core.unrun_weight (c : Core) : (c.unrun).weight = c.weight := rfl

@[simp] theorem Core.dequeue_lm (c : Core) (k : Nat) : (c.dequeue k).lm = c.lm := rfl
@[simp] theorem Core.dequeue_lmTags (c : Core) (k : Nat) : (c.dequeue k).lmTags = c.lmTags := rfl
@[simp] theorem Core.dequeue_lmDirty (c : Core) (k : Nat) : (c.dequeue k).lmDirty = c.lmDirty := rfl
@[simp] theorem Core.dequeue_lmBad (c : Core) (k : Nat) : (c.dequeue k).lmBad = c.lmBad := rfl
@[simp] theorem Core.dequeue_procs (c : Core) (k : Nat) : (c.dequeue k).procs = c.relink k := rfl
@[simp] theorem Core.dequeue_gens (c : Core) (k : Nat) : (c.dequeue k).gens = c.gens := rfl
@[simp] theorem Core.dequeue_eps (c : Core) (k : Nat) : (c.dequeue k).eps = c.eps := rfl
@[simp] theorem Core.dequeue_rq0 (c : Core) (k : Nat) : (c.dequeue k).rq0 = c.rq0.filter (· != k) := rfl
@[simp] theorem Core.dequeue_rq1 (c : Core) (k : Nat) : (c.dequeue k).rq1 = c.rq1.filter (· != k) := rfl
@[simp] theorem Core.dequeue_rq2 (c : Core) (k : Nat) : (c.dequeue k).rq2 = c.rq2.filter (· != k) := rfl
@[simp] theorem Core.dequeue_rq3 (c : Core) (k : Nat) : (c.dequeue k).rq3 = c.rq3.filter (· != k) := rfl
@[simp] theorem Core.dequeue_run (c : Core) (k : Nat) : (c.dequeue k).run = c.run := rfl
@[simp] theorem Core.dequeue_sliceCnt (c : Core) (k : Nat) : (c.dequeue k).sliceCnt = c.sliceCnt := rfl
@[simp] theorem Core.dequeue_cached (c : Core) (k : Nat) : (c.dequeue k).cached = c.cached := rfl
@[simp] theorem Core.dequeue_fb (c : Core) (k : Nat) : (c.dequeue k).fb = c.fb := rfl
@[simp] theorem Core.dequeue_lid (c : Core) (k : Nat) : (c.dequeue k).lid = c.lid := rfl
@[simp] theorem Core.dequeue_netH (c : Core) (k : Nat) : (c.dequeue k).netH = c.netH := rfl
@[simp] theorem Core.dequeue_fn (c : Core) (k : Nat) : (c.dequeue k).fn = c.fn := rfl
@[simp] theorem Core.dequeue_sent (c : Core) (k : Nat) : (c.dequeue k).sent = c.sent := rfl
@[simp] theorem Core.dequeue_rcvd (c : Core) (k : Nat) : (c.dequeue k).rcvd = c.rcvd := rfl
@[simp] theorem Core.dequeue_vheld (c : Core) (k : Nat) : (c.dequeue k).vheld = c.vheld := rfl
@[simp] theorem Core.dequeue_notices (c : Core) (k : Nat) : (c.dequeue k).notices = c.notices := rfl
@[simp] theorem Core.dequeue_plb (c : Core) (k : Nat) : (c.dequeue k).plb = c.plb := rfl
@[simp] theorem Core.dequeue_tile (c : Core) (k : Nat) : (c.dequeue k).tile = c.tile := rfl
@[simp] theorem Core.dequeue_fenced (c : Core) (k : Nat) : (c.dequeue k).fenced = c.fenced := rfl
@[simp] theorem Core.dequeue_weight (c : Core) (k : Nat) : (c.dequeue k).weight = c.weight := rfl

@[simp] theorem Core.lmWrite_lm (c : Core) (off : Nat) (bs : List Byte) : (c.lmWrite off bs).lm = Mem.write c.lm off bs := rfl
@[simp] theorem Core.lmWrite_lmTags (c : Core) (off : Nat) (bs : List Byte) : (c.lmWrite off bs).lmTags = clearTags c.lmTags off bs.length := rfl
@[simp] theorem Core.lmWrite_lmDirty (c : Core) (off : Nat) (bs : List Byte) : (c.lmWrite off bs).lmDirty = markDirty c.lmDirty off bs.length := rfl
@[simp] theorem Core.lmWrite_lmBad (c : Core) (off : Nat) (bs : List Byte) : (c.lmWrite off bs).lmBad = c.lmBad.filter fun w => !covers off bs.length (8 * w) 8 := rfl
@[simp] theorem Core.lmWrite_procs (c : Core) (off : Nat) (bs : List Byte) : (c.lmWrite off bs).procs = c.procs := rfl
@[simp] theorem Core.lmWrite_gens (c : Core) (off : Nat) (bs : List Byte) : (c.lmWrite off bs).gens = c.gens := rfl
@[simp] theorem Core.lmWrite_eps (c : Core) (off : Nat) (bs : List Byte) : (c.lmWrite off bs).eps = c.eps := rfl
@[simp] theorem Core.lmWrite_rq0 (c : Core) (off : Nat) (bs : List Byte) : (c.lmWrite off bs).rq0 = c.rq0 := rfl
@[simp] theorem Core.lmWrite_rq1 (c : Core) (off : Nat) (bs : List Byte) : (c.lmWrite off bs).rq1 = c.rq1 := rfl
@[simp] theorem Core.lmWrite_rq2 (c : Core) (off : Nat) (bs : List Byte) : (c.lmWrite off bs).rq2 = c.rq2 := rfl
@[simp] theorem Core.lmWrite_rq3 (c : Core) (off : Nat) (bs : List Byte) : (c.lmWrite off bs).rq3 = c.rq3 := rfl
@[simp] theorem Core.lmWrite_run (c : Core) (off : Nat) (bs : List Byte) : (c.lmWrite off bs).run = c.run := rfl
@[simp] theorem Core.lmWrite_sliceCnt (c : Core) (off : Nat) (bs : List Byte) : (c.lmWrite off bs).sliceCnt = c.sliceCnt := rfl
@[simp] theorem Core.lmWrite_cached (c : Core) (off : Nat) (bs : List Byte) : (c.lmWrite off bs).cached = c.cached := rfl
@[simp] theorem Core.lmWrite_fb (c : Core) (off : Nat) (bs : List Byte) : (c.lmWrite off bs).fb = c.fb := rfl
@[simp] theorem Core.lmWrite_lid (c : Core) (off : Nat) (bs : List Byte) : (c.lmWrite off bs).lid = c.lid := rfl
@[simp] theorem Core.lmWrite_netH (c : Core) (off : Nat) (bs : List Byte) : (c.lmWrite off bs).netH = c.netH := rfl
@[simp] theorem Core.lmWrite_fn (c : Core) (off : Nat) (bs : List Byte) : (c.lmWrite off bs).fn = c.fn := rfl
@[simp] theorem Core.lmWrite_sent (c : Core) (off : Nat) (bs : List Byte) : (c.lmWrite off bs).sent = c.sent := rfl
@[simp] theorem Core.lmWrite_rcvd (c : Core) (off : Nat) (bs : List Byte) : (c.lmWrite off bs).rcvd = c.rcvd := rfl
@[simp] theorem Core.lmWrite_vheld (c : Core) (off : Nat) (bs : List Byte) : (c.lmWrite off bs).vheld = c.vheld := rfl
@[simp] theorem Core.lmWrite_notices (c : Core) (off : Nat) (bs : List Byte) : (c.lmWrite off bs).notices = c.notices := rfl
@[simp] theorem Core.lmWrite_plb (c : Core) (off : Nat) (bs : List Byte) : (c.lmWrite off bs).plb = c.plb := rfl
@[simp] theorem Core.lmWrite_tile (c : Core) (off : Nat) (bs : List Byte) : (c.lmWrite off bs).tile = c.tile := rfl
@[simp] theorem Core.lmWrite_fenced (c : Core) (off : Nat) (bs : List Byte) : (c.lmWrite off bs).fenced = c.fenced := rfl
@[simp] theorem Core.lmWrite_weight (c : Core) (off : Nat) (bs : List Byte) : (c.lmWrite off bs).weight = c.weight := rfl


/-! A process. -/

@[simp] theorem Proc.setReg_regs (p : Proc) (r : Reg) (v : Word) : (p.setReg r v).regs = p.regs.set r.toNat v r.isLt := rfl
@[simp] theorem Proc.setReg_tags (p : Proc) (r : Reg) (v : Word) : (p.setReg r v).tags = p.tags &&& ~~~(1#8 <<< pairOf r) := rfl
@[simp] theorem Proc.setReg_pc (p : Proc) (r : Reg) (v : Word) : (p.setReg r v).pc = p.pc := rfl
@[simp] theorem Proc.setReg_ten (p : Proc) (r : Reg) (v : Word) : (p.setReg r v).ten = p.ten := rfl
@[simp] theorem Proc.setReg_flags (p : Proc) (r : Reg) (v : Word) : (p.setReg r v).flags = p.flags := rfl
@[simp] theorem Proc.setReg_ap (p : Proc) (r : Reg) (v : Word) : (p.setReg r v).ap = p.ap := rfl
@[simp] theorem Proc.setReg_sm (p : Proc) (r : Reg) (v : Word) : (p.setReg r v).sm = p.sm := rfl
@[simp] theorem Proc.setReg_h (p : Proc) (r : Reg) (v : Word) : (p.setReg r v).h = p.h := rfl
@[simp] theorem Proc.setReg_stw (p : Proc) (r : Reg) (v : Word) : (p.setReg r v).stw = p.stw := rfl
@[simp] theorem Proc.setReg_mode (p : Proc) (r : Reg) (v : Word) : (p.setReg r v).mode = p.mode := rfl
@[simp] theorem Proc.setReg_pceil (p : Proc) (r : Reg) (v : Word) : (p.setReg r v).pceil = p.pceil := rfl
@[simp] theorem Proc.setReg_pri (p : Proc) (r : Reg) (v : Word) : (p.setReg r v).pri = p.pri := rfl
@[simp] theorem Proc.setReg_rseq (p : Proc) (r : Reg) (v : Word) : (p.setReg r v).rseq = p.rseq := rfl
@[simp] theorem Proc.setReg_dye (p : Proc) (r : Reg) (v : Word) : (p.setReg r v).dye = p.dye := rfl
@[simp] theorem Proc.setReg_live (p : Proc) (r : Reg) (v : Word) : (p.setReg r v).live = p.live ||| (1#16 <<< r.toNat) := rfl
@[simp] theorem Proc.setReg_dmk (p : Proc) (r : Reg) (v : Word) : (p.setReg r v).dmk = p.dmk := rfl
@[simp] theorem Proc.setReg_snap (p : Proc) (r : Reg) (v : Word) : (p.setReg r v).snap = p.snap := rfl
@[simp] theorem Proc.setReg_vl (p : Proc) (r : Reg) (v : Word) : (p.setReg r v).vl = p.vl := rfl
@[simp] theorem Proc.setReg_vty (p : Proc) (r : Reg) (v : Word) : (p.setReg r v).vty = p.vty := rfl
@[simp] theorem Proc.setReg_txid (p : Proc) (r : Reg) (v : Word) : (p.setReg r v).txid = p.txid := rfl
@[simp] theorem Proc.setReg_tcode (p : Proc) (r : Reg) (v : Word) : (p.setReg r v).tcode = p.tcode := rfl
@[simp] theorem Proc.setReg_trh (p : Proc) (r : Reg) (v : Word) : (p.setReg r v).trh = p.trh := rfl
@[simp] theorem Proc.setReg_tpc (p : Proc) (r : Reg) (v : Word) : (p.setReg r v).tpc = p.tpc := rfl
@[simp] theorem Proc.setReg_tinfo (p : Proc) (r : Reg) (v : Word) : (p.setReg r v).tinfo = p.tinfo := rfl
@[simp] theorem Proc.setReg_aps (p : Proc) (r : Reg) (v : Word) : (p.setReg r v).aps = p.aps := rfl
@[simp] theorem Proc.setReg_rot (p : Proc) (r : Reg) (v : Word) : (p.setReg r v).rot = p.rot := rfl
@[simp] theorem Proc.setReg_tcause (p : Proc) (r : Reg) (v : Word) : (p.setReg r v).tcause = p.tcause := rfl
@[simp] theorem Proc.setReg_tfpc (p : Proc) (r : Reg) (v : Word) : (p.setReg r v).tfpc = p.tfpc := rfl
@[simp] theorem Proc.setReg_tvrc (p : Proc) (r : Reg) (v : Word) : (p.setReg r v).tvrc = p.tvrc := rfl
@[simp] theorem Proc.setReg_vrc (p : Proc) (r : Reg) (v : Word) : (p.setReg r v).vrc = p.vrc := rfl
@[simp] theorem Proc.setReg_vrpc (p : Proc) (r : Reg) (v : Word) : (p.setReg r v).vrpc = p.vrpc := rfl
@[simp] theorem Proc.setReg_cpn (p : Proc) (r : Reg) (v : Word) : (p.setReg r v).cpn = p.cpn := rfl
@[simp] theorem Proc.setReg_floor (p : Proc) (r : Reg) (v : Word) : (p.setReg r v).floor = p.floor := rfl
@[simp] theorem Proc.setReg_vseen (p : Proc) (r : Reg) (v : Word) : (p.setReg r v).vseen = p.vseen := rfl
@[simp] theorem Proc.setReg_xidx (p : Proc) (r : Reg) (v : Word) : (p.setReg r v).xidx = p.xidx := rfl
@[simp] theorem Proc.setReg_xv (p : Proc) (r : Reg) (v : Word) : (p.setReg r v).xv = p.xv := rfl
@[simp] theorem Proc.setReg_repl (p : Proc) (r : Reg) (v : Word) : (p.setReg r v).repl = p.repl := rfl
@[simp] theorem Proc.setReg_pkh (p : Proc) (r : Reg) (v : Word) : (p.setReg r v).pkh = p.pkh := rfl
@[simp] theorem Proc.setReg_pkt (p : Proc) (r : Reg) (v : Word) : (p.setReg r v).pkt = p.pkt := rfl
@[simp] theorem Proc.setReg_state (p : Proc) (r : Reg) (v : Word) : (p.setReg r v).state = p.state := rfl
@[simp] theorem Proc.setReg_stg (p : Proc) (r : Reg) (v : Word) : (p.setReg r v).stg = p.stg := rfl
@[simp] theorem Proc.setReg_nextSlot (p : Proc) (r : Reg) (v : Word) : (p.setReg r v).nextSlot = p.nextSlot := rfl
@[simp] theorem Proc.setReg_sl (p : Proc) (r : Reg) (v : Word) : (p.setReg r v).sl = p.sl := rfl
@[simp] theorem Proc.setReg_sb (p : Proc) (r : Reg) (v : Word) : (p.setReg r v).sb = p.sb := rfl
@[simp] theorem Proc.setReg_deadline (p : Proc) (r : Reg) (v : Word) : (p.setReg r v).deadline = p.deadline := rfl
@[simp] theorem Proc.setReg_staging (p : Proc) (r : Reg) (v : Word) : (p.setReg r v).staging = p.staging := rfl
@[simp] theorem Proc.setReg_copies (p : Proc) (r : Reg) (v : Word) : (p.setReg r v).copies = p.copies := rfl
@[simp] theorem Proc.setReg_outs (p : Proc) (r : Reg) (v : Word) : (p.setReg r v).outs = p.outs := rfl
@[simp] theorem Proc.setReg_stores (p : Proc) (r : Reg) (v : Word) : (p.setReg r v).stores = p.stores := rfl
@[simp] theorem Proc.setReg_faults (p : Proc) (r : Reg) (v : Word) : (p.setReg r v).faults = p.faults := rfl
@[simp] theorem Proc.setReg_ackMax (p : Proc) (r : Reg) (v : Word) : (p.setReg r v).ackMax = p.ackMax := rfl
@[simp] theorem Proc.setReg_acks (p : Proc) (r : Reg) (v : Word) : (p.setReg r v).acks = p.acks := rfl
@[simp] theorem Proc.setReg_wait (p : Proc) (r : Reg) (v : Word) : (p.setReg r v).wait = p.wait := rfl
@[simp] theorem Proc.setReg_blk (p : Proc) (r : Reg) (v : Word) : (p.setReg r v).blk = p.blk := rfl
@[simp] theorem Proc.setReg_lid (p : Proc) (r : Reg) (v : Word) : (p.setReg r v).lid = p.lid := rfl
@[simp] theorem Proc.setReg_netH (p : Proc) (r : Reg) (v : Word) : (p.setReg r v).netH = p.netH := rfl
@[simp] theorem Proc.setReg_bars (p : Proc) (r : Reg) (v : Word) : (p.setReg r v).bars = p.bars := rfl
@[simp] theorem Proc.setReg_arrPhase (p : Proc) (r : Reg) (v : Word) : (p.setReg r v).arrPhase = p.arrPhase := rfl
@[simp] theorem Proc.setReg_lastPc (p : Proc) (r : Reg) (v : Word) : (p.setReg r v).lastPc = p.lastPc := rfl
@[simp] theorem Proc.setReg_slice (p : Proc) (r : Reg) (v : Word) : (p.setReg r v).slice = p.slice := rfl
@[simp] theorem Proc.setReg_seq (p : Proc) (r : Reg) (v : Word) : (p.setReg r v).seq = p.seq := rfl

@[simp] theorem Proc.raise_regs (p : Proc) (f : BitVec 5) : (p.raise f).regs = p.regs := rfl
@[simp] theorem Proc.raise_tags (p : Proc) (f : BitVec 5) : (p.raise f).tags = p.tags := rfl
@[simp] theorem Proc.raise_pc (p : Proc) (f : BitVec 5) : (p.raise f).pc = p.pc := rfl
@[simp] theorem Proc.raise_ten (p : Proc) (f : BitVec 5) : (p.raise f).ten = p.ten := rfl
@[simp] theorem Proc.raise_flags (p : Proc) (f : BitVec 5) : (p.raise f).flags = p.flags ||| f := rfl
@[simp] theorem Proc.raise_ap (p : Proc) (f : BitVec 5) : (p.raise f).ap = p.ap := rfl
@[simp] theorem Proc.raise_sm (p : Proc) (f : BitVec 5) : (p.raise f).sm = p.sm := rfl
@[simp] theorem Proc.raise_h (p : Proc) (f : BitVec 5) : (p.raise f).h = p.h := rfl
@[simp] theorem Proc.raise_stw (p : Proc) (f : BitVec 5) : (p.raise f).stw = p.stw := rfl
@[simp] theorem Proc.raise_mode (p : Proc) (f : BitVec 5) : (p.raise f).mode = p.mode := rfl
@[simp] theorem Proc.raise_pceil (p : Proc) (f : BitVec 5) : (p.raise f).pceil = p.pceil := rfl
@[simp] theorem Proc.raise_pri (p : Proc) (f : BitVec 5) : (p.raise f).pri = p.pri := rfl
@[simp] theorem Proc.raise_rseq (p : Proc) (f : BitVec 5) : (p.raise f).rseq = p.rseq := rfl
@[simp] theorem Proc.raise_dye (p : Proc) (f : BitVec 5) : (p.raise f).dye = p.dye := rfl
@[simp] theorem Proc.raise_live (p : Proc) (f : BitVec 5) : (p.raise f).live = p.live := rfl
@[simp] theorem Proc.raise_dmk (p : Proc) (f : BitVec 5) : (p.raise f).dmk = p.dmk := rfl
@[simp] theorem Proc.raise_snap (p : Proc) (f : BitVec 5) : (p.raise f).snap = p.snap := rfl
@[simp] theorem Proc.raise_vl (p : Proc) (f : BitVec 5) : (p.raise f).vl = p.vl := rfl
@[simp] theorem Proc.raise_vty (p : Proc) (f : BitVec 5) : (p.raise f).vty = p.vty := rfl
@[simp] theorem Proc.raise_txid (p : Proc) (f : BitVec 5) : (p.raise f).txid = p.txid := rfl
@[simp] theorem Proc.raise_tcode (p : Proc) (f : BitVec 5) : (p.raise f).tcode = p.tcode := rfl
@[simp] theorem Proc.raise_trh (p : Proc) (f : BitVec 5) : (p.raise f).trh = p.trh := rfl
@[simp] theorem Proc.raise_tpc (p : Proc) (f : BitVec 5) : (p.raise f).tpc = p.tpc := rfl
@[simp] theorem Proc.raise_tinfo (p : Proc) (f : BitVec 5) : (p.raise f).tinfo = p.tinfo := rfl
@[simp] theorem Proc.raise_aps (p : Proc) (f : BitVec 5) : (p.raise f).aps = p.aps := rfl
@[simp] theorem Proc.raise_rot (p : Proc) (f : BitVec 5) : (p.raise f).rot = p.rot := rfl
@[simp] theorem Proc.raise_tcause (p : Proc) (f : BitVec 5) : (p.raise f).tcause = p.tcause := rfl
@[simp] theorem Proc.raise_tfpc (p : Proc) (f : BitVec 5) : (p.raise f).tfpc = p.tfpc := rfl
@[simp] theorem Proc.raise_tvrc (p : Proc) (f : BitVec 5) : (p.raise f).tvrc = p.tvrc := rfl
@[simp] theorem Proc.raise_vrc (p : Proc) (f : BitVec 5) : (p.raise f).vrc = p.vrc := rfl
@[simp] theorem Proc.raise_vrpc (p : Proc) (f : BitVec 5) : (p.raise f).vrpc = p.vrpc := rfl
@[simp] theorem Proc.raise_cpn (p : Proc) (f : BitVec 5) : (p.raise f).cpn = p.cpn := rfl
@[simp] theorem Proc.raise_floor (p : Proc) (f : BitVec 5) : (p.raise f).floor = p.floor := rfl
@[simp] theorem Proc.raise_vseen (p : Proc) (f : BitVec 5) : (p.raise f).vseen = p.vseen := rfl
@[simp] theorem Proc.raise_xidx (p : Proc) (f : BitVec 5) : (p.raise f).xidx = p.xidx := rfl
@[simp] theorem Proc.raise_xv (p : Proc) (f : BitVec 5) : (p.raise f).xv = p.xv := rfl
@[simp] theorem Proc.raise_repl (p : Proc) (f : BitVec 5) : (p.raise f).repl = p.repl := rfl
@[simp] theorem Proc.raise_pkh (p : Proc) (f : BitVec 5) : (p.raise f).pkh = p.pkh := rfl
@[simp] theorem Proc.raise_pkt (p : Proc) (f : BitVec 5) : (p.raise f).pkt = p.pkt := rfl
@[simp] theorem Proc.raise_state (p : Proc) (f : BitVec 5) : (p.raise f).state = p.state := rfl
@[simp] theorem Proc.raise_stg (p : Proc) (f : BitVec 5) : (p.raise f).stg = p.stg := rfl
@[simp] theorem Proc.raise_nextSlot (p : Proc) (f : BitVec 5) : (p.raise f).nextSlot = p.nextSlot := rfl
@[simp] theorem Proc.raise_sl (p : Proc) (f : BitVec 5) : (p.raise f).sl = p.sl := rfl
@[simp] theorem Proc.raise_sb (p : Proc) (f : BitVec 5) : (p.raise f).sb = p.sb := rfl
@[simp] theorem Proc.raise_deadline (p : Proc) (f : BitVec 5) : (p.raise f).deadline = p.deadline := rfl
@[simp] theorem Proc.raise_staging (p : Proc) (f : BitVec 5) : (p.raise f).staging = p.staging := rfl
@[simp] theorem Proc.raise_copies (p : Proc) (f : BitVec 5) : (p.raise f).copies = p.copies := rfl
@[simp] theorem Proc.raise_outs (p : Proc) (f : BitVec 5) : (p.raise f).outs = p.outs := rfl
@[simp] theorem Proc.raise_stores (p : Proc) (f : BitVec 5) : (p.raise f).stores = p.stores := rfl
@[simp] theorem Proc.raise_faults (p : Proc) (f : BitVec 5) : (p.raise f).faults = p.faults := rfl
@[simp] theorem Proc.raise_ackMax (p : Proc) (f : BitVec 5) : (p.raise f).ackMax = p.ackMax := rfl
@[simp] theorem Proc.raise_acks (p : Proc) (f : BitVec 5) : (p.raise f).acks = p.acks := rfl
@[simp] theorem Proc.raise_wait (p : Proc) (f : BitVec 5) : (p.raise f).wait = p.wait := rfl
@[simp] theorem Proc.raise_blk (p : Proc) (f : BitVec 5) : (p.raise f).blk = p.blk := rfl
@[simp] theorem Proc.raise_lid (p : Proc) (f : BitVec 5) : (p.raise f).lid = p.lid := rfl
@[simp] theorem Proc.raise_netH (p : Proc) (f : BitVec 5) : (p.raise f).netH = p.netH := rfl
@[simp] theorem Proc.raise_bars (p : Proc) (f : BitVec 5) : (p.raise f).bars = p.bars := rfl
@[simp] theorem Proc.raise_arrPhase (p : Proc) (f : BitVec 5) : (p.raise f).arrPhase = p.arrPhase := rfl
@[simp] theorem Proc.raise_lastPc (p : Proc) (f : BitVec 5) : (p.raise f).lastPc = p.lastPc := rfl
@[simp] theorem Proc.raise_slice (p : Proc) (f : BitVec 5) : (p.raise f).slice = p.slice := rfl
@[simp] theorem Proc.raise_seq (p : Proc) (f : BitVec 5) : (p.raise f).seq = p.seq := rfl

@[simp] theorem Proc.markDead_regs (p : Proc) : (p.markDead).regs = p.regs := rfl
@[simp] theorem Proc.markDead_tags (p : Proc) : (p.markDead).tags = p.tags &&& ~~~(deadPairs (p.live &&& ~~~(p.dmk &&& 0x3FFF))) := rfl
@[simp] theorem Proc.markDead_pc (p : Proc) : (p.markDead).pc = p.pc := rfl
@[simp] theorem Proc.markDead_ten (p : Proc) : (p.markDead).ten = p.ten := rfl
@[simp] theorem Proc.markDead_flags (p : Proc) : (p.markDead).flags = p.flags := rfl
@[simp] theorem Proc.markDead_ap (p : Proc) : (p.markDead).ap = p.ap := rfl
@[simp] theorem Proc.markDead_sm (p : Proc) : (p.markDead).sm = p.sm := rfl
@[simp] theorem Proc.markDead_h (p : Proc) : (p.markDead).h = p.h := rfl
@[simp] theorem Proc.markDead_stw (p : Proc) : (p.markDead).stw = p.stw := rfl
@[simp] theorem Proc.markDead_mode (p : Proc) : (p.markDead).mode = p.mode := rfl
@[simp] theorem Proc.markDead_pceil (p : Proc) : (p.markDead).pceil = p.pceil := rfl
@[simp] theorem Proc.markDead_pri (p : Proc) : (p.markDead).pri = p.pri := rfl
@[simp] theorem Proc.markDead_rseq (p : Proc) : (p.markDead).rseq = p.rseq := rfl
@[simp] theorem Proc.markDead_dye (p : Proc) : (p.markDead).dye = p.dye := rfl
@[simp] theorem Proc.markDead_live (p : Proc) : (p.markDead).live = p.live &&& ~~~(p.dmk &&& 0x3FFF) := rfl
@[simp] theorem Proc.markDead_dmk (p : Proc) : (p.markDead).dmk = p.dmk := rfl
@[simp] theorem Proc.markDead_snap (p : Proc) : (p.markDead).snap = p.snap := rfl
@[simp] theorem Proc.markDead_vl (p : Proc) : (p.markDead).vl = p.vl := rfl
@[simp] theorem Proc.markDead_vty (p : Proc) : (p.markDead).vty = p.vty := rfl
@[simp] theorem Proc.markDead_txid (p : Proc) : (p.markDead).txid = p.txid := rfl
@[simp] theorem Proc.markDead_tcode (p : Proc) : (p.markDead).tcode = p.tcode := rfl
@[simp] theorem Proc.markDead_trh (p : Proc) : (p.markDead).trh = p.trh := rfl
@[simp] theorem Proc.markDead_tpc (p : Proc) : (p.markDead).tpc = p.tpc := rfl
@[simp] theorem Proc.markDead_tinfo (p : Proc) : (p.markDead).tinfo = p.tinfo := rfl
@[simp] theorem Proc.markDead_aps (p : Proc) : (p.markDead).aps = p.aps := rfl
@[simp] theorem Proc.markDead_rot (p : Proc) : (p.markDead).rot = p.rot := rfl
@[simp] theorem Proc.markDead_tcause (p : Proc) : (p.markDead).tcause = p.tcause := rfl
@[simp] theorem Proc.markDead_tfpc (p : Proc) : (p.markDead).tfpc = p.tfpc := rfl
@[simp] theorem Proc.markDead_tvrc (p : Proc) : (p.markDead).tvrc = p.tvrc := rfl
@[simp] theorem Proc.markDead_vrc (p : Proc) : (p.markDead).vrc = p.vrc := rfl
@[simp] theorem Proc.markDead_vrpc (p : Proc) : (p.markDead).vrpc = p.vrpc := rfl
@[simp] theorem Proc.markDead_cpn (p : Proc) : (p.markDead).cpn = p.cpn := rfl
@[simp] theorem Proc.markDead_floor (p : Proc) : (p.markDead).floor = p.floor := rfl
@[simp] theorem Proc.markDead_vseen (p : Proc) : (p.markDead).vseen = p.vseen := rfl
@[simp] theorem Proc.markDead_xidx (p : Proc) : (p.markDead).xidx = p.xidx := rfl
@[simp] theorem Proc.markDead_xv (p : Proc) : (p.markDead).xv = p.xv := rfl
@[simp] theorem Proc.markDead_repl (p : Proc) : (p.markDead).repl = p.repl := rfl
@[simp] theorem Proc.markDead_pkh (p : Proc) : (p.markDead).pkh = p.pkh := rfl
@[simp] theorem Proc.markDead_pkt (p : Proc) : (p.markDead).pkt = p.pkt := rfl
@[simp] theorem Proc.markDead_state (p : Proc) : (p.markDead).state = p.state := rfl
@[simp] theorem Proc.markDead_stg (p : Proc) : (p.markDead).stg = p.stg := rfl
@[simp] theorem Proc.markDead_nextSlot (p : Proc) : (p.markDead).nextSlot = p.nextSlot := rfl
@[simp] theorem Proc.markDead_sl (p : Proc) : (p.markDead).sl = p.sl := rfl
@[simp] theorem Proc.markDead_sb (p : Proc) : (p.markDead).sb = p.sb := rfl
@[simp] theorem Proc.markDead_deadline (p : Proc) : (p.markDead).deadline = p.deadline := rfl
@[simp] theorem Proc.markDead_staging (p : Proc) : (p.markDead).staging = p.staging := rfl
@[simp] theorem Proc.markDead_copies (p : Proc) : (p.markDead).copies = p.copies := rfl
@[simp] theorem Proc.markDead_outs (p : Proc) : (p.markDead).outs = p.outs := rfl
@[simp] theorem Proc.markDead_stores (p : Proc) : (p.markDead).stores = p.stores := rfl
@[simp] theorem Proc.markDead_faults (p : Proc) : (p.markDead).faults = p.faults := rfl
@[simp] theorem Proc.markDead_ackMax (p : Proc) : (p.markDead).ackMax = p.ackMax := rfl
@[simp] theorem Proc.markDead_acks (p : Proc) : (p.markDead).acks = p.acks := rfl
@[simp] theorem Proc.markDead_wait (p : Proc) : (p.markDead).wait = p.wait := rfl
@[simp] theorem Proc.markDead_blk (p : Proc) : (p.markDead).blk = p.blk := rfl
@[simp] theorem Proc.markDead_lid (p : Proc) : (p.markDead).lid = p.lid := rfl
@[simp] theorem Proc.markDead_netH (p : Proc) : (p.markDead).netH = p.netH := rfl
@[simp] theorem Proc.markDead_bars (p : Proc) : (p.markDead).bars = p.bars := rfl
@[simp] theorem Proc.markDead_arrPhase (p : Proc) : (p.markDead).arrPhase = p.arrPhase := rfl
@[simp] theorem Proc.markDead_lastPc (p : Proc) : (p.markDead).lastPc = p.lastPc := rfl
@[simp] theorem Proc.markDead_slice (p : Proc) : (p.markDead).slice = p.slice := rfl
@[simp] theorem Proc.markDead_seq (p : Proc) : (p.markDead).seq = p.seq := rfl

@[simp] theorem Proc.intoHandler_regs (p : Proc) (t : TrapInfo) : (p.intoHandler t).regs = p.regs := rfl
@[simp] theorem Proc.intoHandler_tags (p : Proc) (t : TrapInfo) : (p.intoHandler t).tags = p.tags := rfl
@[simp] theorem Proc.intoHandler_pc (p : Proc) (t : TrapInfo) : (p.intoHandler t).pc = p.pc := rfl
@[simp] theorem Proc.intoHandler_ten (p : Proc) (t : TrapInfo) : (p.intoHandler t).ten = p.ten := rfl
@[simp] theorem Proc.intoHandler_flags (p : Proc) (t : TrapInfo) : (p.intoHandler t).flags = p.flags := rfl
@[simp] theorem Proc.intoHandler_ap (p : Proc) (t : TrapInfo) : (p.intoHandler t).ap = p.ap := rfl
@[simp] theorem Proc.intoHandler_sm (p : Proc) (t : TrapInfo) : (p.intoHandler t).sm = p.sm := rfl
@[simp] theorem Proc.intoHandler_h (p : Proc) (t : TrapInfo) : (p.intoHandler t).h = true := rfl
@[simp] theorem Proc.intoHandler_stw (p : Proc) (t : TrapInfo) : (p.intoHandler t).stw = p.stw := rfl
@[simp] theorem Proc.intoHandler_mode (p : Proc) (t : TrapInfo) : (p.intoHandler t).mode = true := rfl
@[simp] theorem Proc.intoHandler_pceil (p : Proc) (t : TrapInfo) : (p.intoHandler t).pceil = p.pceil := rfl
@[simp] theorem Proc.intoHandler_pri (p : Proc) (t : TrapInfo) : (p.intoHandler t).pri = p.pri := rfl
@[simp] theorem Proc.intoHandler_rseq (p : Proc) (t : TrapInfo) : (p.intoHandler t).rseq = p.rseq := rfl
@[simp] theorem Proc.intoHandler_dye (p : Proc) (t : TrapInfo) : (p.intoHandler t).dye = p.dye := rfl
@[simp] theorem Proc.intoHandler_live (p : Proc) (t : TrapInfo) : (p.intoHandler t).live = p.live := rfl
@[simp] theorem Proc.intoHandler_dmk (p : Proc) (t : TrapInfo) : (p.intoHandler t).dmk = p.dmk := rfl
@[simp] theorem Proc.intoHandler_snap (p : Proc) (t : TrapInfo) : (p.intoHandler t).snap = p.snap := rfl
@[simp] theorem Proc.intoHandler_vl (p : Proc) (t : TrapInfo) : (p.intoHandler t).vl = p.vl := rfl
@[simp] theorem Proc.intoHandler_vty (p : Proc) (t : TrapInfo) : (p.intoHandler t).vty = p.vty := rfl
@[simp] theorem Proc.intoHandler_txid (p : Proc) (t : TrapInfo) : (p.intoHandler t).txid = p.txid := rfl
@[simp] theorem Proc.intoHandler_tcode (p : Proc) (t : TrapInfo) : (p.intoHandler t).tcode = (if t.cause = .break_ then t.code else p.tcode) := rfl
@[simp] theorem Proc.intoHandler_trh (p : Proc) (t : TrapInfo) : (p.intoHandler t).trh = p.trh := rfl
@[simp] theorem Proc.intoHandler_tpc (p : Proc) (t : TrapInfo) : (p.intoHandler t).tpc = t.rpc := rfl
@[simp] theorem Proc.intoHandler_tinfo (p : Proc) (t : TrapInfo) : (p.intoHandler t).tinfo = t.info := rfl
@[simp] theorem Proc.intoHandler_aps (p : Proc) (t : TrapInfo) : (p.intoHandler t).aps = p.aps := rfl
@[simp] theorem Proc.intoHandler_rot (p : Proc) (t : TrapInfo) : (p.intoHandler t).rot = p.rot := rfl
@[simp] theorem Proc.intoHandler_tcause (p : Proc) (t : TrapInfo) : (p.intoHandler t).tcause = t.cause.code := rfl
@[simp] theorem Proc.intoHandler_tfpc (p : Proc) (t : TrapInfo) : (p.intoHandler t).tfpc = t.fpc := rfl
@[simp] theorem Proc.intoHandler_tvrc (p : Proc) (t : TrapInfo) : (p.intoHandler t).tvrc = (if p.vrpc = t.rpc then p.vrc else 0) := rfl
@[simp] theorem Proc.intoHandler_vrc (p : Proc) (t : TrapInfo) : (p.intoHandler t).vrc = 0 := rfl
@[simp] theorem Proc.intoHandler_vrpc (p : Proc) (t : TrapInfo) : (p.intoHandler t).vrpc = p.vrpc := rfl
@[simp] theorem Proc.intoHandler_cpn (p : Proc) (t : TrapInfo) : (p.intoHandler t).cpn = p.cpn := rfl
@[simp] theorem Proc.intoHandler_floor (p : Proc) (t : TrapInfo) : (p.intoHandler t).floor = p.floor := rfl
@[simp] theorem Proc.intoHandler_vseen (p : Proc) (t : TrapInfo) : (p.intoHandler t).vseen = p.vseen := rfl
@[simp] theorem Proc.intoHandler_xidx (p : Proc) (t : TrapInfo) : (p.intoHandler t).xidx = p.xidx := rfl
@[simp] theorem Proc.intoHandler_xv (p : Proc) (t : TrapInfo) : (p.intoHandler t).xv = p.xv := rfl
@[simp] theorem Proc.intoHandler_repl (p : Proc) (t : TrapInfo) : (p.intoHandler t).repl = p.repl := rfl
@[simp] theorem Proc.intoHandler_pkh (p : Proc) (t : TrapInfo) : (p.intoHandler t).pkh = p.pkh := rfl
@[simp] theorem Proc.intoHandler_pkt (p : Proc) (t : TrapInfo) : (p.intoHandler t).pkt = p.pkt := rfl
@[simp] theorem Proc.intoHandler_state (p : Proc) (t : TrapInfo) : (p.intoHandler t).state = p.state := rfl
@[simp] theorem Proc.intoHandler_stg (p : Proc) (t : TrapInfo) : (p.intoHandler t).stg = p.stg := rfl
@[simp] theorem Proc.intoHandler_nextSlot (p : Proc) (t : TrapInfo) : (p.intoHandler t).nextSlot = p.nextSlot := rfl
@[simp] theorem Proc.intoHandler_sl (p : Proc) (t : TrapInfo) : (p.intoHandler t).sl = p.sl := rfl
@[simp] theorem Proc.intoHandler_sb (p : Proc) (t : TrapInfo) : (p.intoHandler t).sb = p.sb := rfl
@[simp] theorem Proc.intoHandler_deadline (p : Proc) (t : TrapInfo) : (p.intoHandler t).deadline = Config.never := rfl
@[simp] theorem Proc.intoHandler_staging (p : Proc) (t : TrapInfo) : (p.intoHandler t).staging = p.staging := rfl
@[simp] theorem Proc.intoHandler_copies (p : Proc) (t : TrapInfo) : (p.intoHandler t).copies = p.copies := rfl
@[simp] theorem Proc.intoHandler_outs (p : Proc) (t : TrapInfo) : (p.intoHandler t).outs = p.outs := rfl
@[simp] theorem Proc.intoHandler_stores (p : Proc) (t : TrapInfo) : (p.intoHandler t).stores = p.stores := rfl
@[simp] theorem Proc.intoHandler_faults (p : Proc) (t : TrapInfo) : (p.intoHandler t).faults = p.faults := rfl
@[simp] theorem Proc.intoHandler_ackMax (p : Proc) (t : TrapInfo) : (p.intoHandler t).ackMax = p.ackMax := rfl
@[simp] theorem Proc.intoHandler_acks (p : Proc) (t : TrapInfo) : (p.intoHandler t).acks = p.acks := rfl
@[simp] theorem Proc.intoHandler_wait (p : Proc) (t : TrapInfo) : (p.intoHandler t).wait = .none := rfl
@[simp] theorem Proc.intoHandler_blk (p : Proc) (t : TrapInfo) : (p.intoHandler t).blk = .none := rfl
@[simp] theorem Proc.intoHandler_lid (p : Proc) (t : TrapInfo) : (p.intoHandler t).lid = p.lid := rfl
@[simp] theorem Proc.intoHandler_netH (p : Proc) (t : TrapInfo) : (p.intoHandler t).netH = p.netH := rfl
@[simp] theorem Proc.intoHandler_bars (p : Proc) (t : TrapInfo) : (p.intoHandler t).bars = p.bars := rfl
@[simp] theorem Proc.intoHandler_arrPhase (p : Proc) (t : TrapInfo) : (p.intoHandler t).arrPhase = p.arrPhase := rfl
@[simp] theorem Proc.intoHandler_lastPc (p : Proc) (t : TrapInfo) : (p.intoHandler t).lastPc = p.lastPc := rfl
@[simp] theorem Proc.intoHandler_slice (p : Proc) (t : TrapInfo) : (p.intoHandler t).slice = p.slice := rfl
@[simp] theorem Proc.intoHandler_seq (p : Proc) (t : TrapInfo) : (p.intoHandler t).seq = p.seq := rfl

/-! Reading after an update. -/

@[simp] theorem State.coreAt_setCore (s : State) (g : Nat) (c : Core) : (s.setCore g c).coreAt g = c := by simp [State.coreAt]

theorem State.coreAt_setCore_ne (s : State) {g h : Nat} (c : Core) (n : h ≠ g) : (s.setCore g c).coreAt h = s.coreAt h := by
  simp [State.coreAt, Tbl.get_put_ne _ _ _ _ _ n]

theorem State.coreAt_congr {s t : State} (h : t.cores = s.cores) (g : Nat) : t.coreAt g = s.coreAt g := by simp [State.coreAt, h]

@[simp] theorem State.coreAt_charge (s : State) (u : Nat) (d : BitVec 16) (e : Ev) (n g : Nat) : (s.charge u d e n).coreAt g = s.coreAt g := rfl

@[simp] theorem State.coreAt_post (s : State) (a b : Node) (x : Body) (g : Nat) : (s.post a b x).coreAt g = s.coreAt g := rfl

@[simp] theorem State.coreAt_carry (s : State) (h : Nat) (n : Node) (d : BitVec 16) (b g : Nat) : (s.carry h n d b).coreAt g = s.coreAt g := rfl

@[simp] theorem Core.procAt_setProc (c : Core) (k : Nat) (p : Proc) : (c.setProc k p).procAt k = p := by simp [Core.procAt]

theorem Core.procAt_setProc_ne (c : Core) {k j : Nat} (p : Proc) (n : j ≠ k) : (c.setProc k p).procAt j = c.procAt j := by
  simp [Core.procAt, Tbl.get_put_ne _ _ _ _ _ n]

@[simp] theorem Core.epAt_setEp (c : Core) (e : Nat) (x : Endp) : (c.setEp e x).epAt e = x := by simp [Core.epAt]

@[simp] theorem State.clusterAt_setCluster (s : State) (i : Nat) (x : Cluster) : (s.setCluster i x).clusterAt i = x := by simp [State.clusterAt]

@[simp] theorem State.serverAt_setServer (s : State) (i : Nat) (x : Server) : (s.setServer i x).serverAt i = x := by simp [State.serverAt]

@[simp] theorem State.partAt_setPart (s : State) (i : Nat) (x : Part) : (s.setPart i x).partAt i = x := by simp [State.partAt]

@[simp] theorem State.fnAt_setFn (s : State) (i : Nat) (x : Fn) : (s.setFn i x).fnAt i = x := by simp [State.fnAt]

@[simp] theorem State.lineAt_setLine (s : State) (i : Nat) (x : Line) : (s.setLine i x).lineAt i = x := by simp [State.lineAt]

/-- A register just written reads as written. -/
@[simp] theorem Proc.reg_setReg (p : Proc) (r : Reg) (v : Word) : (p.setReg r v).reg r = v := by
  have h : (p.live ||| (1#16 <<< r.toNat)).getLsbD r.toNat = true := by
    have := r.isLt
    simp only [BitVec.getLsbD_or, BitVec.getLsbD_shiftLeft]
    simp
    right
    omega
  simp only [Proc.reg, Proc.setReg_live, h, if_true, Proc.setReg_regs]
  simp

/-- Another register reads as before. -/
theorem Proc.reg_setReg_ne (p : Proc) {r q : Reg} (v : Word) (n : q ≠ r) : (p.setReg r v).reg q = p.reg q := by
  have hn : q.toNat ≠ r.toNat := fun h => n (BitVec.eq_of_toNat_eq h)
  have hl : (p.live ||| (1#16 <<< r.toNat)).getLsbD q.toNat = p.live.getLsbD q.toNat := by
    simp only [BitVec.getLsbD_or, BitVec.getLsbD_shiftLeft, BitVec.getLsbD_one]
    have : ¬ (q.toNat < r.toNat) → ¬ (q.toNat - r.toNat = 0) := by omega
    by_cases h : q.toNat < r.toNat
    · simp [h]
    · simp [h, this h]
  simp only [Proc.reg, Proc.setReg_live, hl, Proc.setReg_regs]
  rw [Vector.getElem_set_ne (h := Ne.symm hn)]

end Sys2Proof.Machine
end

