-- ==== Sys2Proof/Laws/Process.lean ====
section
/-! SUPPORT. What the shared operations over the running process answer: a meaning of a running process, completing, transferring, stalling. -/

namespace Sys2Proof.Machine

variable {s t : State} {g k : Nat} {p : Proc}

/-- The running process is the one that a meaning acts on. -/
theorem State.withProc_eq (h : s.Runs g k p) (f : Nat → Nat → Proc → Res) : s.withProc f = f g k p := by
  obtain ⟨rfl, h2, rfl⟩ := h
  simp [State.withProc, State.runSlot, h2]

/-- A scalar instruction whose registers await nothing takes its effect and completes. -/
theorem State.scalar_eq (h : s.Runs g k p) {rs : List Reg} (ha : p.awaits rs = false) (f : Proc → Proc) :
    s.scalar rs f = .next (s.retire g k (f p)) := by
  rw [State.scalar, State.withProc_eq h]; simp [ha]

/-- A scalar instruction with a register that awaits data waits. -/
theorem State.scalar_stall (h : s.Runs g k p) {rs : List Reg} (ha : p.awaits rs = true) (f : Proc → Proc) : s.scalar rs f = .next s := by
  rw [State.scalar, State.withProc_eq h]; simp [ha, State.stall]

/-- A two-source form completes with its value. -/
theorem State.binary_eq (h : s.Runs g k p) {a b c : Reg} (ha : p.awaits [a, b, c] = false) (f : Word → Word → Word) :
    s.binary a b c f = .next (s.retire g k (p.setReg a (f (p.reg b) (p.reg c)))) := State.scalar_eq h ha _

/-- A one-source form completes with its value. -/
theorem State.unary_eq (h : s.Runs g k p) {a b : Reg} (ha : p.awaits [a, b] = false) (f : Word → Word) :
    s.unary a b f = .next (s.retire g k (p.setReg a (f (p.reg b)))) := State.scalar_eq h ha _

/-- An immediate move completes with its value. -/
theorem State.constant_eq (h : s.Runs g k p) {a : Reg} (ha : p.awaits [a] = false) (v : Word) :
    s.constant a v = .next (s.retire g k (p.setReg a v)) := State.scalar_eq h ha _

@[simp] theorem State.retire_procAt (s : State) (g k : Nat) (p : Proc) :
    (s.retire g k p).procAt g k = { p with pc := s.next g p, lastPc := p.pc, wait := .none } := by
  simp [State.retire, State.procAt, Core.procAt, Core.setProc]

theorem State.retire_procAt_ne (s : State) (g : Nat) {j k : Nat} (p : Proc) (h : j ≠ k) : (s.retire g k p).procAt g j = s.procAt g j := by
  simp [State.retire, State.procAt, Core.procAt, Core.setProc, Tbl.get_put_ne _ _ _ _ _ h]

theorem State.retire_coreAt_ne (s : State) {g h : Nat} (k : Nat) (p : Proc) (n : h ≠ g) : (s.retire g k p).coreAt h = s.coreAt h := by
  simp [State.retire, State.coreAt_setCore_ne _ _ n]

/-- Completing touches the core's processes and fetch state, and the meters. -/
theorem State.retire_frame (s : State) (g k : Nat) (p : Proc) : { s.retire g k p with cores := s.cores, madder := s.madder } = s := rfl

theorem State.retire_core_frame (s : State) (g k : Nat) (p : Proc) :
    { (s.retire g k p).coreAt g with procs := (s.coreAt g).procs, fb := (s.coreAt g).fb } = s.coreAt g := by
  simp [State.retire, Core.setProc]

@[simp] theorem State.jump_procAt (s : State) (g k : Nat) (p : Proc) (t : Pc) :
    (s.jump g k p t).procAt g k = { p with pc := t, lastPc := p.pc, wait := .none } := by
  simp [State.jump, State.procAt, Core.procAt, Core.setProc]

theorem State.jump_procAt_ne (s : State) (g : Nat) {j k : Nat} (p : Proc) (t : Pc) (h : j ≠ k) : (s.jump g k p t).procAt g j = s.procAt g j := by
  simp [State.jump, State.procAt, Core.procAt, Core.setProc, Tbl.get_put_ne _ _ _ _ _ h]

theorem State.jump_coreAt_ne (s : State) {g h : Nat} (k : Nat) (p : Proc) (t : Pc) (n : h ≠ g) : (s.jump g k p t).coreAt h = s.coreAt h := by
  simp [State.jump, State.coreAt_setCore_ne _ _ n]

theorem State.jump_frame (s : State) (g k : Nat) (p : Proc) (t : Pc) : { s.jump g k p t with cores := s.cores, madder := s.madder } = s := rfl

theorem State.jump_core_frame (s : State) (g k : Nat) (p : Proc) (t : Pc) :
    { (s.jump g k p t).coreAt g with procs := (s.coreAt g).procs, fb := (s.coreAt g).fb } = s.coreAt g := by
  simp [State.jump, Core.setProc]

end Sys2Proof.Machine
end

