-- ==== Sys2Proof/Laws/Scalar.lean ====
section
/-! SUPPORT. One lemma for the instructions that only compute: what they change of their process. -/

namespace Sys2Proof.Machine

/-- A change of a process that writes registers `ds` alone. -/
def Proc.WritesOnly (ds : List Reg) (f : Proc → Proc) : Prop :=
  ∀ p : Proc, (∀ r, r ∉ ds → (f p).reg r = p.reg r) ∧ { f p with regs := p.regs, live := p.live, tags := p.tags } = p

theorem Proc.writesOnly_id : Proc.WritesOnly [] fun p => p := fun _ => ⟨fun _ _ => rfl, rfl⟩

theorem Proc.writesOnly_setReg (a : Reg) (v : Proc → Word) : Proc.WritesOnly [a] fun p => p.setReg a (v p) := fun p =>
  ⟨fun r h => Proc.reg_setReg_ne p (v p) (by simpa using h), rfl⟩

theorem Proc.writesOnly_setPair (a : Reg) (lo hi : Proc → Word) (t : Proc → Bool) :
    Proc.WritesOnly [a, oddOf a] fun p => p.setPair a (lo p) (hi p) (t p) := fun p => by
  have e : ∀ r, (p.setPair a (lo p) (hi p) (t p)).reg r = ((p.setReg a (lo p)).setReg (oddOf a) (hi p)).reg r := fun r => by
    unfold Proc.setPair; cases t p <;> rfl
  refine ⟨fun r h => ?_, ?_⟩
  · simp only [List.mem_cons, List.not_mem_nil, or_false, not_or] at h
    show (p.setPair a (lo p) (hi p) (t p)).reg r = _
    rw [e, Proc.reg_setReg_ne _ _ h.2, Proc.reg_setReg_ne _ _ h.1]
  · show ({ p.setPair a (lo p) (hi p) (t p) with regs := p.regs, live := p.live, tags := p.tags } : Proc) = p
    unfold Proc.setPair; cases t p <;> rfl

/-- An instruction that only computes is a scalar operation on the registers it names that writes its destinations alone. -/
theorem exec_scalar {i : Instr} {rs ds : List Reg} (h : ScalarForm i rs ds) (s : State) :
    ∃ f, exec i s = s.scalar rs f ∧ Proc.WritesOnly ds f := by
  cases h
  case nop => rw [exec_nop, execNop]; exact ⟨_, rfl, Proc.writesOnly_id⟩
  case add => rw [exec_add, execAdd, State.binary]; exact ⟨_, rfl, Proc.writesOnly_setReg _ _⟩
  case sub => rw [exec_sub, execSub, State.binary]; exact ⟨_, rfl, Proc.writesOnly_setReg _ _⟩
  case mul => rw [exec_mul, execMul, State.binary]; exact ⟨_, rfl, Proc.writesOnly_setReg _ _⟩
  case mulh => rw [exec_mulh, execMulh, State.binary]; exact ⟨_, rfl, Proc.writesOnly_setReg _ _⟩
  case mulhu => rw [exec_mulhu, execMulhu, State.binary]; exact ⟨_, rfl, Proc.writesOnly_setReg _ _⟩
  case mulhsu => rw [exec_mulhsu, execMulhsu, State.binary]; exact ⟨_, rfl, Proc.writesOnly_setReg _ _⟩
  case div => rw [exec_div, execDiv, State.binary]; exact ⟨_, rfl, Proc.writesOnly_setReg _ _⟩
  case divu => rw [exec_divu, execDivu, State.binary]; exact ⟨_, rfl, Proc.writesOnly_setReg _ _⟩
  case rem => rw [exec_rem, execRem, State.binary]; exact ⟨_, rfl, Proc.writesOnly_setReg _ _⟩
  case remu => rw [exec_remu, execRemu, State.binary]; exact ⟨_, rfl, Proc.writesOnly_setReg _ _⟩
  case and => rw [exec_and, execAnd, State.binary]; exact ⟨_, rfl, Proc.writesOnly_setReg _ _⟩
  case or => rw [exec_or, execOr, State.binary]; exact ⟨_, rfl, Proc.writesOnly_setReg _ _⟩
  case xor => rw [exec_xor, execXor, State.binary]; exact ⟨_, rfl, Proc.writesOnly_setReg _ _⟩
  case andn => rw [exec_andn, execAndn, State.binary]; exact ⟨_, rfl, Proc.writesOnly_setReg _ _⟩
  case shl => rw [exec_shl, execShl, State.binary]; exact ⟨_, rfl, Proc.writesOnly_setReg _ _⟩
  case shr => rw [exec_shr, execShr, State.binary]; exact ⟨_, rfl, Proc.writesOnly_setReg _ _⟩
  case sar => rw [exec_sar, execSar, State.binary]; exact ⟨_, rfl, Proc.writesOnly_setReg _ _⟩
  case ror => rw [exec_ror, execRor, State.binary]; exact ⟨_, rfl, Proc.writesOnly_setReg _ _⟩
  case min => rw [exec_min, execMin, State.binary]; exact ⟨_, rfl, Proc.writesOnly_setReg _ _⟩
  case minu => rw [exec_minu, execMinu, State.binary]; exact ⟨_, rfl, Proc.writesOnly_setReg _ _⟩
  case max => rw [exec_max, execMax, State.binary]; exact ⟨_, rfl, Proc.writesOnly_setReg _ _⟩
  case maxu => rw [exec_maxu, execMaxu, State.binary]; exact ⟨_, rfl, Proc.writesOnly_setReg _ _⟩
  case clz => rw [exec_clz, execClz, State.unary]; exact ⟨_, rfl, Proc.writesOnly_setReg _ _⟩
  case ctz => rw [exec_ctz, execCtz, State.unary]; exact ⟨_, rfl, Proc.writesOnly_setReg _ _⟩
  case popc => rw [exec_popc, execPopc, State.unary]; exact ⟨_, rfl, Proc.writesOnly_setReg _ _⟩
  case brev => rw [exec_brev, execBrev, State.unary]; exact ⟨_, rfl, Proc.writesOnly_setReg _ _⟩
  case sxb => rw [exec_sxb, execSxb, State.unary]; exact ⟨_, rfl, Proc.writesOnly_setReg _ _⟩
  case sxh => rw [exec_sxh, execSxh, State.unary]; exact ⟨_, rfl, Proc.writesOnly_setReg _ _⟩
  case sxw => rw [exec_sxw, execSxw, State.unary]; exact ⟨_, rfl, Proc.writesOnly_setReg _ _⟩
  case zxw => rw [exec_zxw, execZxw, State.unary]; exact ⟨_, rfl, Proc.writesOnly_setReg _ _⟩
  case addi => rw [exec_addi, execAddi, State.unary]; exact ⟨_, rfl, Proc.writesOnly_setReg _ _⟩
  case andi => rw [exec_andi, execAndi, State.unary]; exact ⟨_, rfl, Proc.writesOnly_setReg _ _⟩
  case ori => rw [exec_ori, execOri, State.unary]; exact ⟨_, rfl, Proc.writesOnly_setReg _ _⟩
  case xori => rw [exec_xori, execXori, State.unary]; exact ⟨_, rfl, Proc.writesOnly_setReg _ _⟩
  case shli => rw [exec_shli, execShli, State.unary]; exact ⟨_, rfl, Proc.writesOnly_setReg _ _⟩
  case shri => rw [exec_shri, execShri, State.unary]; exact ⟨_, rfl, Proc.writesOnly_setReg _ _⟩
  case sari => rw [exec_sari, execSari, State.unary]; exact ⟨_, rfl, Proc.writesOnly_setReg _ _⟩
  case rori => rw [exec_rori, execRori, State.unary]; exact ⟨_, rfl, Proc.writesOnly_setReg _ _⟩
  case seqi => rw [exec_seqi, execSeqi, State.unary]; exact ⟨_, rfl, Proc.writesOnly_setReg _ _⟩
  case snei => rw [exec_snei, execSnei, State.unary]; exact ⟨_, rfl, Proc.writesOnly_setReg _ _⟩
  case slti => rw [exec_slti, execSlti, State.unary]; exact ⟨_, rfl, Proc.writesOnly_setReg _ _⟩
  case sltui => rw [exec_sltui, execSltui, State.unary]; exact ⟨_, rfl, Proc.writesOnly_setReg _ _⟩
  case cset => rw [exec_cset, execCset, State.binary]; exact ⟨_, rfl, Proc.writesOnly_setReg _ _⟩
  case sel => rw [exec_sel, execSel]; exact ⟨_, rfl, Proc.writesOnly_setReg _ _⟩
  case moviU => rw [exec_moviU, execMoviU, State.constant]; exact ⟨_, rfl, Proc.writesOnly_setReg _ _⟩
  case moviUZero => rw [exec_moviUZero, execMoviUZero, State.constant]; exact ⟨_, rfl, Proc.writesOnly_setReg _ _⟩
  case moviK => rw [exec_moviK, execMoviK, State.constant]; exact ⟨_, rfl, Proc.writesOnly_setReg _ _⟩
  case moviKZero => rw [exec_moviKZero, execMoviKZero, State.constant]; exact ⟨_, rfl, Proc.writesOnly_setReg _ _⟩
  case moviX => rw [exec_moviX, execMoviX, State.constant]; exact ⟨_, rfl, Proc.writesOnly_setReg _ _⟩
  case leap => rw [exec_leap, execLeap]; exact ⟨_, rfl, Proc.writesOnly_setReg _ _⟩
  case bfx => rw [exec_bfx, execBfx, State.unary]; exact ⟨_, rfl, Proc.writesOnly_setReg _ _⟩
  case bfi => rw [exec_bfi, execBfi]; exact ⟨_, rfl, Proc.writesOnly_setReg _ _⟩
  case lea => rw [exec_lea, execLea]; exact ⟨_, rfl, Proc.writesOnly_setReg _ _⟩
  case movp => rw [exec_movp, execMovp]; exact ⟨_, rfl, Proc.writesOnly_setPair _ _ _ _⟩
  case leaIndexed => rw [exec_lea, execLea]; exact ⟨_, rfl, Proc.writesOnly_setReg _ _⟩

end Sys2Proof.Machine
end

