-- ==== Sys2Proof/Tests/Slice0.lean ====
section
/-! SUPPORT. Tests on words and values that spec/ writes out, ill-formed terms that the checks refuse, and for every statement with hypotheses a
state and operands that meet them. -/

namespace Sys2Proof.Tests

open Sys2Proof.Machine

set_option Elab.async false

/-! Decoding: heads and tails of the listings in 05 R184, R216, 06, 07, 08, 11, 12 and of the tables of 09, 10 and 13. -/

theorem test_decode_integer : decode 0x440C 0x0064 = .ok (.moviU 3 100) ∧ decode 0x4050 0x3200 = .ok (.add 4 3 2) ∧ decode 0x4314 0x5FFB = .ok (.addi 5 5 (-5)) ∧
    decode 0x4398 0x3006 = .ok (.shli 6 3 6) ∧ decode 0x434E 0x3001 = .ok (.xori 3 3 1) ∧ decode 0x43E0 0x3000 = .ok (.seqi 8 3 0) ∧
    decode 0x414A 0x2800 = .ok (.xor 2 2 8) ∧ decode 0x8584 7 = .ok (.leap 1 0 7) := ⟨rfl, rfl, rfl, rfl, rfl, rfl, rfl, rfl⟩

theorem test_decode_control : decode 0x8694 0x30000082 = .ok (.bne 5 3 2 2) ∧ decode 0x47CC 3 = .ok (.loop 3 0 3) ∧ decode 0x8840 0xB = .ok (.call 0 11) ∧
    decode 0x08C0 0 = .ok .ret := ⟨rfl, rfl, rfl, rfl⟩

theorem test_decode_local : decode 0x8917 0x40000010 = .ok (.ld 3 false 5 4 16) ∧ decode 0x8923 0x60000140 = .ok (.ld 3 false 8 6 0x140) := ⟨rfl, rfl⟩

theorem test_decode_global : decode 0x8C0B 0x00E00000 = .ok (.ldg 3 3 true false 2 0 0) ∧ decode 0x8C1B 0x30600000 = .ok (.ldg 3 1 true false 6 3 0) ∧
    decode 0x8C53 0x30600000 = .ok (.stg 3 1 true 4 3 0) ∧ decode 0x8C5B 0x20000008 = .ok (.stg 3 0 false 6 2 8) ∧
    decode 0x8FC3 0x36000000 = .ok (.redadd { m := 3, sc := 0, rel := false, b := 3, c := 6, d := 0 }) := ⟨rfl, rfl, rfl, rfl, rfl⟩

theorem test_decode_versions : decode 0x1001 0 = .ok (.fence 1) ∧ decode 0x10D0 0 = .ok (.txb 4) ∧ decode 0x1110 0 = .ok (.txc 4) ∧ decode 0x11A8 0 = .ok (.pub 10) ∧
    decode 0x1094 0 = .ok (.snapset 5) ∧ decode 0x1082 0 = .ok .snaprel ∧ decode 0x5208 0x4600 = .ok (.rdtog 2 4 6) := ⟨rfl, rfl, rfl, rfl, rfl, rfl, rfl⟩

theorem test_decode_channel : decode 0x5508 0x2000 = .ok (.sendt 2 2) ∧ decode 0x559C 0x3800 = .ok (.recv 7 false 3 8 0) ∧ decode 0x5600 0x5800 = .ok (.recvt 0 false 5 8 0) ∧
    decode 0x55D0 0x3600 = .ok (.recvb 4 false 3 6 0) := ⟨rfl, rfl, rfl, rfl⟩

theorem test_decode_process : decode 0x5700 0x1202 = .ok (.spawn 0 1 2 2) ∧ decode 0x578C 0x0400 = .ok (.join 3 false 0 4 0) ∧ decode 0x1740 0 = .ok .stop ∧
    decode 0x5949 0x3002 = .ok (.barx 2 true 3 2) ∧ decode 0x5909 0x3002 = .ok (.barw 2 true 3 2) := ⟨rfl, rfl, rfl, rfl, rfl⟩

theorem test_decode_vector : decode 0x5C24 0x8088 = .ok (.vsetl 9 8 0x88) ∧
    decode 0x9D44 0x2300C200 = .ok (.vfma { a := 1, m := 0, b := 2, c := 3, e := 0, rnd := 0, sat := false, inc := 6, str := 0, x10 := 0x200 }) ∧
    decode 0xA420 0x45000200 = .ok (.vrand { a := 8, m := 0, b := 4, c := 5, e := 0, rnd := 0, sat := false, inc := 0, str := 0, x10 := 0x200 }) ∧
    decode 0x9C64 0x8BA06C00 = .ok (.vadd { a := 9, m := 0, b := 8, c := 11, e := 10, rnd := 0, sat := false, inc := 3, str := 3, x10 := 0 }) :=
  ⟨rfl, rfl, rfl, rfl⟩

theorem test_decode_tile_copy : decode 0x2800 0 = .ok .tacq ∧ decode 0x2840 0 = .ok .trel ∧ decode 0xA8C0 0x87000000 = .ok (.tld 0 8 7 false 0) ∧
    decode 0x6B88 0 = .ok (.tcvt 2 0 0 false 0 false) ∧ decode 0x6C00 0xA008 = .ok (.cpset 10 8) ∧ decode 0x2C6C 0 = .ok (.cpgo 11) ∧
    decode 0x2CA4 0 = .ok (.cpwait 9) ∧ decode 0x6CE0 0x5000 = .ok (.rgwait 8 5) := ⟨rfl, rfl, rfl, rfl, rfl, rfl, rfl, rfl⟩

theorem test_decode_system : decode 0x3040 0 = .ok .eret ∧ decode 0x3300 0 = .ok .brk ∧ decode 0x3240 0 = .ok .ifence ∧ decode 0x7110 0x5000 = .ok (.resume 4 5) ∧
    decode 0x7150 0x5000 = .ok (.kill 4 5) ∧ decode 0x71C8 0x4600 = .ok (.rights 2 4 6) ∧ decode 0x3284 0 = .ok (.waiti 1) := ⟨rfl, rfl, rfl, rfl, rfl, rfl, rfl⟩

/-- The line at local address 0x0040 of 05 R187's example: its heads are the four instructions there, and it has no fifth. -/
theorem test_decode_line :
    let line : List Half := [0x2000, 0x440C, 0x4050, 0x8917, 0x8694] ++ List.replicate 21 0 ++ [0x0082, 0x3000, 0x0010, 0x4000, 0x3200, 0x0064]
    lineWf line = true ∧ decodeLine line 1 = .ok (.moviU 3 100) ∧ decodeLine line 2 = .ok (.add 4 3 2) ∧ decodeLine line 3 = .ok (.ld 3 false 5 4 16) ∧
      decodeLine line 4 = .ok (.bne 5 3 2 2) := ⟨rfl, rfl, rfl, rfl, rfl⟩

/-! Ill-formed terms: one for each check of `Instr.wf`. -/

/-- A class V instruction with every field zero. -/
def vops : VOps := { a := 0, m := 0, b := 0, c := 0, e := 0, rnd := 0, sat := false, inc := 0, str := 0, x10 := 0 }

theorem test_illformed_scalar : ([.cset 1 2 3 6, .lea 1 2 3 false 0 0, .lea 1 2 0 false 1 0, .ld 3 true 1 2 0, .ldp 1 2 0, .stp 3 2 0, .ldc 5 2 0, .stc 7 2 0, .movp 1 2,
    .movp 2 1, .rdsv 1 11, .krd 1 2 false 0, .kwr 1 2 false 0, .mintGroup 1 2 3 0, .mintFarPointer 1 2 3 0, .rights 1 2 3, .rights 2 1 3,
    .unallocatedOpcode 0x4044] : List Instr).all (fun i => !i.wf) = true := rfl

theorem test_illformed_memory : ([.ldg 3 0 false true 1 2 0, .ldg 3 1 false false 1 2 0, .stg 3 1 false 1 2 0, .ldgp 0 false 1 2 0, .ldgp 1 false 2 2 0, .stgp 0 false 1 2 0,
    .stgp 1 false 2 2 0, .ldcg 1 2 0, .stcg 1 2 0, .aadd { m := 1, sc := 0, ord := 0, a := 1, b := 2, c := 3, d := 0 },
    .aadd { m := 2, sc := 1, ord := 0, a := 1, b := 2, c := 3, d := 0 }, .afadd { m := 3, sc := 0, ord := 0, a := 1, b := 2, c := 3, d := 0 },
    .redadd { m := 0, sc := 0, rel := false, b := 2, c := 3, d := 0 }, .redadd { m := 2, sc := 1, rel := false, b := 2, c := 3, d := 0 },
    .redfadd { m := 3, sc := 0, rel := false, b := 2, c := 3, d := 0 }, .txc 1, .pub 3] : List Instr).all (fun i => !i.wf) = true := rfl

theorem test_illformed_channel : ([.rdto 1 2 3, .rdtoWithReport 1 2 3 0, .rdtox 1 2 3, .rdtox 2 1 3, .rdtoxWithReport 1 2 3 0, .rdtoxWithReport 2 1 3 0, .rdtog 1 2 3,
    .rdtogWithReport 1 2 3 0, .rdtogx 1 2 3, .rdtogx 2 1 3, .rdtogxWithReport 1 2 3 0, .rdtogxWithReport 2 1 3 0, .chopen 1 2 3, .send 1 3, .sendb 1 3 2, .sendt 1 3,
    .sendh 1 2, .sendh 2 1, .recv 1 false 2 3 4, .recvb 1 false 2 3 4, .recvt 1 false 2 3 4, .recvh 1 false 2 3 0, .recvh 2 false 2 3 4, .altp 1 false 2 3 4 0,
    .altf 1 false 2 3 4 0, .join 1 false 2 3 4, .bara 5, .barw 1 false 2 0, .barw 1 true 2 5, .barx 1 false 2 0, .barx 1 true 2 5] : List Instr).all (fun i => !i.wf) = true := rfl

theorem test_illformed_vector : ([.vadd { vops with m := 1 }, .vadd { vops with str := 4 }, .vadd { vops with inc := 1, x10 := 0x200 }, .vadd { vops with inc := 6 },
    .vadd { vops with inc := 5 }, .vadd { vops with inc := 3 }, .vadd { vops with rnd := 5 }, .vadd { vops with rnd := 4, e := 1 }, .vadd { vops with e := 2 },
    .vadd { vops with sat := true }, .vadd { vops with x10 := 1 }, .vmin { vops with rnd := 1 }, .vabs { vops with c := 1 }, .vabs { vops with x10 := 0x200 },
    .vexp2 { vops with rnd := 5 }, .vcmp { vops with x10 := 8 }, .vcvt { vops with b := 1, c := 2, inc := 1, str := 1 }, .vred { vops with inc := 4 },
    .vred { vops with rnd := 4 }, .vred { vops with x10 := 6 }, .vscan { vops with c := 1 }, .vbcast { vops with m := 2 }, .vbcast vops, .vbcast { vops with m := 1, x10 := 0x200 },
    .vperm vops, .vgather { vops with inc := 2 }, .vscatter { vops with inc := 4 }, .vrand vops, .vflg 1 3] : List Instr).all (fun i => !i.wf) = true := rfl

theorem test_illformed_tile : ([.tld 0 1 3 true 0, .tst 0 1 3 true 0, .tcvt 0 0 1 false 0 false, .tcvt 0 0 0 false 5 false, .tcvt 0 0 1 false 4 false, .cpset 1 13, .rgwait 1 2,
    .scrub 1 2 3] : List Instr).all (fun i => !i.wf) = true := rfl

/-! States for the witnesses. -/

/-- A process at head 1 of its segment's first line, in the first 4 KiB of its core's LM; its partition is 0. -/
def proc : Proc := { Proc.zero with state := .running, sl := 0x1000, pc := 1, lastPc := 1, bars := 0x1F }

/-- A package in service with partition 0 on all of it: 1 GiB of HBM on server 0, which DVA 0 to 2^30 reach with every right, and a page of host memory at DVA 2^30. -/
def world : State := { State.reset with
  bring := { Bring.zero with state := .running, madder := true, placement := true, scale := 3 }
  parts := [(0, { Part.zero with node := 1, domains := [(0, 0x8000000000007C3F)] })]
  fns := [(0, { Fn.zero with enabled := true }), (1, { Fn.zero with enabled := true })]
  clusters := [(0, { Cluster.zero with ready := true, tc := [(0, 0xA2, 30), (2 ^ 30, 0x8000000000002, 12)] })]
  servers := [(0, { Server.zero with ready := true, eh := 5 })]
  ranges := [(0, 0x80010000000010000000000000200000)]
  tss := { Tss.zero with ready := true, last := 4, v := 4 } }

/-- The world with process p running in slot 0 of core 0. -/
def base (p : Proc) : State := world.setCore 0 { Core.zero with procs := [(0, p)], run := some 0, vheld := 4 }

theorem base_runs (p : Proc) : (base p).Runs 0 0 p := ⟨rfl, rfl, rfl⟩

/-- Process `proc` with values in registers. -/
def regs (l : List (Reg × Word)) : Proc := l.foldl (fun p x => p.setReg x.1 x.2) proc

/-! Witnesses: integer, control and local memory instructions. -/

/-- Division by 0 and of the most negative number, shifts by 63, equal operands. -/
theorem witness_integer :
    (base (regs [(2, 0x8000000000000000), (3, -1)])).Runs 0 0 (regs [(2, 0x8000000000000000), (3, -1)]) ∧ (regs [(2, 0x8000000000000000), (3, -1)]).awaits [1, 2, 3] = false ∧
      (regs [(2, 1), (3, 0)]).awaits [1, 2] = false ∧ (regs []).awaits [1] = false ∧ (regs []).awaits [1, 2, 3, 4] = false ∧
      (regs []).awaits [2, oddOf 2, 4, oddOf 4] = false :=
  ⟨base_runs _, by decide⟩

/-- The last head of a line of one head, a transfer from it, and calls from it. -/
theorem witness_completion : (base proc).Runs 0 0 proc ∧ (proc.setReg 1 7).pc = proc.pc ∧ (proc.setReg 1 7).sb = proc.sb ∧ proc.awaits [15] = false ∧ proc.awaitsDead = false ∧
    proc.awaits [1, 15] = false ∧ (proc.reg 1).toNat < 2 ^ 52 := ⟨base_runs _, by decide⟩

/-- Targets at and above 2^52; a counter of 1 that ends its loop and one of 0 that does not. -/
theorem witness_transfers : (base (regs [(1, 0xFFFFFFFFFFFFF), (15, 0x10000000000000)])).Runs 0 0 (regs [(1, 0xFFFFFFFFFFFFF), (15, 0x10000000000000)]) ∧
    (regs [(1, 0xFFFFFFFFFFFFF), (15, 0x10000000000000)]).awaits [1, 2] = false ∧ (regs [(1, 1)]).awaits [1, 15] = false ∧ (regs []).awaits [15] = false ∧
    (regs []).awaitsDead = false :=
  ⟨base_runs _, by decide⟩

/-- A register that awaits data, and one that does not. -/
theorem witness_scalar_frame : ScalarForm (.add 1 2 3) [1, 2, 3] [1] ∧
    ({ proc with outs := [{ oid := 0, seq := 0, pc := 1, ea := 0, len := 8, dest := .reg 2 8 false, acquire := false }] } : Proc).awaits [1, 2, 3] = true ∧
    exec (.add 1 2 3) (base proc) = .next ((base proc).retire 0 0 (proc.setReg 1 0)) :=
  ⟨.add 1 2 3, by decide, rfl⟩

/-- The last bytes of the segment for every size, and the first address beyond; a load whose bytes a single-bit or a double-bit error strikes. -/
theorem witness_local_memory :
    let p := regs [(2, 0xFF8)]
    let hit (e : Ecc) : State := { base p with upsets := [(.lm 0 0xFF8, e)], ptroot := 2 ^ 40 }
    (base p).Runs 0 0 p ∧ (Memory.wf ((base p).coreAt 0).lm = true ∧ p.awaits [4, oddOf 4, 2] = false ∧ p.acquiring = false ∧
      (p.reg 2 + (0 : BitVec 20).signExtend 64).toNat % 8 = 0 ∧ (p.reg 2 + (0 : BitVec 20).signExtend 64).toNat + 8 ≤ p.sl.toNat - p.sb.toNat ∧
      (base p).localHeld 0 (Span.ofLen 0xFF8 8) Span.none = false ∧ (base p).localHeld 0 Span.none (Span.ofLen 0xFF8 8) = false ∧
      (base p).errAt (.lm 0 0xFF8) 8 = .clean ∧ (hit .corrected).errAt (.lm 0 0xFF8) 8 ≠ .clean ∧ (((hit .corrected).lmFound 0 0 0xFF8 8).coreAt 0).lmBadHit 0xFF8 8 = false ∧
      (((hit .uncorrectable).lmFound 0 0 0xFF8 8).coreAt 0).lmBadHit 0xFF8 8 = true ∧ (((base p).lmFound 0 0 0xFF8 8).coreAt 0).lmBadHit 0xFF8 8 = false ∧ (p.reg 2 + (7 : BitVec 20).signExtend 64).toNat + 1 ≤ p.sl.toNat - p.sb.toNat ∧
      (p.reg 2 + (-8 : BitVec 20).signExtend 64).toNat % 16 = 0 ∧ (p.reg 2 + (-8 : BitVec 20).signExtend 64).toNat + 16 ≤ p.sl.toNat - p.sb.toNat ∧
      (base p).localHeld 0 (Span.ofLen 0xFF0 16) Span.none = false ∧
      (p.reg 2 + (1 : BitVec 20).signExtend 64).toNat % 2 ≠ 0 ∧ (p.reg 2 + (8 : BitVec 20).signExtend 64).toNat % 16 = 0 ∧
      p.sl.toNat - p.sb.toNat < (p.reg 2 + (8 : BitVec 20).signExtend 64).toNat + 16) :=
  ⟨base_runs _, by decide +kernel⟩

/-! Global memory and atomics. -/

/-- The address of a CM byte of cluster 0. -/
def cmAddr (off : Nat) : Word := BitVec.ofNat 64 (2 ^ 51 + 2 ^ 49 + off)

/-- An operation that awaits data for register 2. -/
def waiting (acq : Bool) : Out := { oid := 0, seq := 0, pc := 1, ea := 0, len := 8, dest := .reg 2 8 false, acquire := acq }

/-- Each check in its order: the last address of the space, a misaligned one, a window address that names no byte, a byte without rights, a capability without G, a host address. -/
theorem witness_global_checks :
    let p := regs [(2, 0x1001)]
    let cap : Proc := (regs [(2, 0x40000000)]).setPair 4 0 0x1000000000000008 true
    GlobalForm (.ldg 3 0 false false 1 2 0) [1, 2] 2 0 8 (fun _ _ => rightR) ∧ (base p).Runs 0 0 p ∧
      (({ p with outs := [waiting false] } : Proc).awaits [1, 2] = true ∧ ({ p with outs := [waiting true] } : Proc).acquiring = true ∧
      p.awaits [1, 2] = false ∧ p.acquiring = false ∧ 2 ^ 52 < (0xFFFFFFFFFFFF9 : Word).toNat + 8 ∧ ¬2 ^ 52 < (0xFFFFFFFFFFFF8 : Word).toNat + 8 ∧
      (p.reg 2).toNat % 8 ≠ 0 ∧ windowOk 0xFFFFFFFFFFFF8 8 = false ∧ windowOk 0x80000000 8 = true ∧
      (base p).rangeHas 0 rightR 0x80000000 8 = false ∧ (base p).rangeHas 0 rightR 0x7FFFFFF8 8 = true ∧
      (base cap).issueCheck 0 (storeRight cap 0x40000000) 0x40000000 16 = none ∧ cap.pairTag 4 = true ∧ capG (cap.reg (oddOf 4) ++ cap.reg 4) = true ∧
      capG (0x10000000000000000000000000000000 : BitVec 128) = false ∧ (base cap).issueWaits 0 cap 0x40000000 16 true = false) ∧ ((base cap).translate 0 0 0 0x40000000).1 = .ok (.host 0) :=
  ⟨.ldg 3 0 false false 1 2 0, base_runs _, by decide +kernel, rfl⟩

/-- Reads, stores and atomics at CM and at HBM, with no room for one more outstanding operation but one. -/
theorem witness_global_requests :
    let p : Proc := { regs [(2, cmAddr 0x77FFF8)] with outs := List.replicate 15 { waiting false with dest := .tags 9 } }
    let q := regs [(2, 0x7FFF8)]
    let c := base p
    let h := base q
    c.Runs 0 0 p ∧ h.Runs 0 0 q ∧ (p.acquiring = false ∧ c.noticed 0 p = false ∧ p.outs.length < 16 ∧ p.awaits [1, oddOf 1, 2] = false ∧
      c.issueCheck 0 rightR (p.reg 2) 8 = none ∧ c.issueCheck 0 (storeRight p (p.reg 2)) (p.reg 2) 8 = none ∧ c.issueCheck 0 rightA (p.reg 2) 8 = none ∧
      (p.stores.filter fun x => x.kind == .direct).length < 32 ∧ h.issueCheck 0 rightR (q.reg 2) 8 = none ∧
      h.issueCheck 0 (storeRight q (q.reg 2)) (q.reg 2) 8 = none ∧ h.issueCheck 0 rightA (q.reg 2) 8 = none ∧ h.queueRoom 0 = true ∧
      c.issueWaits 0 p (p.reg 2).toNat 8 false = false ∧ c.issueWaits 0 p (p.reg 2).toNat 8 true = false ∧
      h.issueWaits 0 q (q.reg 2).toNat 8 false = false ∧ h.issueWaits 0 q (q.reg 2).toNat 8 true = false ∧
      h.forwardOf 0 (.hbm 0 0x7FFF8) 8 = none ∧ h.releaseSteps 0 q 0 none = some (q, true) ∧ (Loc.hbm 0 0x7FFF8).isQueued = true ∧
      (Loc.cm 0 0x77FFF8).isQueued = false ∧ (Loc.hbm 0 0x7FFF8).isFar = false) ∧
      (c.translate 0 0 0 (p.reg 2).toNat).1 = .ok (.cm 0 0x77FFF8) ∧ (h.translate 0 0 0 (q.reg 2).toNat).1 = .ok (.hbm 0 0x7FFF8) ∧
      AtomicForm (.acas { m := 3, sc := 0, ord := 0, a := 1, b := 2, c := 3, d := 0 }) .cas { m := 3, sc := 0, ord := 0, a := 1, b := 2, c := 3, d := 0 } ∧
      ReductionForm (.redadd { m := 3, sc := 0, rel := true, b := 2, c := 3, d := 0 }) .add { m := 3, sc := 0, rel := true, b := 2, c := 3, d := 0 } :=
  ⟨base_runs _, base_runs _, by decide +kernel, rfl, rfl, .acas _, .redadd _⟩

/-- A request in flight to a location. -/
def asks (l : Loc) (op : GOp) (mode : ReadMode) : GReq :=
  { oid := 7, who := { g := 0, slot := 0, gen := 0 }, dye := 0, part := 0, loc := l, op := op, mode := mode, behind := [], behindEq := [] }

/-- The world with one message in flight. -/
def inFlight (p : Proc) (src dst : Node) (b : Body) : State := { base p with net := [{ src := src, dst := dst, body := b }] }

/-- What `State.Served` asks, as one test. -/
theorem serves {s : State} {n : Nat} {src dst : Node} {r : GReq} (h : s.net[n]? = some { src := src, dst := dst, body := .req r })
    (k : (deliverable s.net n && s.unblocked r && s.mayServe n && !s.olderSource r.who r.oid r.loc && decide (r.who.g < 1024) && r.remote.isNone &&
      !r.loc.isFar) = true) : s.Served n src dst r := by
  simp only [Bool.and_eq_true, Bool.not_eq_true', decide_eq_true_eq, Option.isNone_iff_eq_none] at k
  exact ⟨h, k.1.1.1.1.1.1, k.1.1.1.1.1.2, k.1.1.1.1.2, k.1.1.1.2, k.1.1.2, k.1.2, k.2⟩

/-- Requests at a home: the last byte of a line, a version at its snapshot's own timestamp, a current version, a prepared line; LM and host memory, a capability to the host and an interface without its stream. -/
theorem witness_home_steps :
    let v : Ver := { Ver.zero with ts := 3, plain := false }
    let s (l : Loc) (op : GOp) (mode : ReadMode) (prep : Option Nat) : State :=
      { inFlight proc (.core 0) l.node (.req (asks l op mode)) with hbm := [(1, { Line.zero with cur := v, prep := prep })] }
    let r := s (.hbm 0 255) (.read 1) (.snapshot 3) none
    let w (prep : Option Nat) := s (.hbm 0 255) (.write [1] false none 4) (.current 0) prep
    let c := s (.cm 0 0) (.read 8) (.current 0) none
    let m := s (.lm 0 15) (.write [1] false none 4) (.current 0) none
    let h := s (.host 0) (.write [1] false none 4) (.current 0) none
    let shut : State := { h with fns := [(0, { Fn.zero with enabled := true, tdi := .run })] }
    let newest (k : Option Nat) : State := { w none with servers := [(0, { Server.zero with ready := true, eh := 5, newest := k })] }
    r.Served 0 (.core 0) (.server 0) (asks (.hbm 0 255) (.read 1) (.snapshot 3)) ∧
      (w (some 2)).Served 0 (.core 0) (.server 0) (asks (.hbm 0 255) (.write [1] false none 4) (.current 0)) ∧
      c.Served 0 (.core 0) (.cluster 0) (asks (.cm 0 0) (.read 8) (.current 0)) ∧
      m.Served 0 (.core 0) (.core 0) (asks (.lm 0 15) (.write [1] false none 4) (.current 0)) ∧
      h.Served 0 (.core 0) .host (asks (.host 0) (.write [1] false none 4) (.current 0)) ∧
      ((r.lineAt 1).snapshot 3 = some v ∧ v.poison = false ∧ v.ts ≤ 3 ∧ 0 ≤ (r.serverAt 0).v ∧ r.tss.revoked 3 = false ∧
        (r.lineAt 1).prep = none ∧ ((r.lineAt 1).current 0).poison = false ∧ (w none).memOk = true ∧ 255 % 128 + 1 ≤ 128 ∧ ((w (some 2)).lineAt 1).prep ≠ none ∧
        c.locBad (.cm 0 0) 8 = false ∧ h.hostRefused 0 = false ∧ shut.hostRefused 0 = true ∧ (asks (.host 0) (.write [1] false none 4) (.current 0)).cap = false) ∧
      (((newest (some 2)).serverAt 0).newest = some 2 ∧ 2 < v.ts ∧ v.ts ≤ 3 ∧ (newest (some 3)).lineFull 1 = false ∧
        (newest (some 3)).poolUsed 0 < poolSize ((newest (some 3)).serverAt 0).poolCfg) :=
  ⟨serves rfl (by decide +kernel), serves rfl (by decide +kernel), serves rfl (by decide +kernel), serves rfl (by decide +kernel), serves rfl (by decide +kernel),
    by decide +kernel, by decide +kernel⟩

/-- Atomics at CM, at the host (allowed and not), and at HBM: with a free thread, without one, at a prepared line, and in a thread, on values that ACAS expects and does not. -/
theorem witness_home_atomics :
    let op (o : AtOp) (ret : Bool) : GOp := .atomic o 4 false 0 1 0 ret
    let s (l : Loc) (o : AtOp) (threads : List (Nat × Nat × Nat)) (prep : Option Nat) : State :=
      { inFlight proc (.core 0) l.node (.req (asks l (op o true) (.current 0))) with
        hbm := [(1, { Line.zero with prep := prep })], servers := [(0, { Server.zero with ready := true, eh := 5, threads := threads })] }
    let full := (List.range 9).map fun i => (i, i, 0)
    let h := s (.hbm 0 252) .cas [] none
    (s (.cm 0 4) .cas [] none).Served 0 (.core 0) (.cluster 0) (asks (.cm 0 4) (op .cas true) (.current 0)) ∧
      (s (.host 4) .xchg [] none).Served 0 (.core 0) .host (asks (.host 4) (op .xchg true) (.current 0)) ∧
      h.Served 0 (.core 0) (.server 0) (asks (.hbm 0 252) (op .cas true) (.current 0)) ∧
      ((s (.cm 0 4) .cas [] none).locBad (.cm 0 4) 4 = false ∧ (s (.cm 0 4) .cas [] none).memOk = true ∧ (s (.host 4) .xchg [] none).hostRefused 0 = false ∧ AtOp.min ≠ .add ∧
        h.threaded (asks (.hbm 0 252) (op .cas true) (.current 0)) = false ∧ (h.lineAt 1).prep = none ∧ bufferRoom 1 8 ((h.serverAt 0).threads.map (·.2.2)) 0 = true ∧
        bufferRoom 1 8 (((s (.hbm 0 252) .cas full none).serverAt 0).threads.map (·.2.2)) 0 = false ∧ ((s (.hbm 0 252) .cas [] (some 2)).lineAt 1).prep ≠ none ∧
        (let t := s (.hbm 0 252) .cas [(0, 7, 0)] none
         t.net[0]? = some { src := .core 0, dst := .server 0, body := .req (asks (.hbm 0 252) (op .cas true) (.current 0)) } ∧ deliverable t.net 0 = true ∧
           t.threaded (asks (.hbm 0 252) (op .cas true) (.current 0)) = true ∧ (t.lineAt 1).cur.poison = false ∧ 252 % 128 + 4 ≤ 128 ∧
           bytesNat (Mem.read (t.lineAt 1).cur.data (252 % 128) 4) = (0 : Word).toNat % 2 ^ 32 ∧ bytesNat (Mem.read (t.lineAt 1).cur.data (252 % 128) 4) ≠ (9 : Word).toNat % 2 ^ 32)) :=
  ⟨serves rfl (by decide +kernel), serves rfl (by decide +kernel), serves rfl (by decide +kernel), by decide +kernel⟩

/-- Data, an error and an acknowledgement for an operation of a live process. -/
theorem witness_arrivals :
    let o (d : Dest) : Out := { waiting false with oid := 7, dest := d }
    let p (d : Dest) : Proc := { proc with outs := [o d] }
    let r := asks (.cm 0 0) (.read 2) (.current 0)
    let s (d : Dest) (b : Body) : State := inFlight (p d) (.cluster 0) (.core 0) b
    ∀ d ∈ [Dest.reg 2 2 true, Dest.pair 4 true], ∀ b ∈ [Body.resp r [0xFF, 0x80] 1 9 9 0x1F false false, .err r .rights, .ack r (some 9) 0],
      deliverable (s d b).net 0 = true ∧ r.who = (s d b).pref 0 0 ∧ ((s d b).coreAt 0).holdsProc 0 = true ∧ (s d b).procAt 0 0 = p d ∧
        ((p d).outs.find? fun x => x.oid == r.oid) = some (o d) := by decide +kernel

/-- Entries of a write queue to HBM and to another package, a leaf to walk for, a domain entry to bring in, an atomic to abandon. -/
theorem witness_queue_and_cache :
    let e (l : Loc) : WqE := { seq := 3, oid := 7, who := { g := 0, slot := 0, gen := 0 }, dye := 0, part := 0, ea := 0, loc := l, bytes := [1], own := none, cap := false
                               isCap := false, floor := 0 }
    let s (l : Loc) : State := (base proc).setCluster 0 { world.clusterAt 0 with wq := [e l] }
    let table (bytes : List Byte) : Line := { Line.zero with cur := { Ver.zero with data := Mem.write [] 0 bytes } }
    let t : State := { (base proc).setCluster 1 { Cluster.zero with ready := true } with hbm := [(0, table [1, 0x10]), (32, table [0xA2])], ptroot := 0 }
    let q := asks (.hbm 0 0) (.atomic .add 8 false 0 1 0 true) (.current 0)
    let a : State := { inFlight proc (.core 0) (.server 0) (.req q) with servers := [(0, { Server.zero with ready := true, threads := [(0, 7, 0)] })] }
    (∀ l ∈ [Loc.hbm 0 0, .far 3 1 0 0], (((s l).clusterAt 0).wq.find? fun x => x.seq == 3) = some (e l) ∧
      (((s l).clusterAt 0).wq.any fun x => x.loc.sameHome (e l).loc && decide (x.seq < 3)) = false ∧ (s l).olderRequest (e l) = false ∧
        (s l).mayAccept l 0 = true ∧ (s l).egressRoom 0 = true) ∧ t.walkWaits (t.walkDye 1 |>.extractLsb' 12 4).toNat 1 0 = false ∧ t.upsets = [] ∧
      isWindow (0x7FFFFFFFFFFFF : BitVec 52).toNat = false ∧ (t.clusterAt 1).cachedLeaf 0 = none ∧ (t.clusterAt 1).walkStart t.ptroot 0 = (4, 0) ∧
      t.walkFrom 0 4 0 = some (0xA2, 30) ∧ (t.partOfCore 0) = some 0 ∧
      ((t.partAt 0).domains.find? fun e => match domainEntry e.2 with | some (b, n, _) => decide (b ≤ 0) && decide (0 < b + n) | none => false).isSome = true ∧
      (t.coreAt 0).plb.contains 0 = false ∧ deliverable a.net 0 = true ∧ a.threaded q = true ∧ (a.lineAt 0).prep = none ∧ q.remote = none := by decide +kernel

/-! Witnesses: fences, versions and third-party reads. -/

/-- A write in the cluster's queue, older than mark 3 or not, and a store not yet visible; ranges that miss them by one byte; a fence at its marker. -/
theorem witness_fence :
    let p : Proc := { regs [(2, 0xFFFFFFFFFFFF0), (3, 16)] with stores := [{ oid := 0, seq := 0, pc := 1, ea := 0, len := 8, kind := .direct }] }
    let m : Proc := { regs [(2, 16), (3, 8)] with wait := .marks 1 3 (some 0) }
    let e : WqE := { seq := 2, oid := 7, who := { g := 0, slot := 0, gen := 0 }, dye := 0, part := 0, ea := 24, loc := .hbm 0 24, bytes := [1], own := none, cap := false
                     isCap := false, floor := 0 }
    let s := (base m).setCluster 0 { world.clusterAt 0 with wq := [e] }
    (base p).Runs 0 0 p ∧ (p.awaits [2, 3] = false ∧ p.acquiring = false ∧ inRange none (0 : Word).toNat 8 = true ∧
      (p.stores.all fun x => !inRange (some ((p.reg 2).toNat, 16)) x.ea.toNat x.len) = true ∧ (p.reg 2).toNat < 2 ^ 52 ∧ (p.reg 2).toNat + 16 ≤ 2 ^ 52 ∧
      p.vseen.toNat ≤ ((base p).coreAt 0).vheld ∧ m.wait = .marks m.pc 3 (some 0) ∧ (s.clusterAt 0).wq = [e] ∧ inRange (some (16, 8)) e.ea e.bytes.length = false ∧
      inRange (some (17, 8)) e.ea e.bytes.length = true ∧ 2 ^ 52 < (p.reg 2).toNat + 17) :=
  ⟨base_runs _, by decide +kernel⟩

/-- A snapshot's reply, a live snapshot, the same one already held, and a transaction. -/
theorem witness_snapshot :
    let l : LRef := { fn := 0, lid := 0 }
    let p : Proc := { regs [(1, 4)] with wait := .snap 1 9 }
    let held : Proc := { regs [(1, 4)] with snap := 4, sm := true }
    let r : SnapReq := { k := 9, for_ := .set { g := 0, slot := 0, gen := 0 }, ts := 4, issued := true, marks := [], acks := [], replied := true }
    let s (p : Proc) : State := { base p with tss := { world.tss with reqs := [r], snaps := [{ ts := 4, tx := false, holders := 1, part := 0, launch := l, revoked := false }] } }
    (s p).Runs 0 0 p ∧ (p.acquiring = false ∧ p.awaits [1] = false ∧ p.txid = 0 ∧ p.snap = 0 ∧ p.sm = false ∧ (s p).snapReq 9 = some r ∧ r.replied = true ∧
      (regs [(1, 4)]).wait = .none ∧ (s (regs [(1, 4)])).ownQueued { g := 0, slot := 0, gen := 0 } = false ∧
      ((s p).tss.live.any fun x => x.ts == (p.reg 1).toNat && !x.tx && !x.harvest) = true ∧ ((s p).tss.live.any fun x => x.ts == 5 && !x.tx && !x.harvest) = false ∧
      held.txid = 0 ∧ held.snap = held.reg 1 ∧ held.snap ≠ 0 ∧ ({ proc with txid := 1 } : Proc).txid ≠ 0) :=
  ⟨⟨rfl, rfl, rfl⟩, by decide +kernel⟩

/-- A transaction of one home. -/
def trans (phase : TxPhase) : Tx :=
  { who := { g := 0, slot := 0, gen := 0 }, launch := { fn := 0, lid := 0 }, snap := 3, homes := [0], lines := [1], overCap := false, span := false, phase := phase, asked := []
    votes := [], applied := [], toAbort := [], aborted := [], closed := false }

/-- A transaction ended by a conflict, one whose only home has applied it, and one still preparing; a publish without copies, one applied at V, and ids out of range. -/
theorem witness_transaction :
    let p : Proc := { regs [(4, 4095)] with txid := 1, snap := 3, sm := true, wait := .txc 1 }
    let s (x : Tx) (p : Proc) : State := { base p with tss := { world.tss with txs := [(1, x)], pubs := [{ k := 0, launch := proc.launch, id := 4095, ts := 4, homes := [] }] } }
    let y := { trans (.applying 4) with applied := [0] }
    let r : SnapReq := { k := 9, for_ := .tx { g := 0, slot := 0, gen := 0 } 1, ts := 4, issued := true, marks := [], acks := [], replied := true }
    (s y p).Runs 0 0 p ∧ (p.acquiring = false ∧ p.awaits [4, oddOf 4] = false ∧ p.txid ≠ 0 ∧ Tbl.find (s y p).tss.txs p.txid.toNat = some y ∧ p.wait = .txc 1 ∧
      y.phase = .applying 4 ∧ (y.homes.all fun h => y.applied.contains h) = true ∧ 4 ≤ (s y p).tss.v ∧ (trans (.ended 1 0)).phase = .ended 1 0 ∧
      (trans .preparing).phase = .preparing ∧ ({ (s y proc).tss with reqs := [r] }.reqs.find? fun x => x.k == 9) = some r ∧
      0 < (p.reg 4).toNat ∧ (p.reg 4).toNat ≤ 4095 ∧ (s y p).setCopies proc.launch 4095 = [] ∧ (s y p).setHomes (.set proc.launch 4095) = [] ∧
      ((s y p).tss.pubs.find? fun x => x.ts == 4).isSome = true ∧ (0 : Word).toNat = 0 ∧ 4095 < (4096 : Word).toNat) :=
  ⟨⟨rfl, rfl, rfl⟩, by decide +kernel⟩

/-- A handle to endpoint 3 of core 0. -/
def handle (ek : BitVec 2) (esz : BitVec 12) (mode sRight gRight tRight : Bool) : BitVec 128 := mkHandle 0 0 false 0 3 ek esz mode 0 sRight gRight tRight 0

/-- A register file with a tagged pair in registers 4 and 5. -/
def paired (h : BitVec 128) (l : List (Reg × Word)) : Proc := (regs l).setPair 4 (h.setWidth 64) (h.extractLsb' 64 64) true

/-- A read of CM to an endpoint, of the greatest length, with an untagged handle, and with one without T. -/
theorem witness_third_party_request :
    let h := handle 1 4095 true true false true
    let p := paired h [(2, cmAddr 0), (6, 4095)]
    let s := base p
    ThirdForm (.rdto 4 2 6) false false 4 2 6 none ∧ s.Runs 0 0 p ∧ (p.awaits [4, oddOf 4, 2, 6, oddOf 2] = false ∧ p.acquiring = false ∧ p.pairTag 4 = true ∧
      (h.extractLsb' 124 4).toNat = 1 ∧ hT h = true ∧ hT (handle 1 4095 true true false false) = false ∧ (p.setReg 4 0).pairTag 4 = false ∧
      s.reportCheck 0 0 none = none ∧ s.heldBack 0 p = false ∧ s.relayFit 0 4095 = some false) ∧ s.tprSource 0 p false 2 6 = .ok (cmAddr 0, none) ∧
      p.tprMembers false h = some (.ok [h]) :=
  ⟨.rdto 4 2 6, base_runs _, by decide +kernel, rfl, rfl⟩

/-- Requests for a snapshot in each phase; V exactly one below its timestamp; a server and a core that are behind. -/
theorem witness_snapshot_steps :
    let r (issued : Bool) (marks acks : List Nat) : SnapReq :=
      { k := 9, for_ := .set { g := 0, slot := 0, gen := 0 }, ts := 5, issued := issued, marks := marks, acks := acks, replied := false }
    let s (x : SnapReq) : State := { base proc with tss := { world.tss with reqs := [x], acked := [(0, 4)] } }
    ((s (r false [] [])).snapReq 9 = some (r false [] []) ∧ (s (r false [] [])).tss.ready = true ∧ ((s (r false [] [])).tss.live.filter fun x => !x.tx).length < 4096 ∧
      (s (r true [0] [])).snapReq 9 = some (r true [0] []) ∧ (s (r true [] [0])).snapReq 9 = some (r true [] [0]) ∧
      (s (r true [] [])).snapReq 9 = some (r true [] []) ∧ (r true [] []).ts ≤ (s (r true [] [])).tss.v + 1 ∧
      ((s (r true [] [])).serverAt 0).ready = true ∧ 4 ≤ (s (r true [] [])).tss.v ∧ 4 ≤ (s (r true [] [])).heldV) := by decide +kernel

/-- A transaction in each of its phases, votes of each kind; votes for it of YES, of CONFLICT by a newer version, by another owner and by a mark, and of REVOKED; nothing held. -/
theorem witness_commit_steps :
    let y (p : TxPhase) : Tx := trans p
    let l : Line := { Line.zero with tent := [(.tx 1, Ver.zero)] }
    let s (x : Tx) (l : Line) (revoked : Bool) : State := { base proc with
      hbm := [(1, l)], tss := { world.tss with txs := [(1, x)], snaps := [{ ts := 3, tx := true, holders := 1, part := 0, launch := { fn := 0, lid := 0 }, revoked := revoked }] } }
    let all : List Tx := [{ y .preparing with asked := [0] }, { y .preparing with votes := [(0, 0, false)] }, { y .preparing with votes := [(0, 1, false)] },
      { y .preparing with votes := [(7, 2, true), (0, 1, false)], homes := [0, 7] }, y (.applying 4), { y (.ended 1 0) with toAbort := [0] }, { y (.ended 1 0) with aborted := [0], closed := true }]
    (all.all fun x => (Tbl.find (s x l false).tss.txs 1 == some x && !(s x l false).txQueued 1 0)) = true ∧ ((s (y .open_) l false).tss.txs.map (·.1)).Pairwise (· < ·) ∧
      ((s (y .open_) l false).hbm.map (·.1)).Pairwise (· < ·) ∧ (s (y .open_) l false).linesOf 0 = [(1, l)] ∧ l.held = [] ∧ (s (y .open_) l false).devHeld = [] ∧ (l.tentOf (.tx 1)).isSome = true ∧
      l.cur.ts ≤ (y .open_).snap ∧ l.pool = [] ∧ l.prep = none ∧ ((s (y .open_) l false).tss.snaps.any fun z => z.ts == 3 && z.tx && z.revoked) = false ∧
      ((s (y .open_) l true).tss.snaps.any fun z => z.ts == 3 && z.tx && z.revoked) = true ∧ (y .open_).snap < ({ Ver.zero with ts := 4 } : Ver).ts ∧
      (Owner.set { fn := 0, lid := 0 } 1 ≠ .tx 1) ∧ ({ l with prep := some 9 } : Line).prep = some 9 := by decide +kernel

/-- A line whose seven slots are full of versions that snapshot 2 reads; a notice; a version that nothing reads. -/
theorem witness_revocation :
    let v (n : Nat) : Ver := { Ver.zero with ts := n, plain := false }
    let l : Line := { Line.zero with cur := v 9, pool := [v 8, v 7, v 6, v 5, v 4, v 3, v 1] }
    let snap (n : Nat) : Snap := { ts := n, tx := false, holders := 1, part := 0, launch := { fn := 0, lid := 0 }, revoked := false }
    let w := asks (.hbm 0 0) (.write [1] false none 0) (.current 0)
    let s : State := { inFlight { proc with snap := 2, sm := true } (.core 0) (.server 0) (.req w) with
      hbm := [(0, l)], servers := [(0, { Server.zero with ready := true, eh := 10, v := 9, firn := some 1, newest := some 9 })]
      tss := { world.tss with last := 9, v := 9, snaps := [1, 3, 4, 5, 6, 7, 8, 9].map snap } }
    let n := inFlight proc .tss (.core 0) (.notice 2)
    let old : State := { base proc with hbm := [(0, { Line.zero with cur := v 4, pool := [v 3] })], servers := [(0, { Server.zero with ready := true, eh := 5, v := 4 })] }
    (s.hbmHome 0 = some 0 ∧ s.lineFull 0 = true ∧ s.slotWanted 0 0 true = true ∧ old.slotWanted 0 0 (old.lineFull 0) = false ∧
      ((s.candidates 0 0 true).any fun c => reclaimable (s.serverAt 0).firn (s.serverAt 0).v ((s.lineAt c.1).successorTs c.2) || (s.readers c).isEmpty) = false ∧
      ((s.candidates 0 0 true).flatMap s.readers).min? = some 1 ∧ deliverable n.net 0 = true ∧ (old.lineAt 0).pool = [v 3] ∧ (v 3).holdV = 0 ∧
      reclaimable (old.serverAt 0).firn (old.serverAt 0).v (old.lineAt 0).cur.ts = true ∧ (old.hbm.map (·.1)).Pairwise (· < ·) ∧
      ((old.candidates 0 0 false).all fun c => decide (3 ≤ (((old.lineAt c.1).pool).getD c.2 Ver.zero).ts)) = true ∧
      old.ablationMay 0 = false ∧ ({ old with cycle := 64 } : State).ablationMay 0 = true ∧ ({ s with cycle := 64 } : State).ablationMay 0 = false) := by decide +kernel

/-! Witnesses: channels. -/

/-- An endpoint of core 0 that process 0 owns, with every partition's access. -/
def endp (st : EpState) (ek : BitVec 2) (esz : BitVec 12) (mode : Bool) : Endp := { Endp.zero with st := st, ek := ek, esz := esz, mode := mode, acc := 0xFFFF }

/-- The world of process p with endpoint 3 of its core as given. -/
def withEp (p : Proc) (x : Endp) : State := (base p).setEp 0 3 x

/-- A header from another process, of n bytes. -/
def header (n : Nat) (bytes : List Byte) (ek : BitVec 2) : Hdr :=
  { hid := 5, from_ := .proc { g := 0, slot := 1, gen := 0 }, part := 0, dye := 0, gen := 0, ek := ek, len := n, bytes := bytes, tag := false, failed := false
    launch := { fn := 0, lid := 0 } }

/-- The word of an opening descriptor (08 R295). -/
def opening (esz ek mode depth : Nat) : Word := BitVec.ofNat 64 (esz + ek * 4096 + mode * 16384 + depth * 32768)

/-- Opening descriptors: one that is unsound, rings misaligned, one byte too long, and exact; no closed endpoint; closing in each state. -/
theorem witness_endpoints :
    let p (d : Word) (ro : Word) := regs [(2, d), (3, ro), (1, 3)]
    let full : State := { base proc with cores := [(0, { (base proc).coreAt 0 with eps := (List.range 256).map fun e => (e, endp .empty 0 7 false) })] }
    let x := endp .empty 0 7 false
    (base (p (opening 7 0 1 31) 2048)).Runs 0 0 (p (opening 7 0 1 31) 2048) ∧ ((p 0 0).acquiring = false ∧ (p 0 0).awaits [1, oddOf 1, 2, 3] = false ∧
      bitsOf (opening 7 0 1 31).toNat 13 12 = 0 ∧ bitsOf (opening 7 0 1 31).toNat 11 0 = 7 ∧ bitsOf (opening 7 0 1 31).toNat 63 40 = 0 ∧
      (opening 7 0 1 31).getLsbD 23 = false ∧ 2048 + 32 * roundUp 8 64 ≤ (p 0 0).segLen ∧ (p 0 0).segLen < 2112 + 32 * roundUp 8 64 ∧ 2049 % 64 ≠ 0 ∧
      bitsOf (opening 8 0 0 0).toNat 11 0 ≠ 7 ∧ ((base proc).epAt 0 0).st = .closed ∧ ((List.range 256).all fun e => (full.epAt 0 e).st != .closed) = true ∧
      ((withEp (p 0 0) x).epAt 0 3).owner = 0 ∧ x.exit = false ∧ x.busy = false ∧ ({ x with grant := some (header 8 [] 0) } : Endp).busy = true) :=
  ⟨base_runs _, by decide +kernel⟩

/-- Good handles of each kind, an untagged one, one without S; a block at the segment's end and one beyond; a tile; a commit not yet seen. -/
theorem witness_send :
    let h (ek : BitVec 2) (esz : BitVec 12) := handle ek esz true true false false
    let p (ek : BitVec 2) (esz : BitVec 12) := (paired (h ek esz) [(1, 0xFF0), (3, 16), (6, 0x1000)]).setPair 8 0 0x1000000000000008 true
    let s : State := (base (p 2 15)).setTile 0 { Tile.zero with owner := some 0, shapes := #v[0x4010, 0, 0, 0, 0, 0, 0, 0] }
    (base (p 0 7)).Runs 0 0 (p 0 7) ∧ SendForm (.sendb 1 4 3) [1, 3, 4, oddOf 4] 4 1 ∧ ((p 0 7).acquiring = false ∧ (p 0 7).pairTag 4 = true ∧ hCk (h 0 7) = 1 ∧
      hS (h 0 7) = true ∧ hEk (h 0 7) = 0 ∧ (p 0 7).pair 4 = h 0 7 ∧ hS (handle 0 7 true false false false) = false ∧ (p 0 7).awaits [1, oddOf 1, 3, 4, oddOf 4, 8, oddOf 8] = false ∧
      (p 0 7).vseen.toNat ≤ ((base (p 0 7)).coreAt 0).vheld ∧ ((base { p 0 7 with vseen := 5 }).coreAt 0).vheld < 5 ∧
      (0xFF0 : Nat) + 16 ≤ (p 1 15).segLen ∧ 16 = hEsz (h 1 15) + 1 ∧ (p 1 15).segLen < 0x1000 + 16 ∧ hEk (h 2 15) = 2 ∧ (s.tileAt 0).owner = some 0 ∧
      shapeSends ((s.tileAt 0).shape 0) = true ∧ shapeRows 0x4010 * shapeBpr 0x4010 = hEsz (h 2 15) + 1 ∧ shapeSends 0 = false ∧ s.tilePending (s.pref 0 0) = false ∧
      (p 3 15).pairTag 8 = true ∧ capG ((p 3 15).pair 8) = true ∧ hPkg (h 0 7) = s.bring.pkgid.toNat ∧ hExt (h 0 7) = false) :=
  ⟨base_runs _, .sendb 1 4 3, by decide +kernel⟩

/-- Every ending of a receiving form: closed, another's, of another kind, nothing there with the deadline at this very moment and one nanosecond on, a filled slot, a failed one, a
waiting header with its data and without. -/
theorem witness_receive :
    let p := regs [(2, 3), (1, 0xFE0), (7, 1)]
    let x := endp .empty 0 7 false
    let b := { endp .buffered 0 7 true with slots := [{ filled := true, failed := false, hid := 5 }] }
    let f := { endp .buffered 0 7 true with slots := [{ filled := true, failed := true, hid := 5 }] }
    let h := { endp .pend 0 7 false with hq := [header 8 (List.replicate 8 1) 0] }
    let block := { endp .pend 1 31 false with hq := [header 32 [] 1] }
    (base p).Runs 0 0 p ∧ ReceiveForm (.recv 1 true 2 3 7) [1, 2, 3, 7] 1 0 false true 2 3 7 ∧ ReceiveForm (.recvb 1 false 2 3 0) [1, 2, 3] 1 1 false false 2 3 0 ∧
      (p.awaits [1, oddOf 1, 2, 3, 7] = false ∧ p.acquiring = false ∧ p.blk = .none ∧ p.state = .running ∧ ((base p).epAt 0 3).st = .closed ∧
      ((withEp p { x with owner := 1 }).epAt 0 3).owner ≠ 0 ∧ ((withEp p x).epAt 0 3).ek ≠ 1 ∧ ((withEp p x).epAt 0 3).hq = [] ∧ (0 : Word) ≤ (withEp p x).time ∧
      (withEp p x).time < p.reg 7 ∧ b.headFilled = true ∧ b.hq = [] ∧ b.closing = false ∧ f.slots ≠ [] ∧ h.hq = [header 8 (List.replicate 8 1) 0] ∧
      (header 8 (List.replicate 8 1) 0).carried = true ∧ (header 32 [] 1).carried = false ∧ block.ek = 1 ∧ (p.reg 1).toNat % 16 = 0 ∧
      (p.reg 1).toNat + block.esz.toNat + 1 ≤ p.segLen) :=
  ⟨base_runs _, .recv 1 2 3 7 true, .recvb 1 2 3 0 false, by decide +kernel⟩

/-- Guards in LM bytes 0xFFE and 0xFFF: both enabled with the second ready, none enabled, none ready at and before the deadline, the second closed or another's, and a table one byte beyond the segment. -/
theorem witness_alternative :
    let p := regs [(2, 0xFFE), (3, 3), (7, 1)]
    let s (x : Endp) : State := { (base p).setEp 0 4 (endp .empty 0 7 false) with cores := (((withEp p x).setEp 0 4 (endp .empty 0 7 false)).setCore 0
      (((withEp p x).setEp 0 4 (endp .empty 0 7 false)).coreAt 0 |>.lmWrite 0xFFE [4, 3])).cores }
    let ready := { endp .pend 0 7 false with hq := [header 8 (List.replicate 8 1) 0] }
    (s ready).Runs 0 0 p ∧ (p.awaits [1, 2, 3, 7] = false ∧ p.acquiring = false ∧ (p.reg 2).toNat + 2 ≤ p.segLen ∧ p.segLen < (p.reg 2).toNat + 3 ∧
      (s ready).localHeld 0 (Span.ofLen (p.phys (p.reg 2)) 2) Span.none = false ∧ (s ready).lmRead 0 (p.phys (p.reg 2)) 2 = [4, 3] ∧ ((s ready).epAt 0 3).ready = true ∧
      ((s ready).epAt 0 4).ready = false ∧ ((s ready).epAt 0 4).owner = 0 ∧ ((s (endp .empty 0 7 false)).epAt 0 3).ready = false ∧ (0 : Word) ≤ (s ready).time ∧
      (s ready).time < p.reg 7 ∧ p.blk = .none ∧ ((s Endp.zero).epAt 0 3).st = .closed ∧ ((s { ready with owner := 1 }).epAt 0 3).owner ≠ 0 ∧ ((s { ready with owner := 1 }).epAt 0 3).st = .pend ∧
      ((s Endp.zero).epAt 0 4).st = .empty) :=
  ⟨⟨rfl, rfl, rfl⟩, by decide +kernel⟩

/-- A message to core 0 from core 1, whose sender waits in slot 1 of core 0. -/
def meets (x : Endp) (sender : Blk) (b : Body) : State :=
  let s := withEp { proc with state := .chan, blk := .recv 1 3 1 1 6 0 false } x
  { s.setProc 0 1 { proc with state := .chan, blk := sender } with net := [{ src := .core 1, dst := .core 0, body := b }] }

/-- Headers that meet a closed endpoint, one of another generation, one without access, an empty and a buffered one; a returned header at its time; a grant, its data, done, acceptance
and refusal. -/
theorem witness_channel_steps :
    let h := header 8 (List.replicate 8 1) 0
    let wait : Blk := .send 1 5 1 1 0 8
    let b := endp .buffered 0 7 true
    let r := { b with slots := [{ filled := false, failed := false, hid := 5 }] }
    let x := { endp .xfer 1 7 false with grant := some h }
    (∀ m ∈ [Body.header 3 h, .returned 1 3 h 0, .bounced 1 (.done h true) 0, .grant 1 3 h 0 false, .data 3 h (List.replicate 8 1) 0 false, .data 3 h (List.replicate 8 1) 0 true, .done h true, .accept h true,
        .refuse h .closed], deliverable (meets b wait m).net 0 = true ∧ (meets b wait m).spills 0 = false) ∧
      h.third = false ∧ (0 : Nat) ≤ (meets b wait (.returned 1 3 h 0)).cycle ∧ (meets b wait (.returned 1 3 h 0)).cycle < 1 ∧ ((base proc).epAt 0 3).st = .closed ∧ (endp .empty 0 7 false).gen = h.gen ∧ ({ endp .empty 0 7 false with gen := 1 } : Endp).gen ≠ h.gen ∧
      ({ endp .empty 0 7 false with acc := 0xFFFE } : Endp).acc.getLsbD h.part = false ∧ ((meets b wait (.done h true)).coreAt 0).storeUse < 1024 ∧
      b.slots.length < b.size ∧ ((meets b wait (.done h true)).find { g := 0, slot := 1, gen := 0 }).isSome = true ∧ x.grant = some h ∧ x.st = .xfer ∧
      ((meets b wait (.done h true)).procAt 0 x.owner).blk = .recv 1 3 1 1 6 0 false ∧ r.slots[0]? = some { filled := false, failed := false, hid := 5 } := by decide +kernel

/-- A barrier's release that a full ring sent back, at its time: its member waits, or its core's spill ring takes it. -/
theorem witness_bounced_release :
    let r : PRef := { g := 0, slot := 0, gen := 0 }
    let b : Body := .release r 1 3
    let p : Proc := { regs [(2, 1)] with ap := true, aps := 1, arrPhase := 3, state := .barrier, blk := .barrier 1 4 1 }
    let s (held : Bool) : State :=
      let x := inFlight p (.core 1) (.core 0) (.bounced 1 b 0)
      { x with parts := [(0, { x.partAt 0 with stopping := held, full := held })] }
    deliverable (s false).net 0 = true ∧ 0 ≤ (s false).cycle ∧ (s false).spills 0 = false ∧ (s false).find r = some p ∧ p.arrPhase = 3 ∧ p.state = .barrier ∧
      (s true).spills 0 = true ∧ (s true).spillRoom 0 ⟨.core 1, .core 0, b⟩ = true := by decide +kernel

/-- A third-party read of CM by process 0 with one member. -/
def third (report : Option Nat) (answered : Bool) (data : Option (List Byte)) (fault : Option Cause) : Tpr :=
  { k := 9, who := { g := 0, slot := 0, gen := 0 }, part := 0, launch := { fn := 0, lid := 0 }, dye := 0, pc := 1, seq := 0, report := report, rgen := 0, rseq := 6, src := cmAddr 0
    far := none, len := 8, mode := .current 0, behind := [], behindEq := []
    members := [{ handle := handle 1 7 true true false true, sent := answered, answered := answered, refused := none }], shared := false, parts := [], asked := [], data := data
    fault := fault, reported := false }

/-- A read before its source is read, with its data, failed, and answered. -/
theorem witness_third_party_steps :
    let s (t : Tpr) : State := { base proc with tprs := [t] }
    let r := third none false none none
    (∀ t ∈ [r, third none false (some [1]) none, third none false none (some .poison), third (some 2) true (some [1]) none, third (some 2) false (some [1]) none],
      ((s t).tprs.find? fun x => x.k == 9) = some t) ∧ 0 < r.count ∧ r.parts = [] ∧ r.asked = [] ∧ r.behind = [] ∧ r.behindEq = [] ∧
      (s r).sourceBlocked r (.cm 0 0) (r.part_ 0).2 = false ∧ (s r).locBad (.cm 0 0) (r.part_ 0).2 = false ∧ (s r).find r.who = some proc ∧
      (∀ m ∈ r.members, hPkg m.handle = (s r).bring.pkgid.toNat ∧ hExt m.handle = false ∧ m.sent = false) ∧
      (∀ m ∈ (third (some 2) true (some [1]) none).members, m.answered = true) := by decide +kernel

/-- Sources of a third-party read that wait for nothing: in CM, in HBM at its current version and at a snapshot (live, revoked), at the host (with its stream and without), and without a translation. -/
theorem witness_third_party_source :
    let r (a : Nat) (m : ReadMode) : Tpr := { third none false none none with src := BitVec.ofNat 64 a, mode := m }
    let s (t : Tpr) : State := { base proc with tprs := [t], hbm := [(0, { Line.zero with cur := { Ver.zero with ts := 3 } })] }
    let at_ (a : Nat) (m : ReadMode) : Option Loc := ((s (r a m)).translate 0 0 0 ((r a m).part_ 0).1).1.toOption
    ((base proc).translate 0 0 0 ((third none false none none).part_ 0).1).1 = .ok (.cm 0 0) ∧
      (at_ 64 (.current 0) = some (.hbm 0 64) ∧ at_ (2 ^ 30) (.current 0) = some (.host 0) ∧ at_ (2 ^ 40) (.current 0) = none ∧ (third none false none none).far = none ∧
      (∀ a ∈ [64, 2 ^ 30, 2 ^ 40], (s (r a (.current 0))).walkWaits 0 0 a = false) ∧
      (∀ l ∈ [Loc.cm 0 0, .hbm 0 64, .host 0], (s (r 64 (.current 0))).mayAccept l 0 = true ∧ (s (r 64 (.current 0))).sourceBlocked (r 64 (.current 0)) l 8 = false ∧ l.isFar = false) ∧
      0 ≤ ((s (r 64 (.current 0))).serverAt 0).v ∧ ((s (r 64 (.current 0))).lineAt 0).prep = none ∧ ((s (r 64 (.current 0))).lineAt 0).snapshot 2 = none ∧
      (((s (r 64 (.snapshot 3))).lineAt 0).snapshot 3).isSome = true ∧ (s (r 64 (.snapshot 3))).tss.revoked 3 = false ∧ (s (r 64 (.current 0))).hostRefused 0 = false) :=
  ⟨rfl, by decide +kernel⟩

/-! Witnesses: processes, barriers and the scheduler. -/

/-- The world of process p with other processes ready in slots 1 and 2, slot 1 first, in queue q. -/
def ready2 (p : Proc) (q : BitVec 2) : State :=
  let r : Proc := { proc with state := .ready, pri := q }
  (base p).setCore 0 (((((base p).coreAt 0).setProc 1 r).setProc 2 r).setRq q [1, 2])

/-- SPAWN: priority above the ceiling, entries at and above 2^52, children of the whole segment, of its last line, and one line beyond; a full core. STOP with its exit endpoint, YIELD and SETPRI
with and without another process, TWAIT at and before its time. -/
theorem witness_process :
    let p : Proc := { regs [(2, 0xFFFFFFFFFFFFF), (3, 0x4000000FC0), (4, 1), (5, 3)] with pceil := 1, pri := 1, xv := true, xidx := 7, vseen := 4 }
    let full : State := { base p with cores := [(0, { (base p).coreAt 0 with procs := (List.range 64).map fun k => (k, p) })] }
    let st := (base p).setEp 0 7 { endp .buffered 0 7 true with exit := true, owner := 1, child := some 0 }
    (base p).Runs 0 0 p ∧ (((base p).coreAt 0).holdsProc 0 = true ∧ p.awaits [1, 2, 3] = false ∧ p.acquiring = false ∧ (0 : BitVec 2) < p.pceil ∧ (p.reg 2).toNat < 2 ^ 52 ∧
      (p.reg 3).toNat % 2 ^ 32 % 64 = 0 ∧ (p.reg 3).toNat / 2 ^ 32 = 64 ∧ (p.reg 3).toNat % 2 ^ 32 + 64 ≤ p.segLen ∧ p.segLen < (p.reg 3).toNat % 2 ^ 32 + 128 ∧
      ((List.range 64).all fun j => (full.coreAt 0).holdsProc j) = true ∧ ((base p).coreAt 0).holdsProc 1 = false ∧ ((base p).epAt 0 0).st = .closed ∧
      p.vseen.toNat ≤ (st.coreAt 0).vheld ∧ p.outs = [] ∧ p.stores = [] ∧ st.engineBusy (st.pref 0 0) = false ∧ ((st.coreAt 0).owned 0).isEmpty = true ∧
      (st.epAt 0 7).exit = true ∧ (st.epAt 0 7).child = some 0 ∧ ((ready2 p 1).coreAt 0).rq p.pri = 1 :: [2] ∧ ((ready2 p 1).procAt 0 1).pkh = false ∧
      ((ready2 p 1).coreAt 0).rq 0 = [] ∧ (p.reg 4).setWidth 2 = (1 : BitVec 2) ∧ 3 < (4 : Word).toNat ∧ ((ready2 p 2).coreAt 0).rq 2 = [1, 2] ∧ (2 : BitVec 2) < (p.reg 5).setWidth 2 ∧
      (0 : Word) ≤ (base p).time ∧ (base p).time < p.reg 4) :=
  ⟨base_runs _, by decide +kernel⟩

/-- A running launch with one barrier over process 0 alone. -/
def launched (p : Proc) (arrived pending : List PRef) : State :=
  let b : Barrier := { sc := 1, unit := 0, phase := 3, members := [{ g := 0, slot := 0, gen := 0 }], arrived := arrived, pending := pending }
  { base p with launches := [{ ref := p.launch, net := 1, desc := { tmpls := [], chans := [], ends := [], homes := [], relocs := [] }, procs := [{ g := 0, slot := 0, gen := 0 }]
                               cores := [0], homes := [], bars := [b], sweep := none, agree := 0, last := (0, 0), tstart := 0, energy0 := 0, dyes := [], nproc := 1
                               wasHeld := false, theld := 0, aborting := false }] }

/-- A process of launch 1 at its barrier of scope 1. -/
def member : Proc := { regs [(2, 1)] with lid := 1, vseen := 4 }

/-- The same in a partition whose hold has stopped its cores. -/
def holding (p : Proc) (arrived : List PRef) : State :=
  let s := launched p arrived []
  { s with parts := [(0, { s.partAt 0 with stopping := true, full := true })] }

/-- An arrival, a wait before and after the release, at its deadline, without an arrival, in a scope that is not the process's; an arrival on its way; the last one. -/
theorem witness_barrier :
    let r : PRef := { g := 0, slot := 0, gen := 0 }
    let arrived : Proc := { member with ap := true, aps := 1, arrPhase := 3 }
    let past : Proc := { arrived with arrPhase := 2 }
    let blocked : Proc := { arrived with state := .barrier, blk := .barrier 1 4 1 }
    (launched member [] []).Runs 0 0 member ∧ (member.acquiring = false ∧ member.awaits [1, 2] = false ∧ member.bars.getLsbD 1 = true ∧ member.ap = false ∧
      member.vseen.toNat ≤ ((launched member [] []).coreAt 0).vheld ∧ ({ member with bars := 1 } : Proc).bars.getLsbD 1 = false ∧
      ((launched member [] []).coreAt 0).vheld < ({ member with vseen := 5 } : Proc).vseen.toNat ∧ arrived.ap = true ∧ arrived.aps = 1 ∧ arrived.aps ≠ 2 ∧
      (launched arrived [] []).barReleased 0 0 arrived = false ∧ (launched past [] []).barReleased 0 0 past = true ∧
      (0 : Word) ≤ (launched arrived [] []).time ∧ (launched arrived [] []).time < member.reg 2 ∧
      ((launched arrived [] [r]).launches.find? fun z => z.ref == arrived.launch).isSome = true ∧ ((launched blocked [r] []).partAt 0).stopping = false ∧
      (launched blocked [r] []).find r = some blocked ∧ blocked.state = .barrier ∧ blocked.arrPhase = 3 ∧ (launched blocked [r] []).spills 0 = false ∧
      (holding blocked [r]).spills 0 = true ∧ (holding blocked [r]).spillRoom 0 { src := .core 0, dst := .core 0, body := .release r 1 3 } = true) :=
  ⟨⟨rfl, rfl, rfl⟩, by decide +kernel⟩

/-- The last arrival at a barrier of two members, both of which wait. -/
theorem witness_barrier_release :
    let r (k : Nat) : PRef := { g := 0, slot := k, gen := 0 }
    let blocked : Proc := { member with ap := true, aps := 1, arrPhase := 3, state := .barrier, blk := .barrier 1 4 1 }
    let x := (launched blocked [] []).setProc 0 2 blocked
    let s : State := { x with launches := x.launches.map fun l => { l with
      bars := [{ sc := 1, unit := 0, phase := 3, members := [r 0, r 2], arrived := [r 0, r 2], pending := [] }] } }
    ∀ k ∈ [0, 2], s.find (r k) = some blocked ∧ s.spills (r k).g = false ∧ blocked.blk = .barrier 1 4 1 ∧ blocked.arrPhase = 3 ∧ blocked.state = .barrier := by decide +kernel

/-- The scheduler's steps: a slice one cycle short and at its end, a prefetch one cycle early and due, deadlines on an idle core and on one that runs another process, a deferred fault. -/
theorem witness_scheduler :
    let p : Proc := { proc with pri := 1, faults := [{ seq := 4, cause := .rights, fpc := 1, info := 9 }, { seq := 6, cause := .poison, fpc := 2, info := 8 }] }
    let c : Proc := { proc with pri := 1 }
    let s (n : Nat) (q : BitVec 2) : State := (ready2 c q).setCore 0 { (ready2 c q).coreAt 0 with sliceCnt := n, fb := { FetchBuf.empty with prefetch := some (64, 3) } }
    let one (q : Proc) : State := { world with cycle := 9 }.setCore 0 { Core.zero with procs := [(5, q)] }
    let withLate (q : Proc) : State := { base proc with cycle := 9 }.setCore 0 { (base proc).coreAt 0 with procs := [(0, proc), (5, q)] }
    let late : Proc := { proc with state := .timer, blk := .timer 1, deadline := 4 }
    ((s 4095 1).coreAt 0).run = some 0 ∧ ((s 4095 1).coreAt 0).sliceCnt < 4096 ∧ 4096 ≤ ((s 4096 1).coreAt 0).sliceCnt ∧ ((s 4096 1).coreAt 0).rq 1 = [1, 2] ∧
      ((s 4096 1).procAt 0 1).pkh = false ∧ (s 4096 1).actedOn 0 = false ∧ (ready2 p 0).actedOn 0 = true ∧ c.pri ≠ 0 ∧
      ((s 4096 0).procAt 0 1).pkh = false ∧ ((s 0 0).coreAt 0).rq0 = 1 :: [2] ∧ ((s 0 1).coreAt 0).rq0 = [] ∧ (s 0 0).cycle < 3 ∧ 3 ≤ ({ s 0 0 with cycle := 3 } : State).cycle ∧
      ((one late).coreAt 0).run = none ∧ ((withLate late).coreAt 0).run = some 0 ∧ (withLate late).procAt 0 5 = late ∧ (((withLate late).coreAt 0).procs.map (·.1)).Pairwise (· < ·) ∧
      (((one late).coreAt 0).procs.map (·.1)).Pairwise (· < ·) ∧ (withLate late).time = 4 ∧ late.deadline ≠ Config.never ∧ proc.deadline = Config.never ∧ late.pkh = false ∧ late.pkt = false ∧
      ({ late with state := .chan, blk := .alt 1 [3] } : Proc).blk = .alt 1 [3] ∧ ((withLate late).epAt 0 3).grant = none ∧
      (one late).time = 4 ∧ late.deadline ≤ (one late).time ∧ (one late).time < ({ late with deadline := 5 } : Proc).deadline ∧
      ({ late with state := .chan, blk := .recv 1 3 0 1 2 0 false } : Proc).blk = .recv 1 3 0 1 2 0 false ∧
      ({ late with state := .barrier, blk := .barrier 1 4 1 } : Proc).state = .barrier ∧ p.faults ≠ [] ∧ proc.faults = [] ∧ p.committed = false ∧ p.blk = .none ∧
      ({ p with wait := .txc 2 } : Proc).committed = true := by decide +kernel

/-! Witnesses: vector instructions. -/

/-- A process with three streams of bytes 0x00, 0x40, 0x80 of its segment and 64 elements of type I8, or as many of another type. -/
def streams (n : BitVec 17) (ty : BitVec 8) : Proc := { regs [(1, 0), (2, 0x40), (3, 0x80)] with vl := n, vty := ty }

/-- Operands in registers 1, 2 and 3. -/
def v123 : VOps := { vops with a := 1, b := 2, c := 3 }

/-- The world of process p with bytes 0 to 191 of LM given. -/
def withLm (p : Proc) (bytes : List Byte) : State := (base p).setCore 0 (((base p).coreAt 0).lmWrite 0 bytes)

/-- A running process with no operation outstanding leaves its core's LM free. -/
theorem lm_free {s : State} {p : Proc} (ht : s.tprs = []) (hp : (s.coreAt 0).procs = [(0, p)]) (hs : s.scoreboard 0 = []) (h : p.stores = []) (ho : p.outs = []) :
    s.LmFree 0 := ⟨hs, fun _ _ _ => by simp [State.windowHeld, ht, hp, h, ho]⟩

/-- A full group, two groups, no element; integer-only operations on a float type and float functions on an integer type; a reserved type; a misaligned stream and one that ends one byte beyond. -/
theorem witness_vector :
    let p := streams 64 0
    let v (c : VCode) (o : VOps) (p : Proc) : Vec := { c := c, o := o, g := 0, p := p, id := 0, elem := none }
    let s := base p
    s.Runs 0 0 p ∧ s.LmFree 0 ∧ (vecOf (.vadd v123)) = some (.add, v123) ∧ (p.acquiring = false ∧ p.awaits (v .add v123 p).names = false ∧ ({ p with outs := [waiting false] } : Proc).awaits (v .add v123 p).names = true ∧
      (v .add v123 p).check = none ∧ (v .add v123 p).accepts = true ∧ (v .add v123 p).n = 64 ∧ (v .add v123 p).total = 1 ∧ (v .add v123 (streams 65 0)).total = 2 ∧
      8 ≤ (v .shl v123 (streams 1 8)).et ∧ (v .exp2 v123 (streams 1 7)).et < 8 ∧ 12 < (v .add v123 (streams 1 13)).et ∧
      ((v .add v123 ((streams 8 3).setReg 2 0x41)).streams.map VStream.aligned) = [true, false, true] ∧
      ((v .add v123 ((streams 8 3).setReg 2 0xFC8)).streams.map fun x => x.inside 8 0x1000) = [true, false, true] ∧
      ((v .add v123 ((streams 8 3).setReg 2 0xFC0)).streams.map fun x => x.inside 8 0x1000) = [true, true, true] ∧
      s.scoreboard 0 = [] ∧ (s.coreAt 0).lmBad = [] ∧ s.upsets = [] ∧ p.vrpc ≠ p.pc ∧ s.tilePending (s.pref 0 0) = false ∧ (v .add { v123 with inc := 4 } p).check = none ∧
      (∃ x ∈ ({ p with outs := [{ waiting false with flags := true }] } : Proc).outs, x.flags = true)) :=
  ⟨base_runs _, lm_free (p := streams 64 0) rfl rfl rfl rfl rfl, rfl, by decide +kernel⟩

/-- One group of 64 bytes whose second stream has a word with a double-bit error. -/
theorem witness_vector_poison :
    let p := streams 64 0
    let s := (base p).setCore 0 { (base p).coreAt 0 with lmBad := [0x50 / 8] }
    let v : Vec := { c := .add, o := v123, g := 0, p := p, id := s.nextId, elem := none }
    s.Runs 0 0 p ∧ s.LmFree 0 ∧ (vecOf (.vadd v123)) = some (.add, v123) ∧
      (p.acquiring = false ∧ p.awaits v.names = false ∧ v.check = none ∧ s.upsets = [] ∧ p.vrpc ≠ p.pc ∧ v.total = 1 ∧ v.poisoned s (v.run s 0) = some 0x50) :=
  ⟨⟨rfl, rfl, rfl⟩, lm_free (p := streams 64 0) rfl rfl rfl rfl rfl, rfl, by decide +kernel⟩

/-- The place of element j of the stream that register r names. -/
def place (p : Proc) (o : VOps) (r : Reg) (bit w j : Nat) : Nat :=
  ((p.sb.toNat : Int) + (p.reg r).toNat + (if o.str.getLsbD bit then (p.reg o.e).toInt else (w : Int)) * j).toNat

/-- Two ranges of bytes with none in common. -/
abbrev apart (q w q' w' : Nat) : Prop := q + w ≤ q' ∨ q' + w' ≤ q

/-- A vector instruction at its start passes its checks and waits for no register. -/
abbrev Ready (p : Proc) (c : VCode) (o : VOps) : Prop :=
  let v : Vec := { c := c, o := o, g := 0, p := p, id := world.nextId, elem := none }
  v.check = none ∧ v.mx = false ∧ p.awaits v.names = false

/-- The places written, and those read of streams b and c, as VectorResults asks. -/
abbrev PlacesOk (p : Proc) (o : VOps) (n size dsize : Nat) (two : Bool) : Prop :=
  (∀ j < n, ∀ l < n, j ≠ l → apart (place p o o.a 2 dsize j) dsize (place p o o.a 2 dsize l) dsize) ∧
    ∀ j < n, ∀ l < n, j / (64 / max size dsize) ≠ l / (64 / max size dsize) →
      apart (place p o o.a 2 dsize j) dsize (place p o o.b 1 size l) size ∧ (two = true → apart (place p o o.a 2 dsize j) dsize (place p o o.c 0 size l) size)

/-- A process with 20 elements of type F32, eight bytes apart in all three streams: two groups. -/
def strided (ty : BitVec 8) : Proc := { regs [(1, 0), (2, 0x100), (3, 0x200), (4, 8)] with vl := 20, vty := ty }

/-- Operands in registers 1, 2 and 3, each with the stride of register 4. -/
def vstr : VOps := { v123 with e := 4, str := 7 }

/-- Every instruction of the table on a full group of bytes and on two strided groups of F32; a scalar operand; 64-bit elements that end with the segment; VCVT of 20 bytes to F32. -/
theorem witness_vector_results :
    let p := streams 64 0
    let q := (streams 8 7).setReg 2 0xFC0
    let cvt := (streams 20 0x80).setReg 2 0x100
    let s := withLm p ((List.range 192).map fun i => BitVec.ofNat 8 i)
    s.Runs 0 0 p ∧ s.LmFree 0 ∧ (p.acquiring = false ∧ s.memOk = true ∧ p.vrpc ≠ p.pc ∧ (s.coreAt 0).lmBad = [] ∧ s.upsets = [] ∧ s.nextId = world.nextId) ∧
      ((Ty.ofCode (p.vty.toNat % 16) = some (.int 8 true) ∧ Ty.ofCode (q.vty.toNat % 16) = some (.int 64 false) ∧ Ty.ofCode ((strided 8).vty.toNat % 16) = some (.flt fp32)) ∧
        Ty.ofCode (cvt.vty.toNat % 16) = some (.int 8 true) ∧ Ty.ofCode (cvt.vty.toNat / 16) = some (.flt fp32)) ∧
      ((∀ c ∈ ([.add, .sub, .mul, .div, .fma, .min, .max, .abs, .neg, .cmp, .sel, .and, .or, .xor, .not, .shl, .shr, .sar, .mov, .sadd, .ssub, .mulh] : List VCode),
          Ready p c v123 ∧ Ready q c v123) ∧
        (∀ c ∈ ([.add, .sub, .mul, .div, .fma, .min, .max, .abs, .neg, .cmp, .exp2, .log2, .rcp, .rsq, .tanh, .sqrt] : List VCode), Ready (strided 8) c vstr) ∧
        Ready p .add { v123 with x10 := 0x200 } ∧ Ready cvt .cvt { v123 with c := 0 }) ∧
      (PlacesOk p v123 64 1 1 true ∧ PlacesOk q v123 8 8 8 true ∧ PlacesOk (strided 8) vstr 20 4 4 true ∧ PlacesOk cvt { v123 with c := 0 } 20 1 4 false ∧
        PlacesOk p { v123 with x10 := 0x200 } 64 1 1 false) :=
  ⟨⟨rfl, rfl, rfl⟩, lm_free (p := streams 64 0) rfl rfl rfl rfl rfl, by decide +kernel, by decide +kernel, by decide +kernel, by and_intros <;> decide +kernel⟩

/-- VRED of one group in place and of 20 strided elements into a stream of its own, VSCAN, VBCAST of both forms, VPERM and VRAND of two groups. -/
theorem witness_vector_moves :
    let p := strided 8
    let s := withLm p ((List.range 192).map fun i => BitVec.ofNat 8 i)
    s.Runs 0 0 p ∧ s.LmFree 0 ∧ (p.acquiring = false ∧ s.memOk = true ∧ p.vrpc ≠ p.pc ∧ (s.coreAt 0).lmBad = [] ∧ s.upsets = []) ∧
      (∀ op : Fin 3, Ready p .red { v123 with c := 0, x10 := op, inc := 0, e := 4, str := 2 } ∧ Ready (streams 8 3) .red { v123 with c := 0, x10 := op } ∧ Ready p .scan { vstr with c := 0, x10 := op, str := 6 }) ∧
      (∀ op : Fin 6, Ready (streams 8 3) .red { v123 with c := 0, x10 := op }) ∧
      (∀ j < 2, ∀ l < 20, apart (place p { v123 with e := 4, str := 2 } 1 2 4 j) 4 (place p { v123 with e := 4, str := 2 } 2 1 4 l) 4) ∧
      (Ready p .bcast { vops with a := 1, c := 3, m := 0, e := 4, str := 4, x10 := 0x200 } ∧ Ready p .bcast { vops with a := 1, b := 2, m := 1 } ∧
        Ready p .perm { vops with a := 1, b := 2, c := 3, x10 := 0x200 } ∧ Ready p .rand { vops with a := 1, b := 4, c := 5, x10 := 0x200 }) ∧
      (PlacesOk p vstr 20 4 4 false ∧ PlacesOk p v123 20 4 4 false) :=
  ⟨⟨rfl, rfl, rfl⟩, lm_free (p := strided 8) rfl rfl rfl rfl rfl, by decide +kernel, by decide +kernel, by decide +kernel, by decide +kernel, by decide +kernel, by and_intros <;> decide +kernel⟩

/-- Gathers and scatters of four 32-bit elements: indices that reach the segment's last word, one word beyond at the second element, and all different. -/
theorem witness_vector_gather :
    let idx (l : List Nat) : List Byte := List.replicate 0x80 0 ++ l.flatMap fun n => natBytes 4 n
    let p := streams 4 6
    let s (l : List Nat) := withLm p (idx l)
    let index (l : List Nat) (j : Nat) : Nat := bytesNat ((s l).lmRead 0 (0x80 + 4 * j) 4)
    let past (l : List Nat) (j : Nat) : Prop := p.segLen < (p.reg 2).toNat + index l j * 4 + 4
    ((s [3, 2, 1, 0x3EF]).memOk = true ∧ Ready p .gather v123 ∧ Ready p .scatter { v123 with a := 2, b := 1 }) ∧
      (Ty.ofCode (p.vty.toNat % 16) = some (.int 32 false) ∧ (∀ j < 4, place p v123 3 0 4 j = 0x80 + 4 * j) ∧ (s []).upsets = []) ∧ (∀ j < 4, ¬past [3, 2, 1, 0x3EF] j) ∧
      past [3, 0x3F0, 0, 0] 1 ∧ (∀ l < 1, ¬past [3, 0x3F0, 0, 0] l) ∧ PlacesOk p v123 4 4 4 true ∧
      (∀ j < 4, ∀ l < 4, j / 16 ≠ l / 16 → apart (0x40 + index [3, 2, 1, 0x3EF] j * 4) 4 (place p v123 3 0 4 l) 4) := by
  and_intros <;> decide +kernel

/-- VCVT of 64 elements of F32 to two blocks of MXFP8, and of two such blocks to F32. -/
theorem witness_vector_blocks :
    let o : VOps := { v123 with c := 3 }
    let into : Proc := { regs [(1, 0), (2, 0x100), (3, 0x800)] with vl := 64, vty := 0xD8 }
    let out : Proc := { regs [(1, 0x100), (2, 0), (3, 0x800)] with vl := 64, vty := 0x8D }
    (((Vec.check { c := .cvt, o := o, g := 0, p := into, id := 0, elem := none } = none ∧ into.awaits (Vec.names { c := .cvt, o := o, g := 0, p := into, id := 0, elem := none }) = false) ∧
      Vec.check { c := .cvt, o := o, g := 0, p := out, id := 0, elem := none } = none ∧ out.awaits (Vec.names { c := .cvt, o := o, g := 0, p := out, id := 0, elem := none }) = false) ∧
      (mxFmt (into.vty.toNat / 16) = some e4m3 ∧ Ty.ofCode (into.vty.toNat % 16) = some (.flt fp32) ∧ mxFmt (out.vty.toNat % 16) = some e4m3 ∧
        Ty.ofCode (out.vty.toNat / 16) = some (.flt fp32))) ∧
      ((∀ j < 2, ∀ l < 2, apart (into.sb.toNat + 32 * j) 32 (0x800 + l) 1) ∧
        (∀ j < 2, ∀ l < 64, j ≠ l / 32 → apart (into.sb.toNat + 32 * j) 32 (place into o 2 1 4 l) 4 ∧ apart (0x800 + j) 1 (place into o 2 1 4 l) 4)) ∧
      ((∀ j < 64, ∀ l < 64, j ≠ l → apart (place out o 1 2 4 j) 4 (place out o 1 2 4 l) 4) ∧
        ∀ j < 64, ∀ l < 2, j / 32 ≠ l → apart (place out o 1 2 4 j) 4 (out.sb.toNat + 32 * l) 32 ∧ apart (place out o 1 2 4 j) 4 (0x800 + l) 1) := by
  and_intros <;> decide +kernel

/-- A VADD of two groups at the PC of the running process, its line entered. -/
theorem witness_element_group :
    let p := streams 65 0
    let line := oneHeadLine 0x9C44 0x23000000
    let s : State := (base p).setCore 0 { (base p).coreAt 0 with fb := { FetchBuf.empty with cur := some (0, line), entered := true } }
    let v : Vec := { c := .add, o := v123, g := 0, p := p, id := s.nextId, elem := none }
    s.Runs 0 0 p ∧ s.LmFree 0 ∧ (s.actedOn 0 = false ∧ (s.coreAt 0).sliceCnt < 4096 ∧ p.pri = 0 ∧ p.acquiring = false ∧
      p.awaits v.names = false ∧ (s.coreAt 0).fb.entered = true ∧ (s.fetch 0 p).toOption = some (.vadd v123) ∧ 1 < v.total ∧ v.check = none ∧ s.scoreboard 0 = [] ∧ (s.coreAt 0).lmBad = [] ∧ s.upsets = [] ∧ p.vrpc ≠ p.pc) :=
  ⟨⟨rfl, rfl, rfl⟩, lm_free (p := streams 65 0) rfl rfl rfl rfl rfl, by decide +kernel⟩

/-! Witnesses: the tile unit and the copy engine. -/

/-- A shape word of an element code, rows and columns. -/
def shape (ec rows cols : Nat) : Word := BitVec.ofNat 64 (ec + rows * 16 + cols * 1024)

/-- The world of process p with shapes 0 to 3, an owner of the tile unit, and its commands. -/
def tiled (p : Proc) (owner : Option Nat) (w : List Word) (queue : List TEntry) : State :=
  (base p).setTile 0 { Tile.zero with owner := owner, shapes := ((w ++ List.replicate 8 0).take 8).toArray.toVector.cast (by simp), queue := queue }

/-- A command of process 0. -/
def command (c : TCmd) : TEntry := { seq := 0, who := { g := 0, slot := 0, gen := 0 }, dye := 0, sb := 0, cmd := c }

/-- The unit free, owned by this process and by another; shapes that are valid, of 17 rows, for TMMA.I8, and not for it; a full queue; TTRAN, TCVT; loads and stores whose last byte is the segment's. -/
theorem witness_tile :
    let p := regs [(1, shape 0 16 48), (2, 0x100), (3, 48), (4, 0x101), (5, shape 0 17 1), (6, 0xD00)]
    let mma := [shape 0 16 48, shape 0 12 48, shape 2 16 12, shape 0 16 16]
    let s := tiled p (some 0) mma []
    let full := tiled p (some 0) mma (List.replicate 8 (command (.zeroC 0)))
    s.Runs 0 0 p ∧ ((s.tileAt 0).owner = some 0 ∧ ((tiled p none [] []).tileAt 0).owner = none ∧ ((tiled p (some 1) [] []).tileAt 0).owner = some 1 ∧ p.awaits [1, 2, 3] = false ∧
      shapeValid (p.reg 1) = true ∧ shapeValid (p.reg 5) = false ∧ s.sbFull 0 = false ∧ (s.tileAt 0).queue.length < 8 ∧ 8 ≤ (full.tileAt 0).queue.length ∧
      shapeEc (mma[0]!) = 0 ∧ shapeEc (mma[1]!) = 0 ∧ shapeRows (mma[0]!) = 16 ∧ shapeRows (mma[1]!) = 12 ∧ shapeCols (mma[0]!) = shapeCols (mma[1]!) ∧ shapeRows (shape 0 16 48) ≠ 12 ∧
      16 < shapeCols (mma[0]!) ∧ shapeCols (mma[3]!) ≤ 16 ∧ shapeRows (mma[3]!) * (codeBits 0 / 8) ≤ 192 ∧ shapeRows (mma[3]!) ≠ 0 ∧ isMx 0 = false ∧ isMx 13 = true ∧
      shapeRows (mma[2]!) = 16 ∧ shapeCols (mma[2]!) = 12 ∧ isMx (shapeEc (mma[2]!)) = false ∧ p.awaits [3, oddOf 3] = false ∧ p.awaits [2, 3] = false ∧
      (p.reg 4 + 0).toNat % 16 ≠ 0 ∧ (p.reg 6).toNat % 16 = 0 ∧ (p.reg 3).toNat % 16 = 0 ∧
      (∀ r < 16, (p.reg 6 + p.reg 3 * BitVec.ofNat 64 r).toNat + shapeBpr (mma[0]!) ≤ p.segLen) ∧ (p.reg 6 + p.reg 3 * 15).toNat + 48 = p.segLen) :=
  ⟨⟨rfl, rfl, rfl⟩, by decide +kernel⟩

/-- Commands at the head of the queue of an idle and of a busy unit, one held by an earlier command's writes. -/
theorem witness_tile_steps :
    let s (c : TCmd) (busy : Bool) : State :=
      let x := tiled proc (some 0) [] [command c]
      x.setTile 0 { x.tileAt 0 with busy := busy }
    (((s (.zeroC 1) true).tileAt 0).queue = [command (.zeroC 1)] ∧ (s (.zeroC 1) true).memOk = true ∧ ((s (.zeroC 1) false).tileAt 0).busy = false ∧
      (s (.zeroC 1) false).tileHeld 0 (command (.zeroC 1)) = false ∧ ((s (.zeroT 7) true).tileAt 0).busy = true) ∧
      (s (.tld 0 (shape 0 1 1) 0 0 0 false) true).memOk = true ∧ shapeBpr (shape 0 1 1) ≤ 192 ∧ (0xD00 : Nat) + 768 ≤ 2 ^ 52 ∧ shapeRows (shape 0 1 192) = 1 := by decide +kernel

/-- Staging fields of a row of n bytes. -/
def fields (src dst : Word) (n : Word) : Vector Word 13 := #v[src, dst, n, 1, 0, 0, 0, 0, 0, 0, 0, 0, 0]

/-- A ring object of two slots of 64 bytes at the segment's start, with its positions. -/
def ringBytes (ip wp rp : Nat) : List Byte :=
  natBytes 8 0x800 ++ natBytes 4 64 ++ natBytes 2 2 ++ natBytes 2 0 ++ natBytes 8 ip ++ natBytes 8 wp ++ natBytes 8 rp ++ List.replicate 24 0

/-- CPGO with sound fields, a range without a right, no field set, and a full request ring; statuses known, too old and to come; rings empty, waiting and with a slot complete; scrubs of 8192
bytes, of none, of one line too many, misaligned, and without a right. -/
theorem witness_copy :
    let p : Proc := { regs [(1, 20), (2, 0), (3, 8192), (4, 8193), (5, 0x40), (6, 8320), (7, 64), (8, 0x4000000000000)] with cpn := 20, copies := [(20, 1)], staging := fields 0 0x1000 128 }
    let s := base p
    let y := s.newCopy 0 0 p [] 0 (stg p.staging 1).toNat
    let full : State := s.setCluster 0 { s.clusterAt 0 with journal := List.replicate 16 { y with seq := 0 } }
    let ring (ip wp rp : Nat) := withLm { p with sl := 0x1000 } (ringBytes ip wp rp)
    s.Runs 0 0 p ∧ (ring 2 1 0).LmFree 0 ∧ (p.acquiring = false ∧ p.wait = .none ∧ (∀ i < 64, s.walkWaits p.part 0 ((p.reg 2).toNat + 128 * i) = false) ∧
      p.awaits [1, oddOf 1, 2, 3] = false ∧ cpFieldsOk p.staging = true ∧ cpFieldsOk proc.staging = false ∧ cpKey p.staging = 0 ∧ cpRing p.staging = false ∧
      cpWsid p.staging = 0 ∧ stg (fields 0 0x1000 0) 2 = 0 ∧ s.copyRanges p p.staging none (stg p.staging 1) = none ∧ s.copyRanges p (fields 0x4000000000000 0 128) none 0 = some (.rights, 0x4000000000000) ∧
      s.copyFull 0 (s.pref 0 0) y = false ∧ full.copyFull 0 (s.pref 0 0) y = true ∧ (p.copies.find? fun z => z.1 == (p.reg 1).toNat) = some (20, 1) ∧ 4 + 16 ≤ p.cpn.toNat ∧
      p.cpn.toNat < 5 + 16 ∧ (∀ z ∈ p.copies, z.1 ≠ 5) ∧ s.ringAt 0 p (p.reg 5) = .bad .bounds true ∧ (ring 1 1 1).ringAt 0 p 0 = .ok { base := 0x800, ssz := 64, ns := 2, ip := 1, wp := 1, rp := 1 } ∧
      (ring 2 1 1).ringAt 0 p 0 = .ok { base := 0x800, ssz := 64, ns := 2, ip := 2, wp := 1, rp := 1 } ∧
      (ring 2 1 0).ringAt 0 p 0 = .ok { base := 0x800, ssz := 64, ns := 2, ip := 2, wp := 1, rp := 0 } ∧ (p.reg 7).toNat % 128 ≠ 0 ∧
      (p.reg 2).toNat % 128 = 0 ∧ (p.reg 3).toNat % 128 = 0 ∧ (p.reg 3).toNat = 8192 ∧ 8192 < (p.reg 4).toNat ∧ s.rangeCheck p.part rightW (p.reg 2) 8192 = none ∧
      s.rangeCheck p.part rightW (p.reg 8) 128 = some .rights ∧ p.outs.length < 16) :=
  ⟨base_runs _, lm_free (p := { regs [(1, 20), (2, 0), (3, 8192), (4, 8193), (5, 0x40), (6, 8320), (7, 64), (8, 0x4000000000000)] with cpn := 20, copies := [(20, 1)], staging := fields 0 0x1000 128, sl := 0x1000 })
    rfl rfl rfl rfl rfl, by decide +kernel⟩

/-- Staging fields with some of them replaced. -/
def with_ (l : List (Nat × Word)) : Vector Word 13 := l.foldl (fun x e => x.setIfInBounds e.1 e.2) (fields 0 0x1000 128)

/-- The rules of the staging fields, as CopyResults writes them. -/
abbrev FieldsOk (x : Vector Word 13) : Prop :=
  let fd (n : Nat) : Nat := (stg x n).toNat
  let sec := fd 6 % 16
  let dec := fd 6 / 16 % 16
  let en : Prop := fd 6 / 4096 % 2 = 1
  (1 ≤ fd 2 ∧ fd 2 < 2 ^ 32 ∧ 1 ≤ fd 3 ∧ fd 3 ≤ 65536) ∧ fd 6 < 2 ^ 13 ∧ (¬en → fd 6 = 0) ∧ fd 6 / 256 % 8 ≤ 3 ∧
    (en → ¬(13 ≤ sec ∧ 13 ≤ dec) ∧ fd 2 * 8 % codeBits sec = 0 ∧ (13 ≤ sec ∨ 13 ≤ dec → fd 2 * 8 / codeBits sec % 32 = 0)) ∧ fd 8 ≤ 4095 ∧ fd 9 < 64 ∧
    (fd 11 / 2 ^ 52 = 0 ∧ fd 11 / 2 % 32 = 0 ∧ fd 12 / 2 ^ 52 = 0 ∧ fd 12 / 2 % 4 = 0)

/-- CPGO: sound fields of every kind and none; a key that is held, that is not, a descriptor misaligned, beyond the segment, or not zero at its end; a sound ring, a full one and a bad one; two rows
with a stride; a tagged copy to be registered, and registered; no room. -/
theorem witness_cpgo :
    let plain := fields 0 0x1000 128
    let keyed (d : Word) := with_ [(8, 1), (9, 1), (10, d)]
    let ring := with_ [(11, 1), (2, 64)]
    let mx := with_ [(6, 0x1000 + 8 + 13 * 16), (7, 0x2000)]
    let p (x : Vector Word 13) : Proc := { regs [(1, 20)] with staging := x, sl := 0x1000, cpn := 4 }
    let key : KeySlot := { part := 0, key := 0, fixed := 0, floor := 0, high := 0, mask := 0 }
    let s (x : Vector Word 13) (keys : List (Nat × KeySlot)) : State := { withLm (p x) (ringBytes 1 1 1 ++ List.replicate 12 0 ++ [1]) with keys := keys }
    let waits (done : Bool) : Proc := { p (with_ [(8, 1)]) with wait := .copyReg (p plain).pc done [] 0 0x1000 }
    (s plain []).Runs 0 0 (p plain) ∧ (s plain []).LmFree 0 ∧
      (Memory.wf ((s plain []).coreAt 0).lm = true ∧ (p plain).acquiring = false ∧ (p plain).awaits [1] = false ∧ (p plain).wait = .none) ∧
      (FieldsOk plain ∧ FieldsOk (keyed 0x100) ∧ FieldsOk ring ∧ FieldsOk mx ∧ FieldsOk (with_ [(3, 2), (4, 256), (5, 128)]) ∧ ¬FieldsOk (with_ [(2, 0)]) ∧ ¬FieldsOk (with_ [(6, 1)])) ∧
      (Tbl.find (s (keyed 0x100) [(1, key)]).keys 1 = some key ∧ key.part = (p plain).part ∧ Tbl.find (s (keyed 0x100) []).keys 1 = none ∧ (stg (keyed 0x110) 10).toNat % 32 ≠ 0 ∧
        0x1000 < (stg (keyed 0x1000) 10).toNat + 32 ∧ (stg (keyed 0x100) 8).toNat % 4096 ≠ 0 ∧ field ((s plain []).lmRead 0 0x100 32) 12 4 = 0 ∧
        field ((s plain []).lmRead 0 0x40 32) 12 4 ≠ 0) ∧
      ((s ring []).ringAt 0 (p ring) 0 = .ok { base := 0x800, ssz := 64, ns := 2, ip := 1, wp := 1, rp := 1 } ∧ (s ring []).ringAt 0 (p ring) 0x200 = .bad .bounds true ∧
        (s ring []).ringAt 0 (p ring) 0x20 = .bad .align false ∧ (s ring []).ringAt 0 (p ring) 0x1000 = .bad .segment false ∧ (s ring []).copyRanges (p ring) ring (some
          { base := 0x800, ssz := 64, ns := 2, ip := 1, wp := 1, rp := 1 }) (BitVec.ofNat 64 (windowLm 0 0x840)) = none) ∧
      ((∀ r : Fin 2, (0 : Int) ≤ 256 * (r.val : Int) ∧ 256 * (r.val : Int) + 128 ≤ 384) ∧ (s plain []).copyRanges (p plain) plain none (stg plain 1) = none ∧
        (s plain []).copyRanges (p plain) (with_ [(12, 0x1001)]) none (stg plain 1) = some (.segment, 0x1000) ∧ (s plain []).copyRanges (p plain) (with_ [(0, -64)]) none (stg plain 1) ≠ none) ∧
      (waits true).wait = .copyReg (waits true).pc true [] 0 0x1000 ∧ (stg (waits true).staging 8).toNat % 4096 ≠ 0 ∧
      ∀ d : Bool, (base (waits d)).copyFull 0 ((base (waits d)).pref 0 0) ((base (waits d)).newCopy 0 0 (waits d) [] 0 0x1000) = false :=
  ⟨⟨rfl, rfl, rfl⟩, lm_free (p := { regs [(1, 20)] with staging := fields 0 0x1000 128, sl := 0x1000, cpn := 4 }) rfl rfl rfl rfl rfl, by decide +kernel, by and_intros <;> decide +kernel,
    by and_intros <;> decide +kernel, by and_intros <;> decide +kernel, by and_intros <;> decide +kernel, by and_intros <;> decide +kernel⟩

/-- A line of a scrub at local CM, at the host and in HBM; and the answers of a scrub's two lines. -/
theorem witness_scrub :
    let s (l : Loc) : State := inFlight proc (.core 0) l.node (.req (asks l (.scrub 0) (.current 0)))
    let o (done : Nat) : Out := { waiting false with oid := 7, dest := .scrub 2 2 done 0 0 }
    let r := asks (.cm 0 0) (.scrub 1) (.current 0)
    let q (done : Nat) (fixed : Bool) : State := inFlight { proc with outs := [o done] } (.cluster 0) (.core 0) (.resp r [] 0 0 0 0 fixed (!fixed))
    (s (.cm 0 0)).Served 0 (.core 0) (.cluster 0) (asks (.cm 0 0) (.scrub 0) (.current 0)) ∧ (s (.host 0)).Served 0 (.core 0) .host (asks (.host 0) (.scrub 0) (.current 0)) ∧
      (s (.hbm 0 128)).Served 0 (.core 0) (.server 0) (asks (.hbm 0 128) (.scrub 0) (.current 0)) ∧
      ∀ fixed : Bool, ∀ done < 2, deliverable (q done fixed).net 0 = true ∧ r.who = (q done fixed).pref 0 0 ∧ ((q done fixed).coreAt 0).holdsProc 0 = true ∧
        (((q done fixed).procAt 0 0).outs.find? fun x => x.oid == r.oid) = some (o done) :=
  ⟨serves rfl (by decide +kernel), serves rfl (by decide +kernel), serves rfl (by decide +kernel), by decide +kernel⟩

/-- The world with a copy of process 0 in cluster 0's journal, from the start of cluster 0's CM to the last byte of its first line, and its core's place in the round. -/
def copying (f : Copy → Copy) (q : Proc) : State :=
  let p : Proc := { q with staging := fields 0xA000000000000 0xA00000000007F 1, cpn := 1 }
  let y : Copy := { (base p).newCopy 0 0 p [] 0 (stg p.staging 1).toNat with id := 1, seq := 7 }
  let s := base p
  s.setCluster 0 { s.clusterAt 0 with journal := [f y], cm := [(0, 9)], deficit := [(0, 1)] }

/-- The copy with its byte read, and with its byte written. -/
def gotByte (y : Copy) : Copy := (y.take 0 0 [9] false).read_ 0 1
def wrote (f : Option Cause) (y : Copy) : Copy := { gotByte y with done := [0], fault := f }

/-- A read piece of one byte of CM, its written piece, a copy whose piece has been written, one that has faulted, and a process whose CPGO waits for its registration. -/
theorem witness_copy_steps :
    let s := copying id proc
    let r := copying gotByte proc
    let moved (f : Option Cause) := copying (wrote f) proc
    let from_ : Transfer := { row := 0, off := 0, count := 1, addr := 0xA000000000000, len := 1 }
    let to_ : Transfer := { from_ with addr := 0xA00000000007F }
    let w : Wait := .copyReg 1 false [] 0 0xA00000000007F
    (match (s.clusterAt 0).journal.find? (fun z => z.seq == 7) with
      | some y => decide (s.memOk = true ∧ y.readOf 0 false = some from_ ∧ isWindow from_.addr = true ∧ windowLoc from_.addr = some (.cm 0 0) ∧ s.readReady 0 y 0 from_ = true ∧
        from_.len ≤ Tbl.get 0 (s.clusterAt 0).deficit y.who.g ∧ s.locBad (.cm 0 0) from_.len = false)
      | none => false) = true ∧
    (match (r.clusterAt 0).journal.find? (fun z => z.seq == 7) with
      | some y => decide (r.memOk = true ∧ y.writeOf 0 false = some to_ ∧ isWindow to_.addr = true ∧ windowLoc to_.addr = some (.cm 0 0x7F) ∧ y.finished = none ∧ y.fault = none ∧
        0 ∉ y.done ∧ r.copyHeld y = false ∧ r.transferHeld y true to_ = false ∧ r.writeWaits 0 y to_.addr to_.len = false ∧ cpEn y.x = false ∧ cpKey y.x = 0 ∧ cpWsid y.x = 0 ∧
        y.txid = 0 ∧ r.copyOut y to_.row to_.off to_.len = some [(9, false)] ∧ y.moved = false)
      | none => false) = true ∧
    (match ((moved none).clusterAt 0).journal.find? (fun z => z.seq == 7), ((moved (some .xlate)).clusterAt 0).journal.find? (fun z => z.seq == 7) with
      | some y, some z => decide (y.moved = true ∧ y.finished = none ∧ (moved none).copyHeld y = false ∧ y.farW = [] ∧ cpRing y.x = false ∧ cpEbm y.x = false ∧ y.fault = none ∧ y.errs = [] ∧
        ((moved none).find y.who).isSome = true ∧ ((moved none).procAt 0 0).cpn.toNat < y.id + 16 ∧ z.moved = true ∧ z.fault = some .xlate ∧ z.errs = [])
      | _, _ => false) = true ∧
    ((base { proc with wait := w }).procAt 0 0).wait = w ∧ (base proc).tss.ready = true ∧ State.reset.tss.ready = false ∧ proc.wait = .none := by decide +kernel

/-- Commands of a busy unit that move data: rows of 48 bytes one after another, a shape with scales after its rows, a matrix product of each format, a conversion, a transposition of an image of bytes. -/
theorem witness_tile_moves :
    let s (c : TCmd) : State := let x := tiled proc (some 0) [] [command c]; x.setTile 0 { x.tileAt 0 with busy := true }
    let row (ea st r : Nat) : Nat := (command (.zeroC 0)).sb + (BitVec.ofNat 64 ea + BitVec.ofNat 64 st * BitVec.ofNat 64 r).toNat
    let sh := shape 13 16 96
    (∀ c ∈ [TCmd.tldc 1 0 48, .tstc 1 0 48, .tld 0 sh 0 96 0x600 true, .tst 0 sh 0 96 0x600 true, .mma 0 1 2 0 48, .mma 0 1 2 13 96, .cvt 0 1 true 9 0 false 0 0, .tran 1 2 (shape 0 16 16)],
      ((s c).tileAt 0).queue = [command c] ∧ ((s c).tileAt 0).busy = true ∧ (s c).memOk = true ∧ (s c).upsets = [] ∧ ((s c).find (command c).who).isSome = true) ∧
      (∀ r < 16, ∀ l < 16, r ≠ l → row 0 48 r + 48 ≤ row 0 48 l ∨ row 0 48 l + 48 ≤ row 0 48 r) ∧
      (shapeBpr sh ≤ 192 ∧ shapeSpr sh ≤ 12 ∧ (∀ r < shapeRows sh, ∀ l < shapeRows sh, r ≠ l → row 0 96 r + shapeBpr sh ≤ row 0 96 l ∨ row 0 96 l + shapeBpr sh ≤ row 0 96 r) ∧
        ∀ r < shapeRows sh, row 0 96 r + shapeBpr sh ≤ 0x600) ∧
      ((∀ ec ∈ [9, 10, 11, 12, 13, 14, 15], isMx ec = true → 96 % 32 = 0) ∧ Ty.ofCode 9 = some (.flt bf16) ∧ shapeRows (shape 0 16 16) * (codeBits (shapeEc (shape 0 16 16)) / 8) ≤ 192) := by
  and_intros <;> decide +kernel

/-- The copy of process 0 that a CPGO with these fields placed, and the world with a copy in cluster 0's journal. -/
def copyOf (x : Vector Word 13) : Copy := { (base { proc with staging := x }).newCopy 0 0 { proc with staging := x } [] 0 (stg x 1).toNat with id := 1, seq := 7 }
def copyWorld (y : Copy) (hbm : List (Nat × Line)) : State :=
  let s := base { proc with cpn := 1 }
  { s.setCluster 0 { s.clusterAt 0 with journal := [y], cm := [(0, 9)], deficit := [(0, 128)] } with hbm := hbm }

/-- What a source transfer of CopySteps asks, and a destination transfer. -/
abbrev ReadsAt (s : State) (y : Copy) (tr : Transfer) (l : Loc) : Prop :=
  (s.clusterAt 0).journal.find? (fun z => z.seq == 7) = some y ∧ s.memOk = true ∧ s.upsets = [] ∧ y.readOf 0 false = some tr ∧
    s.partsOf y tr = [{ off := tr.off, addr := tr.addr, len := tr.len }] ∧ (s.translate y.part 0 y.dye tr.addr).1.toOption = some l ∧ s.readReady 0 y 0 tr = true ∧
    tr.len ≤ Tbl.get 0 (s.clusterAt 0).deficit y.who.g
abbrev WritesAt (s : State) (y : Copy) (tr : Transfer) (l : Loc) (out : List (Byte × Bool)) : Prop :=
  ((s.clusterAt 0).journal.find? (fun z => z.seq == 7) = some y ∧ s.memOk = true ∧ s.upsets = [] ∧ y.writeOf 0 false = some tr ∧
    s.partsOf y tr = [{ off := tr.off, addr := tr.addr, len := tr.len }] ∧ (s.translate y.part 0 y.dye tr.addr).1.toOption = some l) ∧
    (y.finished = none ∧ y.fault = none ∧ 0 ∉ y.done ∧ s.copyHeld y = false ∧ s.transferHeld y true tr = false ∧ s.writeWaits 0 y tr.addr tr.len = false) ∧
    s.copyOut y tr.row tr.off tr.len = some out ∧ out.length = tr.len ∧ 0 < tr.len ∧ ∀ b ∈ out, b.2 = false

/-- Transfers from CM, from host memory, and from HBM: in snapshot mode and of the current version, sound and poisoned, and under a revoked snapshot. -/
theorem witness_copy_reads :
    let tr (a : Nat) : Transfer := { row := 0, off := 0, count := 1, addr := a, len := 1 }
    let y (a : Word) : Copy := copyOf (fields a 0xA00000000007F 1)
    let v (bad : Bool) : Ver := { Ver.zero with ts := 3, poison := bad }
    let line (bad : Bool) : List (Nat × Line) := [(1, { Line.zero with cur := v bad })]
    let cm := y 0xA000000000000
    let host := y 0x40000000
    let snap : Copy := { y 0x80 with txid := 1, snap := 3 }
    let rev (b : Bool) : State := { copyWorld snap (line b) with tss := { world.tss with snaps := [{ ts := 3, tx := false, holders := 1, part := 0, launch := { fn := 0, lid := 0 }, revoked := true }] } }
    ReadsAt (copyWorld cm []) cm (tr 0xA000000000000) (.cm 0 0) ∧ ReadsAt (copyWorld host []) host (tr 0x40000000) (.host 0) ∧
      (∀ b : Bool, ReadsAt (copyWorld (y 0x80) (line b)) (y 0x80) (tr 0x80) (.hbm 0 0x80) ∧ ReadsAt (copyWorld snap (line b)) snap (tr 0x80) (.hbm 0 0x80)) ∧
      ((copyWorld cm []).locBad (.cm 0 0) 1 = false ∧ (copyWorld host []).hostRefused host.part = false ∧ (copyWorld snap []).tss.revoked snap.snap = false ∧
        ∀ b : Bool, ((copyWorld snap (line b)).lineAt 1).snapshot 3 = some (v b) ∧ (y 0x80).vseen ≤ ((copyWorld (y 0x80) (line b)).serverAt 0).v ∧
          ((copyWorld (y 0x80) (line b)).lineAt 1).current ((copyWorld (y 0x80) (line b)).serverAt 0).v = v b) ∧
      ReadsAt (rev false) snap (tr 0x80) (.hbm 0 0x80) ∧ (rev false).tss.revoked snap.snap = true := by
  and_intros <;> decide +kernel

/-- What a copy has for its destination: its bytes, those under its key, and conversions between types, from and to blocks of MX, and their scales. -/
theorem witness_copy_out :
    let conv (sec dec len : Nat) : Vector Word 13 := with_ [(2, BitVec.ofNat 64 len), (6, BitVec.ofNat 64 (4096 + sec + 16 * dec)), (7, 0x2000)]
    let got (x : Vector Word 13) (l : List (Nat × Nat × List Byte × Bool)) : Copy := { copyOf x with got := l }
    let all (n : Nat) : List (Nat × Nat × List Byte × Bool) := [(0, 0, List.replicate n 0x3F, false), (1, 0, [127], false)]
    let keyed : Copy := { got (with_ [(2, 4), (8, 1), (9, 1)]) (all 4) with desc := List.replicate 32 0 }
    let s (y : Copy) : State := { copyWorld y [] with keys := [(1, { part := 0, key := 0, fixed := 0, floor := 0, high := 0, mask := 0 })] }
    (((s keyed).copyOut keyed 0 0 1).isSome = true ∧ cpEn keyed.x = false ∧ cpKey keyed.x ≠ 0 ∧ (Tbl.find (s keyed).keys (cpKey keyed.x)).isSome = true) ∧
      (∀ e ∈ [(0, 8, 64), (13, 8, 32), (8, 13, 128)], let y := got (conv e.1 e.2.1 e.2.2) (all e.2.2)
        cpEn y.x = true ∧ cpFieldsOk y.x = true ∧ 4 ≤ cpDl y.x ∧ ((s y).copyOut y 0 0 4).isSome = true ∧ (y.bytesAt 0 0 (cpLen y.x)).isSome = true ∧
          (y.bytesAt (cpRows y.x) 0 1).isSome = true) ∧
      (let y := got (conv 8 13 128) (all 128)
       cpRows y.x ≤ 1 ∧ 0 + 1 ≤ cpElems y.x / 32 ∧ ((s y).copyOut y 1 0 1).isSome = true ∧ Ty.ofCode (cpSec y.x) = some (.flt fp32) ∧ mxFmt (cpDec y.x) = some e4m3) := by
  and_intros <;> decide +kernel

/-- Writes of a copy's byte at CM, at the host and in HBM: plain, into its set's version, there or to be made, and into its transaction's. -/
theorem witness_copy_writes :
    let tr (a : Nat) : Transfer := { row := 0, off := 0, count := 1, addr := a, len := 1 }
    let y (a : Word) (wsid : Word) (txid : Nat) : Copy :=
      { copyOf ((fields 0 a 1).setIfInBounds 8 wsid) with got := [(0, 0, [9], false)], txid := txid }
    let line (l : List (Owner × Ver)) : List (Nat × Line) := [(1, { Line.zero with tent := l })]
    let o : Owner := .set (y 0x80 1 0).launch 1
    let w (y : Copy) (l : List (Owner × Ver)) : State := { copyWorld y (line l) with tss := { world.tss with txs := [(1, trans .open_)] } }
    (WritesAt (copyWorld (y 0xA00000000007F 0 0) []) (y 0xA00000000007F 0 0) (tr 0xA00000000007F) (.cm 0 0x7F) [(9, false)] ∧
      WritesAt (copyWorld (y 0xA00000000007F 1 0) []) (y 0xA00000000007F 1 0) (tr 0xA00000000007F) (.cm 0 0x7F) [(9, false)] ∧
      WritesAt (copyWorld (y 0x40000000 0 0) []) (y 0x40000000 0 0) (tr 0x40000000) (.host 0) [(9, false)] ∧ (copyWorld (y 0x40000000 0 0) []).hostRefused 0 = false) ∧
      (WritesAt (w (y 0xFF 0 0) []) (y 0xFF 0 0) (tr 0xFF) (.hbm 0 0xFF) [(9, false)] ∧
        (∀ l ∈ [[], [(o, Ver.zero)]], WritesAt (w (y 0x80 1 0) l) (y 0x80 1 0) (tr 0x80) (.hbm 0 0x80) [(9, false)]) ∧
        ∀ l ∈ [[], [(Owner.tx 1, Ver.zero)]], WritesAt (w (y 0x80 0 1) l) (y 0x80 0 1) (tr 0x80) (.hbm 0 0x80) [(9, false)]) ∧
      ((w (y 0x80 1 0) []).setOpen (y 0x80 1 0) = true ∧ ((w (y 0x80 1 0) [(o, Ver.zero)]).lineAt 1).tentOf o = some Ver.zero ∧ (w (y 0x80 1 0) [(o, Ver.zero)]).setLog = [] ∧
        ((w (y 0x80 1 0) []).lineAt 1).tentOf o = none ∧ (w (y 0x80 1 0) []).lineFull 1 = false ∧
        (w (y 0x80 1 0) []).poolUsed 0 < poolSize ((w (y 0x80 1 0) []).serverAt 0).poolCfg ∧ 0xFF % 128 + 1 ≤ 128) ∧
      (Tbl.find (w (y 0x80 0 1) []).tss.txs 1 = some (trans .open_) ∧ (trans .open_).who = (y 0x80 0 1).who ∧ 1 ∈ (trans .open_).lines ∧
        ((w (y 0x80 0 1) []).lineAt 1).snapshot (trans .open_).snap = some Ver.zero ∧ ((w (y 0x80 0 1) [(.tx 1, Ver.zero)]).lineAt 1).tentOf (.tx 1) = some Ver.zero) := by
  and_intros <;> decide +kernel

/-- Copies whose byte is written: with a bitmap; of a ring, alone and behind an older one; a tagged one that failed, alone in a line's log and beside another; one whose tag is right. -/
theorem witness_copy_ends :
    let done (x : Vector Word 13) : Copy := { copyOf x with got := [(0, 0, [9], false)], done := [0] }
    let ebm := done ((fields 0 0x80 1).setIfInBounds 12 0x801)
    let ring := done ((fields 0 0x80 1).setIfInBounds 11 0x801)
    let older : Copy := { ring with id := 0, seq := 6, ringN := 0, done := [] }
    let newer : Copy := { ring with ringN := 1 }
    let two : State := let s := copyWorld newer []; s.setCluster 0 { s.clusterAt 0 with journal := [older, newer] }
    let bad : Copy := { done ((fields 0 0x80 1).setIfInBounds 8 1) with fault := some .xlate }
    let o : Owner := .set bad.launch 1
    let undo (w : List (Nat × Nat × List Byte × Bool)) : State :=
      { copyWorld bad [(1, { Line.zero with tent := [(o, Ver.zero)] })] with setLog := [{ line := 1, own := o, base := Ver.zero, writes := w }] }
    let ends (s : State) (y : Copy) : Prop := (s.clusterAt 0).journal.find? (fun z => z.seq == 7) = some y ∧ s.memOk = true ∧ s.upsets = [] ∧ y.finished = none ∧ y.moved = true ∧
      s.copyHeld y = false ∧ (∀ e ∈ s.egress, e.oid ∉ y.farW) ∧ (s.find y.who).isSome = true ∧ (s.procAt 0 0).cpn.toNat < y.id + 16
    (ends (copyWorld ebm []) ebm ∧ cpEbm ebm.x = true ∧ cpRing ebm.x = false ∧
        (copyWorld ebm []).lmHeld 0 ebm.seq Span.none (Span.ofLen (ebm.sbase + cpEbmAt ebm.x) 1) = false ∧ cpLines ebm.x 0x80 1 = 1) ∧
      (ends (copyWorld ring []) ring ∧ cpRing ring.x = true ∧ cpEbm ring.x = false ∧ ((copyWorld ring []).clusterAt 0).journal = [ring] ∧
        (copyWorld ring []).lmHeld 0 ring.seq Span.none (Span.ofLen (ring.sbase + cpRingAt ring.x + 64) 8) = false ∧
        (copyWorld ring []).lmHeld 0 ring.seq Span.none (Span.ofLen (ring.sbase + cpRingAt ring.x + 24) 8) = false) ∧
      (ends two newer ∧ older.who.g = 0 ∧ older.sbase + cpRingAt older.x = newer.sbase + cpRingAt newer.x ∧ older.ringN < newer.ringN ∧ older.finished = none) ∧
      (∀ w ∈ [[(7, 0, [1], false)], [(7, 0, [1], false), (6, 1, [1], false)]], ends (undo w) bad ∧ cpWsid bad.x ≠ 0 ∧ ((undo w).setLog.map fun x => (x.line, x.own)).Nodup ∧
        (((undo w).lineAt 1).tentOf o).isSome = true ∧ Memory.wf Ver.zero.data = true) := by
  and_intros <;> decide +kernel

/-- A tag has at most 16 bytes. -/
theorem gcmTag_length (key iv cipher : List Byte) : (gcmTag key iv cipher).length ≤ 16 := by
  simp only [gcmTag, xorBytes, bigBytes, List.length_zipWith, List.length_reverse]
  refine Nat.le_trans (Nat.min_le_left _ _) ?_
  simp [natBytes]

/-- A copy of one byte under a key whose descriptor carries the tag of its bytes. -/
theorem witness_copy_tag :
    let key : KeySlot := { part := 0, key := 0, fixed := 0, floor := 0, high := 0, mask := 0 }
    let nonce : List Byte := List.replicate 11 0 ++ [1]
    let desc : List Byte := nonce ++ [0, 0, 0, 0] ++ gcmTag key.bytes nonce [9]
    let y : Copy := { copyOf (with_ [(2, 1), (8, 1), (9, 1)]) with got := [(0, 0, [9], false)], done := [0], desc := desc }
    (y.moved = true ∧ cpKey y.x = 1 ∧ y.fault = none ∧ key.accepts (bigNat nonce) = true ∧ (y.bytesAt 0 0 (cpLen y.x)).isSome = true) ∧
      y.desc.take 4 = bigBytes 4 key.fixed.toNat ∧ y.desc.take 12 = nonce ∧ gcmTag key.bytes nonce [9] = (y.desc.drop 16).take 16 :=
  ⟨by decide +kernel, rfl, rfl, (List.take_of_length_le (gcmTag_length _ _ _)).symm⟩
/-- A publish at lines whose version has no log, none of whose copies has ended, all of whose copies have, and some of whose have. -/
theorem witness_publish_apply :
    let z : Publish := { k := 7, launch := { fn := 0, lid := 0 }, id := 1, ts := 4, homes := [0] }
    let o : Owner := .set z.launch 1
    let s (writes : Option (List (Nat × Nat × List Byte × Bool))) : State :=
      let c := copying id proc
      { c with hbm := [(1, { Line.zero with tent := [(o, Ver.zero)] })], tss := { world.tss with txs := [(1, trans .open_)], pubs := [z] }
               setLog := match writes with | some w => [{ line := 1, own := o, base := Ver.zero, writes := w }] | none => [] }
    let ends (w : List (Nat × Nat × List Byte × Bool)) := (w.map fun x => !(s (some w)).pendingCopies.contains x.1)
    ((s none).tss.pubs.find? fun x => x.k == 7) = some z ∧ ((s none).linesOf 0).length = 1 ∧ (s none).setLineOf 1 o = none ∧
      (∀ w ∈ [none, some [(7, 0, [1], false)], some [(6, 0, [1], false)], some [(6, 0, [1], false), (7, 1, [1], false)]],
        ((s w).linesOf 0).any (fun e => (s w).publishable e.1 o && e.2.prep.isSome) = false) ∧
      ends [(7, 0, [1], false)] = [false] ∧ ends [(6, 0, [1], false)] = [true] ∧ ends [(6, 0, [1], false), (7, 1, [1], false)] = [true, false] ∧
      ((s (some [])).setLineOf 1 o).isSome = true := by decide +kernel


/-! Witnesses: traps and system instructions. -/

/-- A process that takes every trap at head 9 of a line of its segment. -/
def handler (p : Proc) : Proc := { p with ten := 0xFFFE, trh := 9 }

/-- A steward. -/
def steward (p : Proc) : Proc := { p with stw := true, mode := true }

/-- Function 0 with a fault log that has as many entries, and waiting ones. -/
def faultLog (p : Proc) (produced : Word) (waiting : List (List Byte)) : State :=
  (base p).setFn 0 { (base p).fnAt 0 with flprod := produced, faultWait := waiting }

/-- Traps that the process handles, that it does not (no enable, no handler, in a handler); a steward's with a log of 63 entries, of 64, and with one waiting; ERET in and out of a handler, in user mode. -/
theorem witness_traps :
    let p := handler (regs [(1, 5)])
    let inside : Proc := { p with h := true, mode := true, tpc := 7 }
    (base p).Runs 0 0 p ∧ (p.h = false ∧ p.ten.getLsbD Cause.bounds.code.toNat = true ∧ p.ten.getLsbD Cause.break_.code.toNat = true ∧ p.trh ≠ 0 ∧
      proc.ten.getLsbD Cause.bounds.code.toNat = false ∧ ({ p with trh := 0 } : Proc).trh = 0 ∧ inside.h = true ∧ inside.mode = true ∧ p.stw = false ∧ (steward proc).stw = true ∧
      ((faultLog proc 63 []).fnAt 0).faultWait = [] ∧ (((faultLog proc 63 []).fnAt 0).flprod - ((faultLog proc 63 []).fnAt 0).flcons).toNat < 64 ∧
      64 ≤ (((faultLog proc 64 []).fnAt 0).flprod - ((faultLog proc 64 []).fnAt 0).flcons).toNat ∧ ((faultLog proc 1 [[]]).fnAt 0).faultWait ≠ [] ∧ p.awaits [1] = false ∧
      p.mode = false ∧ ({ p with mode := true } : Proc).h = false) :=
  ⟨base_runs _, by decide +kernel⟩

/-- A world with a parked child of process 0 in slot 3, its exit endpoint 7 owned by process 0. -/
def parkedChild (p : Proc) (trapped held : Bool) : State :=
  let q : Proc := { proc with pkt := trapped, pkh := held, state := .ready, xv := true, xidx := 7 }
  ((base p).setProc 0 3 q).setEp 0 7 { endp .buffered 0 7 true with exit := true, child := some 3 }

/-- Dyes of this partition, of another, and too large; control registers in their ranges' ends; a doorbell with bits and without; a hold asked and settled; a core outside, an empty slot, a
process parked by a trap, by a hold, and not; MINT of 1 and 64 endpoints, of 65, misaligned, and beyond every domain; far pointers to the last byte of the space; RIGHTS of each kind; PLBINV to the end. -/
theorem witness_system :
    let p := steward (regs [(1, 1), (2, 0x0FFF), (3, 0x1000), (4, 0x10000), (6, 0xC00), (7, 64), (8, 65), (9, 0xFFFFFFFFFFFFF), (10, 0x3FF), (11, 8), (14, 0x10000000000000)])
    let s := base p
    let bell : State := s.setPart 0 { s.partAt 0 with doorbell := 6 }
    let q : Proc := { p with wait := .quiesce p.pc true }
    let asked : State := (base q).setPart 0 { (base q).partAt 0 with cqsc := true }
    let h (ck : Nat) : Proc := (regs [(6, 7)]).setPair 4 0 (BitVec.ofNat 64 (ck * 2 ^ 60 + 0x1C)) true
    s.Runs 0 0 p ∧ (p.awaits [1, 2] = false ∧ 2 ^ 16 ≤ (p.reg 4).toNat ∧ (p.reg 3).toNat / 2 ^ 12 ≠ p.part ∧ (p.reg 2).toNat / 2 ^ 12 = p.part ∧ p.stw = true ∧ proc.stw = false ∧
      (s.partAt 0).doorbell = 0 ∧ (bell.partAt 0).doorbell ≠ 0 ∧ p.wait = .none ∧ asked.holdSettled 0 false = true ∧ (asked.partAt 0).cqsc = true ∧ s.coreInPart 0 (prefOf (p.reg 10)).g = false ∧
      s.coreInPart 0 (prefOf 0xC00).g = true ∧ s.find (prefOf (p.reg 6)) = none ∧ ((parkedChild p true false).find (prefOf 0xC00)).isSome = true ∧ ((prefOf 0xC00).g, (prefOf 0xC00).slot) ≠ (0, 0) ∧
      ((parkedChild p true false).procAt 0 3).pkt = true ∧ ((parkedChild p false true).procAt 0 3).pkh = true ∧ ((parkedChild p false false).procAt 0 3).pkt = false ∧
      ((parkedChild p true false).epAt 0 7).exit = true ∧ 7 ∉ ((parkedChild p true false).coreAt 0).owned 3 ∧ p.awaits [4, oddOf 4, 6, oddOf 6, 7] = false ∧
      s.rangeHas 0 (rightR + rightM) 0 (16 * 64) = true ∧ s.rangeHas 0 (rightR + rightM) 0x4000000000000 16 = false ∧ (p.reg 11).toNat % 16 ≠ 0 ∧ 64 < (p.reg 8).toNat ∧
      (p.reg 9).toNat + 1 ≤ 2 ^ 52 ∧ 2 ^ 51 ≤ (p.reg 9).toNat ∧ 2 ^ 52 ≤ (p.reg 14).toNat ∧ s.rangeHas 0 (farNeed 7) 0 64 = true ∧ (h 1).pairTag 4 = true ∧ hCk ((h 1).pair 4) = 1 ∧
      hCk ((h 3).pair 4) = 3 ∧ 3 < hCk ((h 4).pair 4) ∧ (h 4).awaits [4, oddOf 4, 6] = false ∧ p.awaits [9, 1] = false ∧
      (tiled p none [] [command (.zeroC 0)]).tilePending { g := 0, slot := 0, gen := 0 } = true ∧ s.tilePending (s.pref 0 0) = false ∧
      (∃ x ∈ ({ p with outs := [{ waiting false with flags := true }] } : Proc).outs, x.flags = true) ∧ ∀ x ∈ p.outs, x.flags = false) :=
  ⟨base_runs _, by decide +kernel⟩

/-- QUIESCE waits while a process of its partition other than its steward has not parked. -/
theorem witness_quiesce :
    let q : Proc := { steward proc with wait := .quiesce 1 false }
    let s : State := ((base q).setPart 0 { (base q).partAt 0 with cqsc := true }).setProc 0 3 { proc with state := .ready }
    s.Runs 0 0 q ∧ (q.wait = .quiesce q.pc false ∧ (s.partAt q.part).cqsc = true ∧ s.holdSettled q.part false = false) := ⟨⟨rfl, rfl, rfl⟩, by decide +kernel⟩

/-! Witnesses: the host, launches, energy and partitions. -/

/-- The world with one more process in slot 3 of core 0. -/
def withOther (q : Proc) : State := (base proc).setProc 0 3 q

/-- The world with DVA 2^20 to 2^20 + 255 of partition 0 in package 1, for reading and writing. -/
def farWorld (p : Proc) : State :=
  let s := base p
  s.setPart 0 { s.partAt 0 with farMap := [(0, { lbase := 0x100000, cap := 0x30001C01000000000FF0000000002000 })] }

/-- A doorbell without and with a waiting process, a hold request on and off, a parked steward, a fault log without and with a waiting descriptor; a window access of the line at DVA 0, to the line's end, and one without a right. -/
theorem witness_host_registers :
    let s := base proc
    let bell := withOther { proc with state := .chan, blk := .doorbell 1 2 }
    let log := faultLog proc 64 [List.replicate 64 0]
    let st := withOther { steward proc with pkt := true, state := .ready }
    (s.bring.state ≠ .booting ∧ s.fnLive 0 = true ∧ s.doorWaiters 0 = [] ∧ bell.doorWaiters 0 = (0, 3, 2) :: [] ∧ (bell.partAt 0).doorbell ||| 1 ≠ 0 ∧ (s.partAt 0).node ≠ 0 ∧
      (1 : Word).getLsbD 0 = true ∧ (2 : Word).getLsbD 0 = false ∧ (s.partAt 0).chst = false ∧ (s.fnAt 0).faultWait = [] ∧ (log.fnAt 0).faultWait = [List.replicate 64 0] ∧
      ((log.fnAt 0).flprod - 1).toNat < 64) ∧
    (match st.stewardAt 0 0xC00 with | some (r, p) => p.pkt && !p.xv && r.slot == 3 | none => false) = true ∧
    (2 ^ 36 - 64 + 64 ≤ 2 ^ 36 ∧ s.rangeHas 0 rightR (2 ^ 36 - 64) 64 = false ∧ s.rangeHas 0 rightW 0 128 = true ∧ s.rangeHas 0 rightR 64 64 = true ∧
      s.hostMay (s.hostUnit 0) 0 128 = true ∧ s.walkWaits 0 (s.hostUnit 0).cluster 64 = false ∧ ((s.translate 0 (s.hostUnit 0).cluster 0 64).1).toOption = some (.hbm 0 64) ∧
      ((s.translate 0 (s.hostUnit 0).cluster 0 0x7FFFFFFFFFFFF).1).toOption = none ∧
      (s.lineAt 0).prep = none ∧ ((s.lineAt 0).current (s.serverAt 0).v).poison = false) ∧
    (((farWorld proc).translate 0 0 0 0x1000FF).1.toOption = some (.far 1 0 1 0x20FF) ∧ (farWorld proc).farCheck 0 0x1000FF 1 1 = none ∧ 0x1000FF % 128 + 1 ≤ 128 ∧
      (farWorld proc).rangeHas 0 rightW 0x1000FF 1 = true) ∧
    (let x (pool : BitVec 2) : State := world.setServer 0 { world.serverAt 0 with poolCfg := pool }
     serverEntries (x 1).ranges 0 ≠ [] ∧ serverEntries (x 1).ranges 255 = [] ∧ ((x 1).serverAt 0).poolCfg = 1 ∧ (0x212 : Word).extractLsb' 8 2 = (2 : BitVec 2) ∧
       (0x300 : Word).extractLsb' 8 2 = (3 : BitVec 2)) ∧ s.fnLive 1 = true ∧
    (let u := s.hostUnit 0
     let walks : State := { world.setCluster 0 { world.clusterAt 0 with tc := [] } with hbm := [(0, { Line.zero with prep := some 2 })] }
     s.upsets = [] ∧ walks.unitWaits (walks.hostUnit 0) (splitLines 3 64 64) = true ∧ s.unitWaits u (splitLines 3 0x7FFFFFFFFFFFF 1) = false ∧
       s.hostMay u 0x7FFFFFFFFFFFF 1 = false ∧ ((farWorld proc).devAsk ((farWorld proc).hostUnit 0) 0x1000FF 1).isSome = true ∧ (farWorld proc).rangeHas 0 rightR 0x1000FF 1 = true ∧
       s.devBehind u 64 = false ∧ (farWorld proc).devBehind ((farWorld proc).hostUnit 0) 0x1000FF = false ∧
       ({ s with devHeld := [{ u := u, dva := 0, bytes := [1] }] } : State).devBehind u 64 = true) := by decide +kernel

/-- The code object of one template of one process in a segment of 4 KiB, its image a line of zeros. -/
def object : List Byte :=
  natBytes 4 0x424F5851 ++ natBytes 2 1 ++ natBytes 2 0 ++ natBytes 4 0x4E1D97A3 ++ natBytes 4 64 ++ natBytes 4 1 ++ natBytes 4 0 ++ natBytes 8 64 ++ natBytes 8 0 ++ natBytes 8 0 ++
    natBytes 8 64 ++ natBytes 8 256 ++ natBytes 8 1 ++ natBytes 8 192 ++ natBytes 4 64 ++ natBytes 4 0x1000 ++ natBytes 2 1 ++ natBytes 2 1 ++ natBytes 2 1 ++ List.replicate 34 0 ++
    natBytes 4 0xFFFFFFFF ++ List.replicate 124 0

/-- The world with that object at DVA 0. -/
def loaded : State :=
  { world with hbm := (List.range 3).map fun i => (i, { Line.zero with cur := { Ver.zero with data := Mem.write [] 0 ((object.drop (128 * i)).take 128) } }) }

/-- The net of that object. -/
def oneNet : Net :=
  { tmpls := [{ entry := 1, image := List.replicate 64 0, seg := 0x1000, n0 := 1, n1 := 1, n2 := 1, pri := 0, shape := 0, bars := 0, acct := 0, eidx := 0, ecnt := 0 }]
    chans := [], ends := [], homes := [], relocs := [] }

/-- Function 0 with launches queued. -/
def queued (l : List (Nat × Word × Option Net)) : State := world.setFn 0 { world.fnAt 0 with queue := l }

/-- Function 0 with a running launch of core 1, at a sweep. -/
def sweeping (v : Option Sweep) (agree : Nat) (last : Nat × Nat) : State :=
  let s := launched proc [] []
  { s with launches := s.launches.map fun l => { l with ref := { fn := 0, lid := 7 }, cores := [1], sweep := v, agree := agree, last := last } }

/-- Function 0 with a completion record and a ring of two. -/
def recording (produced : Word) (behind : List Nat) : State :=
  { world.setFn 0 { world.fnAt 0 with crctl := 0x11, crprod := produced, records := [{ bytes := [], report := none, behind := behind }] } with
    egress := [{ oid := 3, seq := 0, who := { g := 0, slot := 0, gen := 0 }, dye := 0, part := 0, ea := 0, loc := .host 0, bytes := [], own := none, cap := false, isCap := false, floor := 0 }] }

/-- Function 0 with a harvest under way. -/
def harvesting (next ts : Nat) (alive : Bool) : State :=
  let s := world.setFn 0 { world.fnAt 0 with hvsnap := 5, hvprev := BitVec.ofNat 64 ts, harvest := some { started := true, entry := 0, dense := false, next := next, out := 0, bad := [] } }
  if alive then { s with tss := { s.tss with snaps := [{ ts := 5, tx := false, holders := 1, part := 0, launch := { fn := 0, lid := 0 }, revoked := false }] } } else s

set_option maxRecDepth 20000 in
/-- A parsed object with status 0, and one that is none; LAUNCH without a partition, with a full queue, and queued; launches to start without a net, without a core, and with one; ABORT of a queued and of a running one; sweeps. -/
theorem witness_launch :
    let w : Word := BitVec.ofNat 64 (2 ^ 40)
    let full := queued (List.replicate 16 (1, w, none))
    let s := queued [(7, w, some oneNet)]
    let huge : Net := { oneNet with tmpls := oneNet.tmpls.map fun t => { t with seg := 0x80000 } }
    let may (st : State) (n : Nat) : Bool := st.rangeHas 0 rightR 0 n
    (loaded.fnLive 0 = true ∧ (loaded.fnAt 0).nrBusy = false ∧ (world.readObject firmwareUnit 0 (may world)).1.bind parseObject = none ∧
      (loaded.askObject firmwareUnit 0 (may loaded)).isNone = true ∧ ((farWorld proc).askObject firmwareUnit 0x100000 ((farWorld proc).rangeHas 0 rightR 0x100000)).isSome = true ∧
      (match (loaded.readObject firmwareUnit 0 (may loaded)).1.bind parseObject with
        | some o => o.stored 0 == oneNet && loaded.checkNet 0 { o with net := o.stored 0 } 0 == 0 && loaded.checkNet 0 { o with hash := 0 } 0 == 2
        | none => false) = true ∧ (loaded.fnAt 0).nets.length < 256 ∧ (loaded.fnAt 0).nextHandle ≤ 0xFFFFFF) ∧
    ((world.partAt 1).node = 0 ∧ 16 ≤ (full.fnAt 0).queue.length ∧ world.bring.placement = true ∧ (s.fnAt 0).queue = (7, w, some oneNet) :: [] ∧
      huge.place true (s.eligible 0) = none ∧ oneNet.place true (s.eligible 0) = some [[(1, 0)]] ∧ s.placeHomes 0 [[(1, 0)]] oneNet.homes [] = some [] ∧
      s.placeHomes 0 [[(1, 0)]] [{ size := 2 ^ 40, level := 0, align := 128, near := 0, addr := 0 }] [] = none ∧
      (s.partAt 0).stopping = false ∧ s.coreFree 1 = true ∧ ((s.fnAt 0).queue.find? fun y => y.1 == 7).isSome = true ∧ ((s.fnAt 0).queue.find? fun y => y.1 == 8).isSome = false) := by decide +kernel

/-- Sweeps that lack a core, that agree with the one before, and that do not; rings with one place and full, a record behind a queued write; HVGO with an enabled entry and a disabled one; a harvest at its first line with an old and a new
version, at its end, and without its snapshot. -/
theorem witness_launch_end :
    let done : Sweep := { latched := [1], idle := 1, sent := 4, rcvd := 4 }
    let part (s : State) := (s.launches.find? fun y => y.ref == { fn := 0, lid := 7 }).isSome
    let queuedAt (s : State) (o : Nat) : Bool := s.inFlight.any fun e => flightId e == o
    (part (sweeping none 0 (0, 0)) = true ∧ part (sweeping (some done) 1 (4, 4)) = true ∧ ((sweeping none 0 (0, 0)).partAt 0).stopping = false ∧
      done.idle = [1].length ∧ done.sent = done.rcvd ∧ ((sweeping (some done) 0 (0, 0)).launches.all fun l => l.agree != 1) = true) ∧
    ((((recording 1 []).fnAt 0).crprod - ((recording 1 []).fnAt 0).crcons).toNat < 2 ∧ 2 ≤ (((recording 2 []).fnAt 0).crprod - ((recording 2 []).fnAt 0).crcons).toNat ∧
      queuedAt (recording 1 [3]) 3 = true ∧ queuedAt (recording 1 [4]) 4 = false ∧ ((recording 1 []).launches.all fun l => l.ref.fn != 0 || !l.aborting) = true) ∧
    ((Tbl.get 0 world.ranges 0).getLsbD 127 = true ∧ (Tbl.get 0 world.ranges 1).getLsbD 127 = false ∧ (world.fnAt 0).harvest.isSome = false ∧ (world.fnAt 0).hvprev = 0) ∧
    let e := Tbl.get 0 world.ranges 0
    ((harvesting (rangeBase e) 1 true).tss.snaps.any (fun y => y.ts == 5 && !y.tx && !y.revoked)) = true ∧ (harvesting (rangeBase e) 1 false).tss.snaps = [] ∧
      rangeBase e < rangeBase e + rangeLen e ∧ ((harvesting (rangeBase e) 1 true).lineAt (rangeBase e / 128)).snapshot 5 = some Ver.zero ∧ Ver.zero.ts ≤ 1 ∧
      ((harvesting (rangeBase e + rangeLen e) 1 true).fnAt 0).harvest.isSome = true ∧ (harvesting (rangeBase e) 1 true).upsets = [] ∧
      (harvesting (rangeBase e) 1 true).harvestOut 0 = false ∧
      ({ harvesting (rangeBase e) 1 true with devFar := [{ oid := 1, kind := 3, part := 0, dva := 0, len := 1, done := false, cause := none, bytes := [], tags := 0, write := true }] } : State).harvestOut 0
        = true ∧
      (({ harvesting (rangeBase e) 1 true with hbm := [(rangeBase e / 128, { Line.zero with cur := { Ver.zero with ts := 9, plain := false } })] } : State).lineAt (rangeBase e / 128)).snapshot 5 = none ∧
      (∀ f t : Bool, ({ started := true, entry := 0, dense := false, next := rangeBase e, out := 0, bad := [], fault := f, tailed := t } : Harvest).started = true) := by decide +kernel

/-- The loaded world with partitions on nodes given. -/
def divided (l : List (Nat × Nat)) : State :=
  { loaded with parts := l.map fun e => (e.1, { Part.zero with node := e.2, equota := 5 }), madder := { Madder.zero with meters := [(3, [(0x1001, 10), (0x1001, 2)])], metered := [0, 8, 0, 0] } }

set_option maxRecDepth 20000 in
/-- A quota reached and not; a rail with no energy metered and one; every status of the partition commands: nodes 0, 1, 15, 16, 31 and 32, a node taken, no live core, no object, a busy partition, its sibling. -/
theorem witness_energy_and_partition :
    let s := divided [(0, 16), (1, 17)]
    let free := divided [(2, 31)]
    let busy := s.setFn 1 { s.fnAt 1 with queue := [(1, 0, none)] }
    (s.bring.madder = true ∧ s.etotal 1 < (s.partAt 1).equota ∧ ((divided [(1, 1)]).setPart 1 { Part.zero with node := 1, equota := 0 }).etotal 1 = 0 ∧ (s.partAt 1).cqta = false ∧
      Tbl.get [] s.madder.meters 3 ≠ [] ∧ s.madder.factors.length = 4 ∧ s.madder.carry.length = 4 ∧ s.madder.charged.length = 4 ∧ s.madder.metered.length = 4 ∧
      s.madder.metered.getD 0 0 = 0 ∧ 0 < s.madder.metered.getD 1 0 ∧ 32768 * (8 : Int) ≤ 8 * 65536 ∧ (8 * 65536 : Int) < 131073 * 8) ∧
    (s.pcReady = true ∧ s.fnLive 0 = true ∧ (s.partAt 2).node = 0 ∧ s.partIdle 1 = true ∧ busy.partIdle 1 = false ∧ s.partTaken 1 = true ∧ free.partTaken 1 = false ∧
      (16 ∈ List.range 32 ∧ ((nodeLeaves 16).any fun j => s.parts.any fun e => nodeHasLeaf e.2.node j) = true ∧ ((nodeLeaves 16).any fun j => free.parts.any fun e => nodeHasLeaf e.2.node j) = false) ∧
      free.nodeCores 18 = [] ∧ (free.nodeCores 16).head? = some 0 ∧ s.stewardsFree 1 = true) ∧
    (s.nodeOwner 16 = some 0 ∧ s.nodeOwner 17 = some 1 ∧ s.nodeOwner 8 = none ∧ (divided [(0, 8)]).nodeOwner 8 = some 0 ∧ (divided [(0, 8)]).nodeCores 16 ≠ [] ∧
      (divided [(0, 8)]).partTaken 1 = false ∧ (s.parts.find? fun e => nodeHasLeaf e.2.node (255 / 16)).isNone = true ∧
      (s.partCores 0).any (fun g => quadOf g != 0) = true ∧ ({ s with pcRetire := some (0, 0) } : State).holdSettled 0 true = true ∧ s.retireQueue = [] ∧
      ({ (divided [(0, 16)]).setProc 0 3 proc with pcRetire := some (0, 0) } : State).holdSettled 0 true = false ∧ (divided [(0, 16)]).quadPerformed 0 0 = true ∧
      ((divided [(0, 16)]).setCore 1 { Core.zero with procs := [(0, { proc with stores := [{ oid := 1, ea := 0, len := 8, kind := .direct, seq := 0, pc := 0 }] })] }).quadPerformed 0 0 = false ∧
      (s.askObject firmwareUnit s.pcimg.toNat (imageAt s.pcimg.toNat)).isNone = true ∧
      ((farWorld proc).askObject firmwareUnit 0x100000 (imageAt 0x100000)).isSome = true) := by decide +kernel

/-! Witnesses: the mailbox, bring-up, links, scale-out, devices, holds. -/

/-- A mailbox command of the physical function for partition 0. -/
def mb (a0 a1 a2 : Word) : MbOps := { fn := 0, seqn := 9, a0 := a0, a1 := a1, a2 := a2, a3 := 0 }

/-- The world whose partition is gone, so that its range entry may change. -/
def noOwner : State := { world with parts := [] }

/-- The world with a page table at address 0: the first GiB of DVAs to HBM, the second to host memory; its third level's table may be prepared. -/
def tabled (prep : Option Nat) : State :=
  let table (bytes : List Byte) (prep : Option Nat) : Line := { Line.zero with cur := { Ver.zero with data := Mem.write [] 0 bytes }, prep := prep }
  { world with ptroot := 0, hbm := [(0, table [1, 0x10] none), (32, table ([0xA2] ++ List.replicate 7 0 ++ natBytes 8 0x80000000000A2) prep)] }

/-- Every check of the mailbox, on both sides: an entry of server 0, of a server that is not ready, and one that overlaps; weights 0, 1, 8 and 9; a row of server 0, a full remap table; leaves misaligned, without the right type, in another's space, of memory that
is not the partition's, with too few tables and with enough; domain entries sound and overlapping; the last entry of each table. -/
theorem witness_mailbox :
    let e : BitVec 128 := 0x80010000000010000000000000200000
    let hi (x : BitVec 128) : Word := x.extractLsb' 64 64
    let lo (x : BitVec 128) : Word := x.setWidth 64
    let t := [0x10000, 0x11000, 0x12000]
    let leaf : Word := 0x4002
    let row : RowId := { bank := 1, pc := false, row := 2 }
    let s := world
    (s.fnLive 0 = true ∧ s.fnLive 1 = true ∧ mbPart (mb 0 0 0) = some 0 ∧ mbPart { mb 0 0 0 with fn := 1 } = some 1 ∧ mbPart { mb 0 0 0 with fn := 1, a3 := 1 } = none) ∧
      (hi e ++ lo e = e ∧ s.rangeFree 0 = false ∧ noOwner.rangeFree 0 = true ∧ noOwner.rangeOk 0 e = true ∧ s.rangeFree 15 = true ∧ s.rangeOk 15 e = false ∧ s.rangeOk 15 0 = true ∧
      s.rangeOk 15 (e ||| (1#128 <<< 113)) = false ∧ s.hbmHome 0 = some 0 ∧ s.hbmHome (2 ^ 40) = none ∧ ((s.serverAt 0).remap.any (remapNames row)) = false ∧
      (s.serverAt 0).remap.length < 32 ∧ remapNames row (remapEntry row 31) = true) ∧
      (pageLog (bitsOf leaf.toNat 7 4) = some 12 ∧ bitsOf leaf.toNat 1 0 = 2 ∧ bitsOf leaf.toNat 51 12 * 4096 = 0x4000 ∧ s.ownsDpa 0 17 0x4000 4096 = true ∧ s.ownsDpa 0 17 (2 ^ 40) 4096 = false ∧
      t.all s.freshOk = true ∧ ((tabled none).mapLeaves 0x80000000000A2 0 1 0 []).isSome = true ∧ pageLog (bitsOf 0x80000000000A2 7 4) = some 30 ∧
      bitsOf 0x80000000000A2 1 0 = 2 ∧ bitsOf 0x80000000000A2 63 52 = 0 ∧ (0x80000000000A2 : Word).getLsbD 51 = true ∧ (tabled none).tableHeld 0 30 (2 ^ 30) [] = false ∧
      (tabled (some 2)).tableHeld 0 30 (2 ^ 30) [] = true ∧ ((List.range 16).all fun q => q == 0 || !s.meetsDomains q 0 4096) = true ∧
      ({ s with parts := s.parts ++ [(3, { Part.zero with domains := [(0, 0x8000000000007C3F)] })] } : State).meetsDomains 3 0 4096 = true ∧ pageLog 12 = none ∧ (2 ^ 51 : Nat) - 4096 + 4096 ≤ 2 ^ 51) ∧
      (s.domainOk 0 255 0x800080000000403F = true ∧ s.domainOk 0 255 0x800000000001403F = false ∧ s.domainOk 0 0 0 = true ∧ s.rangeHas 0 rightW 0 1 = true ∧ s.rangeHas 0 rightW (2 ^ 50) 1 = false ∧
      (s.translate 0 (nodeFirst (s.partAt 0).node) 0 0).1.toOption = some (.hbm 0 0) ∧ s.bring.scale.getLsbD 1 = true ∧ s.rangeHas 0 rightR 0 64 = true ∧
      (s.devRead (s.mailUnit 0) 0 64).toOption.isSome = true ∧ (s.devAsk (s.mailUnit 0) 0 64).isNone = true ∧ (List.range 256).find? (fun q => (s.qpAt 1 q).isNone) = some 0 ∧
      s.walkWaits 0 (nodeFirst (s.partAt 0).node) 0 = false ∧ ({ (tabled (some 2)).setCluster 0 { Cluster.zero with ready := true } with ranges := world.ranges } : State).walkWaits 0 (nodeFirst (s.partAt 0).node) 0 = true) ∧
      (let f := farWorld proc
       let cap : BitVec 128 := 0x30001C01000000000FF0000000002000
       let g : State := { s with hbm := [(0, { Line.zero with cur := { Ver.zero with data := Mem.write [] 0 (natBytes 16 cap.toNat), tags := 1 } })] }
       (f.devAskPiece (f.mailUnit 0) (0x100000, 16) (.readCap false)).isSome = true ∧ (g.devAskPiece (g.mailUnit 0) (0, 16) (.readCap false)).isNone = true ∧
         g.farGranule 0 0 = some (cap, true) ∧ s.farGranule 0 0 = some (0, false) ∧ hCk cap = 3 ∧ bitsOf cap.toNat 95 52 + 1 = 256 ∧ (0x3FFF0000 : Nat) % 65536 = 0 ∧
         0x3FFF0000 + 256 ≤ 2 ^ 51 ∧ g.domainCovers 0 0 257 0x3FFF0000 256 = true ∧ g.domainCovers 0 0 257 0x80000000 256 = false ∧ (g.partAt 0).farMap = [] ∧
         overlaps 0x100000 256 0x100000 256 = true) := by and_intros <;> decide +kernel

/-- Every number of a row is some row's, and none is every row's. -/
theorem witness_rows (n : BitVec 24) : (∃ r, n = rowNum r) ∧ ∃ r, n ≠ rowNum r := by
  have h : n = rowNum (rowIdOf n) := by
    apply BitVec.eq_of_getLsbD_eq
    intro i hi
    simp only [rowNum, rowIdOf, BitVec.getLsbD_append, BitVec.getLsbD_setWidth, BitVec.getLsbD_ofBool, BitVec.getLsbD_extractLsb']
    rcases Nat.lt_trichotomy i 17 with h | h | h
    · simp [h]
    · simp [h]
    · have h1 : ¬i < 17 := by omega
      have h2 : ¬i < 18 := by omega
      have h3 : i - 17 ≠ 0 := by omega
      have h4 : 18 + (i - 17 - 1) = i := by omega
      simp [h1, h3, h4]; omega
  refine ⟨⟨_, h⟩, ?_⟩
  by_cases a : n = rowNum { bank := 0, pc := false, row := 0 }
  · exact ⟨{ bank := 0, pc := false, row := 1 }, by rw [a]; decide⟩
  · exact ⟨_, a⟩

/-- The world with every cluster ready. -/
def whole : State := { world with clusters := (List.range 64).map fun c => (c, { Cluster.zero with ready := true, tc := [(0, 0xA2, 30)] }) }

theorem whole_clusters : ∀ c < 64, whole.partHasCluster 0 c = true ∧ (whole.clusterAt c).ready = true := by decide +kernel

theorem whole_cores (g : Nat) (h : g < 1024) : whole.coreInPart 0 g = true := by
  have a := whole_clusters (clusterOf g) (by simp [clusterOf]; omega)
  have b := whole_clusters (quadOf g / 4) (by simp [quadOf, dieOf]; omega)
  have c : whole.retired = [] := rfl
  simp [State.coreInPart, State.quadLive, Config.numCores, a.1, b.2, c, h]

/-- Whatever a core holds, the descriptor at DVA 0 is read at once, and is zeros. -/
theorem descriptor_here (c : Tbl Core) : let s : State := { whole with cores := c }
    (s.devAsk (s.mailUnit 0) 0 64).isNone = true ∧ (s.devRead (s.mailUnit 0) 0 64).toOption = some (List.replicate 64 0) := ⟨rfl, rfl⟩

/-- Whatever places the descriptor's fields have, some state has the announcement endpoint that QPCREATE asks for. -/
theorem witness_queue_pair :
    let x := descEndpoint (List.replicate 64 0) 2
    let s := whole.setEp x.1 x.2 (endp .empty 3 15 false)
    (s.epAt x.1 x.2).st = .empty ∧ (s.epAt x.1 x.2).ek = 3 ∧ s.coreInPart 0 x.1 = true ∧ (s.devAsk (s.mailUnit 0) 0 64).isNone = true ∧
      (s.devRead (s.mailUnit 0) 0 64).toOption = some (List.replicate 64 0) := by
  intro x s
  have h : s.epAt x.1 x.2 = endp .empty 3 15 false := by simp [s, State.setEp, State.epAt]
  exact ⟨by rw [h]; rfl, by rw [h]; rfl, whole_cores _ (Nat.mod_lt _ (by decide)), descriptor_here s.cores⟩

/-- A queue pair of port 0. -/
def pairOf (reqs : List WorkReq) (err : Bool) (retries : Nat) : Qp :=
  { part := 0, desc := [], comp := (0, 7), deliv := (0, 8), error := err, reqs := reqs, counter := 0, retries := retries, dropped := 0, undelivered := 0, rcv := 5 }

/-- The package before its firmware runs, and one in recovery with a fused minimum of 3; images at, above and below it; units that pass, fail, and have failed; PODCFG written and not; a function in reset, settled and not. -/
theorem witness_bring_up :
    let b := State.reset
    let r : State := { b with bring := { b.bring with state := .recovery, minSvn := 3 } }
    let run : State := { b with bring := { b.bring with state := .running, podWritten := true, sizes := 0x400, pkgid := 0 } }
    let flr (resetting : Bool) : State := world.setPart 1 { Part.zero with node := 0, resetting := resetting, cres := resetting }
    let busy : State := { (base proc) with parts := [(0, Part.zero), (1, { Part.zero with node := 1, resetting := true })] }
    (let pushed : State := { run with bring := { run.bring with pushed := some [] } }
     run.bring.pushed = none ∧ pushed.bring.pushed = some [] ∧ b.bring.pushed = none ∧ (world.askObject firmwareUnit 0 (imageAt 0)).isNone = true ∧
       ((farWorld proc).askObject firmwareUnit 0x100000 (imageAt 0x100000)).isSome = true) ∧ b.bring.state = .booting ∧ (32768 : Nat) % 32768 = 0 ∧ (32768 : Nat) < 2 ^ 51 ∧ r.bring.state ≠ .booting ∧ r.bring.minSvn ≤ 3 ∧ (2 : BitVec 32) < r.bring.minSvn ∧
      (world.bring.state = .running ∧ (world.parts.any fun e => e.2.node != 0) = true) ∧ run.bring.state = .running ∧ (run.clusterAt 63).ready = false ∧ (run.clusterAt 63).failed = false ∧
      (∃ i < 4, 4 * 63 + i ∉ run.retired) ∧ (run.serverAt 255).ready = false ∧ (run.serverAt 255).failed = false ∧
      ((run.setCluster 3 { Cluster.zero with failed := true }).clusterAt 3).failed = true ∧ ((run.setServer 3 { Server.zero with failed := true }).serverAt 3).failed = true ∧
      run.bring.podWritten = true ∧ (run.portAt 0).ready = false ∧ (neighbour 0x400 0 0 true).isSome = true ∧ run.bring.podSynced = false ∧
      (flr false).fnLive 1 = true ∧ ((flr false).partAt 1).resetting = false ∧ ((flr true).partAt 1).resetting = true ∧ ((flr true).holdSettled 1 true && (flr true).partDrained 1) = true ∧
      (busy.holdSettled 1 true && busy.partDrained 1) = false := by decide +kernel

/-- A package of a pod of two, with a port that is up. -/
def pod (f : Port → Port) : State :=
  { world with bring := { world.bring with podWritten := true, pkgid := 0, sizes := 0x400 }, ports := [(0, f { Port.zero with ready := true, state := 2, width := 2, peer := 1 })] }

/-- A packet from package 1 for this package. -/
def packet (b : PacketBody) : Packet := { src := 1, dst := 0, num := 4, dye := 0x10, route := [], vc := false, body := b }

/-- A flit that ends a packet to package 1. -/
def flit (n : BitVec 12) : Flit := { seq := n, pk := { packet (.headerGrant 9) with src := 0, dst := 1 }, left := 0 }

/-- A far read of package 1 that waits. -/
def farRead : GReq :=
  { oid := 5, who := { g := 0, slot := 0, gen := 0 }, dye := 0, part := 0, loc := .far 1 0 0 0, op := .read 8, mode := .current 0, behind := [], behindEq := [] }

/-- Packets for this package that are taken in, whose acknowledgement has a port, and one in transit whose stamp names a port with room and a full one. -/
theorem witness_packets :
    let s := pod id
    let on : Packet := { packet (.headerGrant 9) with src := 1, dst := 1, route := [0] }
    let full := pod fun p => { p with replay := List.replicate 256 (flit 0) }
    (s.portAt 0).state = 2 ∧ (0 : BitVec 12) = (s.portAt 0).rxSeq ∧ (packet (.arrived 3)).dst = s.bring.pkgid ∧ on.dst ≠ s.bring.pkgid ∧
      (∀ b ∈ [PacketBody.access 77 0 0 0 (.load 8), .access 77 0 1 0 (.load 8), .reply 320 (List.replicate 8 3) 0 0 0, .header 77 0 1023 9 4 0 8 (List.replicate 8 1) false false false,
        .headerGrant 5, .headerReply 5 true 0, .headerData 5 [], .arrived 3, .returned 3], (s.packetTaken 0 (packet b)).isSome = true) ∧
      s.routeTo (packet (.arrived 3)).src.toNat = some (0 :: []) ∧ packetTracked (.headerGrant 5) = true ∧ on.route = 0 :: [] ∧
      (s.hopAlive s.bring.pkgid.toNat (0 / 2) (0 % 2 == 0)).isSome = true ∧ (s.portAt 0).replay.length + flitsOf (packetSize on.body) ≤ 256 ∧ (full.packetTaken 0 on).isNone = true := by decide +kernel

/-- A far access allowed, to the last 8 bytes of a line, and one of another epoch; a reply expected; a header whose data is expected. -/
theorem witness_links :
    let s := pod id
    let waiting : State := { s with farOut := [farRead] }
    (s.partAt 0).node ≠ 0 ∧ (s.partAt 0).farEpoch = 0 ∧ (0 : BitVec 8) ≠ 1 ∧
      s.rangeCheck 0 (FarOp.gop (.load 8)).need 0 (FarOp.gop (.load 8)).size = none ∧ 120 % 128 + (FarOp.gop (.load 8)).size ≤ 128 ∧
      (s.translate 0 (nodeFirst (s.partAt 0).node) 0 120).1.toOption = some (.hbm 0 120) ∧
      (s.farOut.all fun r => r.ident != 320) = true ∧ (waiting.farOut.find? fun y => y.ident == 320) = some farRead ∧ farRead.device = false ∧ waiting.tprs = [] ∧
      (waiting.clusters.all fun c => c.2.journal.isEmpty) = true ∧ (waiting.tprs.all fun t => t.asked.all fun y => y.1 != farRead.oid) = true ∧
      ({ s with farIn := [(0, 3, 0, false, { header 8 [] 0 with from_ := .far 1 5 })] } : State).farIn = [(0, 3, 0, false, { header 8 [] 0 with from_ := .far 1 5 })] := by decide +kernel

/-- A replay buffer with the number asked for; ten replays and nine; lanes with and without the spare; errors at the threshold and above. -/
theorem witness_lanes :
    let s := pod id
    let q (again : Nat) : Port := { Port.zero with state := 2, replay := [flit 0], txSeq := 1, again := again }
    ((q 10).acknowledge 0).state = 2 ∧ ((q 10).acknowledge 0).replay = [flit 0] ∧ ((q 10).acknowledge 0).again = 10 ∧ ((q 9).acknowledge 0).again = 9 ∧
      (s.portAt 0).slane = 0x1F ∧ (s.portAt 0).width = 2 ∧ ((pod fun p => { p with slane := 3, failed := [3] }).portAt 0).failed = [3] ∧ (3 : Nat) < 8 ∧ (8 : Nat) ≤ 15 ∧
      ((pod fun p => { p with slane := 8, failed := [8] }).portAt 0).slane ≠ 0x1F ∧ ((pod fun p => { p with state := 3 }).portAt 0).state = 3 ∧
      (0 : Nat) ≤ (s.portAt 0).pthr.toNat ∧ ((pod fun p => { p with pthr := 2 }).portAt 0).pthr.toNat < 3 := by decide +kernel

/-- A header, an access and a source that cannot be reached. -/
theorem witness_unreachable :
    let s := pod id
    let dead (f : State → State) : State := f { s with ports := [], deadPkgs := [1] }
    let lost := dead fun x => { x with farHdrs := [(1, header 8 [] 0)] }
    let asked := dead fun x => { x with farOut := [farRead] }
    let t : Tpr := { third none false none none with src := 0x100000 }
    let source := dead fun x => { x with tprs := [t], parts := (farWorld proc).parts }
    let open_ : State := { s with farHdrs := [(1, header 8 [] 0)] }
    (lost.net.all fun m => lost.stranded m != some 5) = true ∧ (({ (header 8 [] 0) with failed := true } : Hdr).failed = true) ∧
      (asked.tprs.all fun t => t.asked.all fun y => y.1 != 5) = true ∧ farRead.device = false ∧ lost.farHeader 5 = some (1, header 8 [] 0) ∧ lost.unreachable 1 = true ∧ s.unreachable 1 = false ∧ lost.net = [] ∧ lost.farOut = [] ∧ lost.egress = [] ∧
      open_.sourceLost 5 = false ∧ open_.copyLost 5 = false ∧ open_.farHeader 5 = some (1, header 8 [] 0) ∧ open_.net = [] ∧
      (asked.farOut.find? fun y => y.oid == 5) = some farRead ∧ farRead.loc.pkg = some 1 ∧ asked.unreachable 1 = true ∧ asked.farHeader 5 = none ∧
      source.tprs = [t] ∧ source.sourceLost 9 = true ∧ source.farHeader 9 = none ∧ source.farOut = [] := by decide +kernel

/-- A packet that came back from package 1, one that did not, one behind an older one that came back too and one behind an unacknowledged one on another route; a notice owed to package 1. -/
theorem witness_packet_return :
    let x (num : Nat) (route : List Nat) (back : Bool) : Sent := { num := num, dst := 1, pk := { (flit 0).pk with route := route }, back := back }
    let s (l : List Sent) (owed : List (Nat × Nat)) : State := { pod id with unacked := l, owed := owed }
    let a := s [x 6 [0] true] []
    let behind (l : List Sent) : Bool := l.any fun y => y.dst == 1 && ((y.back && decide (y.num < 6)) || (!y.back && y.pk.route != [0]))
    (a.unacked.find? fun y => y.num == 6) = some (x 6 [0] true) ∧ (x 6 [0] false).back = false ∧ a.owed = [] ∧ a.routeTo 1 = some (0 :: []) ∧
      behind a.unacked = false ∧ behind (s [x 5 [0] true, x 6 [0] true] []).unacked = true ∧ behind (s [x 7 [1] false, x 6 [0] true] []).unacked = true ∧
      (a.portAt 0).state ≠ 0 ∧ (a.portAt 0).replay.length + flitsOf (packetSize (x 6 [0] true).pk.body) ≤ 256 ∧ (s [] [(1, 6)]).owed = [(1, 6)] ∧ (s [] [(1, 6)]).unacked = [] ∧
      (s [] [(1, 6)]).routeTo 1 = some (0 :: []) := by decide +kernel

/-- A dead list that leaves no hop of this package, one that takes a hop with flits, and one with a package on which a launch has processes. -/
theorem witness_dead_list :
    let s : State := pod fun p => { p with replay := [{ flit 0 with pk := { packet (.headerGrant 9) with src := 0, dst := 1, num := 6 } }] }
    let far : State := let x := launched proc [] []; { x with launches := x.launches.map fun l => { l with pkgs := [1] } }
    (pod id).bring.state = .running ∧ (pod id).launches = [] ∧ ({ pod id with deadPkgs := [2] } : State).failedHops = [] ∧ ({ s with deadPkgs := [1] } : State).failedHops = [0] ∧
      far.bring.state = .running ∧ far.launches.length = 1 ∧ (far.launches.all fun l => !l.aborting && l.pkgs.any fun p => [1].contains p) = true ∧
      ({ far with deadPkgs := [1] } : State).failedHops = [] := by decide +kernel

/-- Work requests: sound, of an unknown operation, from another partition, to a full ring, and to a pair in ERROR; packets with and without rights; a block for the delivery endpoint; an answer; the seventh and the eighth retransmission. -/
theorem witness_scale_out :
    let w (part op : Nat) : Hdr := { header 64 (natBytes 4 op ++ natBytes 4 64 ++ List.replicate 56 0) 1 with part := part, from_ := .proc { g := 0, slot := 0, gen := 0 } }
    let r : WorkReq := { wid := 3, op := 1, len := 64, ldva := 0, rdva := 0, work := 5, launch := { fn := 0, lid := 0 }, g := 0, dye := 0, sent := true, result := none }
    let s (x : Qp) (h : Hdr) : State := { (world.setQp 0 0 x).setEp 0 8 (endp .empty 1 63 false) with net := [{ src := .core 0, dst := .egress, body := .work 0 0 h }] }
    let a := s (pairOf [] false 0) (w 0 1)
    a.qpAt 0 0 = some (pairOf [] false 0) ∧ (a.takeMsg 0).isSome = true ∧ (w 0 1).from_ = .proc { g := 0, slot := 0, gen := 0 } ∧ (w 1 1).part ≠ (pairOf [] false 0).part ∧ 32 ≤ (pairOf (List.replicate 32 r) false 0).reqs.length ∧
      workOk (w 0 1).bytes = true ∧ workOk (w 0 4).bytes = false ∧ a.workFault (a.scaleUnit 0 0 0) rightR 0 64 = none ∧ a.upsets = [] ∧ a.unitWaits (a.scaleUnit 0 0 0) (splitLines 2 0 64) = false ∧
      ({ (tabled (some 2)).setCluster 0 { Cluster.zero with ready := true } with parts := world.parts } : State).unitWaits (a.scaleUnit 0 0 0) (splitLines 2 0 64) = true ∧ (a.devAsk (a.scaleUnit 0 0 0) 0 64).isNone = true ∧ (a.devRead (a.scaleUnit 0 0 0) 0 64).toOption.isSome = true ∧
      (4 : Nat) ≠ (pairOf [] false 0).rcv ∧ ({ s (pairOf [] false 0) (w 0 1) with parts := (farWorld proc).parts } : State).workFault (a.scaleUnit 0 0 0) rightR 0x100000 64 = none ∧
      (let f : State := { a with parts := (farWorld proc).parts }; (f.devAsk (f.scaleUnit 0 0 0) 0x100000 64).isSome = true) ∧ (a.workFault (a.scaleUnit 0 0 0) rightW (2 ^ 50) 1).isSome = true ∧ (a.epAt 0 8).st ≠ .closed ∧ (a.epAt 0 7).st = .closed ∧
      (a.epAt 0 8).ek = 1 ∧ 64 = (a.epAt 0 8).esz.toNat + 1 ∧ (pairOf [r] false 0).reqs = [r] ∧ r.sent = true ∧ r.result = none ∧ (pairOf [r] false 6).retries < 7 ∧ 7 ≤ (pairOf [r] false 7).retries ∧
      ((pairOf [{ r with sent := false }] false 0).reqs.all fun y => !y.sent || y.result.isSome) = true := by decide +kernel

/-- Each state of a device interface and of the protocol, signatures left and none, a key slot that is this function's and another's. -/
theorem witness_device :
    let s (t : Tdi) (p : Spdm) (left : Nat) : State :=
      { world with fns := [(0, { Fn.zero with enabled := true }), (1, { Fn.zero with enabled := true, tdi := t, spdm := p })], bring := { world.bring with sigLeft := left }
                   keys := [(1, { part := 1, key := 0, fixed := 0, floor := 0, high := 0, mask := 0 }), (63, { part := 2, key := 0, fixed := 0, floor := 0, high := 0, mask := 0 })] }
    (∀ t ∈ [Tdi.unlocked, .locked, .run, .error], (s t .fresh 1).fnLive 1 = true ∧ ((s t .fresh 1).fnAt 1).tdi = t) ∧
      (∀ p ∈ [Spdm.fresh, .version, .capabilities, .negotiated, .exchanging, .session], ((s .run p 1).fnAt 1).spdm = p) ∧
      Spdm.negotiated.agreed = true ∧ Spdm.fresh.agreed = false ∧ measured 0xF0 = true ∧ measured 3 = true ∧ measured 0x80 = false ∧ 0 < (s .run .session 1).bring.sigLeft ∧ (s .run .session 0).bring.sigLeft = 0 ∧
      (Tbl.find (s .run .session 1).keys 1).map (·.part) = some 1 ∧ (Tbl.find (s .run .session 1).keys 63).map (·.part) = some 2 ∧ Tbl.find (s .run .session 1).keys 2 = none := by decide +kernel

/-- A partition held in full whose processes have parked, one that has not, and one whose images are on their way; a hold whose causes are gone; a server with a row that is due by its lost reads or its count, spared, with a full
map, with sparing off; a log with 255 entries, with 256, and with one that waits. -/
theorem witness_holds :
    let x : Part := { Part.zero with node := 1, full := true, stopping := true }
    let s := world.setPart 0 x
    let done := world.setPart 0 { x with held := true }
    let busy := (base proc).setPart 0 x
    let imaged : State := world.setPart 0 { x with imaged := true }
    let out : State := { imaged with devFar := [{ oid := 1, kind := 4, part := 0, dva := 0, len := 1, done := false, cause := none, bytes := [], tags := 0, write := true }] }
    let row : RowId := { bank := 1, pc := true, row := 9 }
    let n := (rowNum row).toNat
    let srv (map : List Word) (thr : BitVec 8) (rows : List (Nat × List Nat)) (lost : List Nat) : Server :=
      { Server.zero with ready := true, spthr := thr, remap := map, rows := rows, lostRows := lost }
    let counted (x : Server) : Nat := ((Tbl.get [] x.rows n).filter fun t => decide (world.time.toNat < t + 86400000000000)).length
    let log (n : Word) (prep : Option Nat) (waiting : List (List Byte)) : State := (tabled prep).setFn 0 { world.fnAt 0 with elprod := n, elbase := 2 ^ 30 - 32 * 255, logWait := waiting }
    let place : Nat := 2 ^ 30
    ((s.partAt 0).node ≠ 0 ∧ (s.partAt 0).full = true ∧ (s.partAt 0).held = false ∧ (s.partAt 0).resetting = false ∧ s.retiring 0 = false ∧ s.holdSettled 0 true = true ∧
      (s.partAt 0).imaged = false ∧ busy.holdSettled 0 true = false) ∧
    ((imaged.partAt 0).imaged = true ∧ imaged.imagesOut 0 = false ∧ out.imagesOut 0 = true ∧ imaged.holdSettled 0 true = true) ∧
    (world.partAt 0).mayResume = false ∧ (done.partAt 0).stopping = true ∧ (done.partAt 0).held = true ∧ done.spilled = [] ∧ done.cores = [] ∧
    ((srv [] 3 [] [n]).ready = true ∧ (srv [] 3 [] [n]).spthr ≠ 0 ∧ n ∈ (srv [] 3 [] [n]).lostRows ∧ 3 ≤ counted (srv [] 3 [(n, [0, 1, 2])] []) ∧ (srv [] 0 [] [n]).spthr = 0 ∧
      counted (srv [] 3 [(n, [0, 1])] []) < 3 ∧ (srv [remapEntry row 0] 3 [] [n]).remap.any (remapNames row) = true ∧ 32 ≤ (srv (List.replicate 32 0) 3 [] [n]).remap.length ∧
      (srv (List.replicate 32 0) 3 [] [n]).remap.any (remapNames row) = false ∧ world.hbmHome (0 * 128) = some 0 ∧ world.hbmHome (2 ^ 33 * 128) = none) ∧
    ((((log 255 none []).fnAt 0).elprod - ((log 255 none []).fnAt 0).elcons).toNat < 256 ∧ 256 ≤ (((log 256 none []).fnAt 0).elprod - ((log 256 none []).fnAt 0).elcons).toNat ∧
      ((log 255 none []).fnAt 0).elbase.toNat + 32 * (255 % 256) = place ∧ (log 255 none []).hostWaits place = false ∧ (log 255 (some 2) []).hostWaits place = true ∧
      ((log 255 none [[]]).fnAt 0).logWait ≠ [] ∧ ((log 255 none []).hostAddr place).isSome = true ∧ (world.partOfCore 0) = some 0) := by decide +kernel

/-! Witnesses: encodings and the step. -/

/-- A well-formed instruction of each tail size, each alone in a line. -/
theorem witness_encode :
    let l : List Instr := [.nop, .add 1 2 3, .addi 1 2 (-4096), .ldg 2 1 true true 5 2 (-65536), .moviX 5 0x0123456789ABCDEF, .vadd { v123 with inc := 7 }]
    l.all (fun i => i.wf && !i.isEvent && match encode i with
      | some (hd, t) => (decode hd t).toOption == some i && lineWf (halfWords (oneHeadLine hd t)) && (decodeLine (halfWords (oneHeadLine hd t)) 1).toOption == some i
      | none => false) = true := by decide +kernel

/-- The turn of core 0 with the entered line of an ADD, with a line to enter, with a line outside the segment to enter, and with a line of zeros. -/
theorem witness_step :
    let line := oneHeadLine 0x4044 0x2300
    let s0 := (base proc).setCore 0 (((base proc).coreAt 0).lmWrite 0 line)
    let s (entered : Bool) (p : Proc) : State := { s0 with
      agenda := [.core 0], cores := [(0, { s0.coreAt 0 with procs := [(0, p)], fb := { (s0.coreAt 0).fb with cur := some (0, line), entered := entered } })] }
    let out : Proc := { proc with pc := 0x1001 }
    let t (x : State) : State := { x with agenda := [], cycle := 1, cur := 0 }.setCore 0 { x.coreAt 0 with sliceCnt := 1 }
    ((s true proc).agenda = .core 0 :: [] ∧ (s true proc).coreRuns 0 = true ∧ (s true proc).partOfCore 0 = some 0 ∧ ((s true proc).partAt 0).stopping = false ∧ (s true proc).launches = [] ∧
      ((s true proc).coreAt 0).run = some 0 ∧ (s true proc).procAt 0 0 = proc ∧ proc.faults = [] ∧ proc.blk = .none ∧ proc.pri = 0 ∧ ((s true proc).coreAt 0).sliceCnt + 1 < 4096 ∧
      ((s true proc).coreAt 0).fb.prefetch = none) ∧
    (((s true proc).coreAt 0).fb.entered = true ∧ (decodeLine (((s true proc).coreAt 0).curLine proc) (headOf proc.pc)).toOption = some (.add 1 2 3) ∧
      ((s false proc).coreAt 0).fb.entered = false ∧ ((t (s false proc)).enter 0 proc).toOption.isSome = true ∧ ((t (s false out)).enter 0 out).toOption.isSome = false) ∧
    (let fell (f : Bool) : FetchBuf := { ((s false proc).coreAt 0).fb with fell := f, prefetch := some (0, 5) }
     (fell true).entered = false ∧ (fell true).fell = true ∧ (fell true).prefetch = some (proc.pc.toNat / 64 * 64, 5) ∧ (0 : Nat) + 1 < 5 ∧ (fell false).fell = false) := by decide +kernel

/-- The steps from reset go on, and a step of ADD staged after reset is exec's. -/
theorem witness_reset : State.reset.memOk = true ∧ (Tbl.get 0 State.reset.ranges 0) = 0 := by decide

theorem witness_memory_kept : ∃ t, step State.reset = .next t ∧ State.reset.memOk = true := ⟨_, rfl, by decide⟩

/-- After reset with ADDI 1, 2, -1 placed (05 R197, 06 R230), the very next step runs it: register 1 is all ones. -/
theorem test_staged_addi :
    (match step (State.reset.withFetchWord 32 0x43042FFF) with
      | .next t => (t.procAt t.cur 0).reg 1 == 0xFFFFFFFFFFFFFFFF && (t.procAt t.cur 0).reg 2 == 0
      | _ => false) = true := by decide +kernel

end Sys2Proof.Tests
end

/-! SUPPORT. The stages of a release (03 R139) one by one, and what FENCE and FENCER answer at each of them (03 R142, R143). -/

namespace Sys2Proof.Machine

variable {s : State} {g k : Nat} {p : Proc} {scope : Nat} {range : Option (Nat × Nat)} {f : Proc → Res}

/-! The conditions that the stages test. -/

/-- Direct stores and reductions are always waited for, queued stores from .PKG up, far ones never (03 R130, R139). -/
theorem Proc.settled_iff (p : Proc) (m : BitVec 2) (range : Option (Nat × Nat)) :
    p.settled m.toNat range = true ↔
      (∀ o ∈ p.outs, inRange range o.ea.toNat o.len = false) ∧
      ∀ x ∈ p.stores, inRange range x.ea.toNat x.len = false ∨ x.kind = .far ∨ (x.kind = .queued ∧ m = 0) := by
  have below : m.toNat < scopePkg ↔ m = 0 := by
    rw [← BitVec.toNat_inj, scopePkg]; simp
  simp only [Proc.settled, Bool.and_eq_true, List.all_eq_true, Bool.or_eq_true, Bool.not_eq_true']
  refine and_congr_right fun _ => forall₂_congr fun x _ => or_congr_right ?_
  cases x.kind <;> simp [below]

theorem drainedTo_iff (q : List WqE) (mark : Nat) (range : Option (Nat × Nat)) :
    drainedTo q mark range = true ↔ ∀ x ∈ q, mark ≤ x.seq ∨ inRange range x.ea x.bytes.length = false := by
  simp [drainedTo]

theorem markAt_eq (q : List WqE) (next : Nat) (range : Option (Nat × Nat)) :
    markAt q next range = if range.isSome ∧ ∀ x ∈ q, inRange range x.ea x.bytes.length = false then 0 else next := by
  simp [markAt]

/-! The stages. -/

/-- The process with its floor raised to the largest stamp acknowledged of the writes in the range (02 R102). -/
def Proc.raisedBy (p : Proc) (range : Option (Nat × Nat)) : Proc :=
  { p with floor := BitVec.ofNat 64 (max p.floor.toNat (p.ackedIn range)) }

/-- The process waits at its drain markers, at w in the cluster's queue and at e in the egress queue. -/
def Proc.atMarks (p : Proc) (w : Nat) (e : Option Nat) : Proc := { p with wait := .marks p.pc w e }

/-- Loads or writes in the range are still on their way. -/
theorem State.afterRelease_unsettled (unsettled : p.settled scope range = false) : s.afterRelease g k p scope range f = .next s := by
  simp [State.afterRelease, State.releaseSteps, unsettled, State.stall]

/-- Below .PKG a release places no marker and raises no floor. -/
theorem State.afterRelease_belowPkg (below : scope < scopePkg) (settled : p.settled scope range = true)
    (seen : p.vseen.toNat ≤ (s.coreAt g).vheld) : s.afterRelease g k p scope range f = f p := by
  simp [State.afterRelease, State.releaseSteps, settled, below, seen]

section PkgOrWider

variable (pkg : scopePkg ≤ scope) (settled : p.settled scope range = true)
include pkg settled

/-- From .PKG up a release first places its marker in the cluster's queue. -/
theorem State.afterRelease_places (unmarked : ∀ pc w e, p.wait ≠ .marks pc w e) :
    s.afterRelease g k p scope range f =
      .next (s.setProc g k (p.atMarks (markAt (s.clusterAt (g / 16)).wq (s.clusterAt (g / 16)).wqSeq range) none)) := by
  cases marked : p.wait with
  | marks pc w e => exact absurd marked (unmarked pc w e)
  | _ => simp [State.afterRelease, State.releaseSteps, settled, Nat.not_lt.mpr pkg, marked, clusterOf, Proc.atMarks]

variable {w : Nat} (drained : drainedTo (s.clusterAt (g / 16)).wq w range = true)
include drained

/-- Wider than .PKG it then places one in the egress queue. -/
theorem State.afterRelease_placesEgress (wider : scope ≠ scopePkg) (marked : p.wait = .marks p.pc w none) :
    s.afterRelease g k p scope range f = .next (s.setProc g k (p.atMarks w (some (markAt s.egress s.egressSeq range)))) := by
  simp [State.afterRelease, State.releaseSteps, settled, Nat.not_lt.mpr pkg, marked, clusterOf, drained, wider, Proc.atMarks]

variable {e : Option Nat} (marked : p.wait = .marks p.pc w e) (seen : p.vseen.toNat ≤ (s.coreAt g).vheld)
include marked seen

/-- It is done, with the floor raised, when the queues of its scope have drained and V has reached VSEEN. -/
theorem State.afterRelease_done (egress : scope = scopePkg ∨ ∃ m, e = some m ∧ drainedTo s.egress m range = true) :
    s.afterRelease g k p scope range f = f (p.raisedBy range) := by
  rcases egress with rfl | ⟨m, rfl, left⟩
  · simp [State.afterRelease, State.releaseSteps, settled, marked, clusterOf, drained, seen, Proc.raisedBy]
  · simp [State.afterRelease, State.releaseSteps, settled, Nat.not_lt.mpr pkg, marked, clusterOf, drained, left, seen, Proc.raisedBy]

end PkgOrWider

/-! FENCE and FENCER as releases without a write. -/

/-- The release that a fence performs before it completes. -/
def State.fenceRelease (s : State) (g k : Nat) (p : Proc) (m : BitVec 2) (range : Option (Nat × Nat)) : Res :=
  s.afterRelease g k p m.toNat range fun q => .next (s.retire g k q)

theorem execFence_eq (h : s.Runs g k p) (m : BitVec 2) : execFence m s = s.fenceRelease g k p m none :=
  State.withProc_eq h _

section Fencer

variable (h : s.Runs g k p) {b c : Reg} (ready : p.awaits [b, c] = false) (idle : p.acquiring = false) (m : BitVec 2)
include h ready idle

/-- FENCER's checks in their order: the base, the length, the end of the range (03 R143). -/
theorem execFencer_eq : execFencer m b c s =
    if 2 ^ 52 ≤ (p.reg b).toNat then .next (s.trap g k p .bounds (p.reg b))
    else if (p.reg c).toNat = 0 then .next (s.retire g k p)
    else if 2 ^ 52 < (p.reg b).toNat + (p.reg c).toNat then .next (s.trap g k p .bounds (p.reg b))
    else s.fenceRelease g k p m (some ((p.reg b).toNat, (p.reg c).toNat)) := by
  rw [execFencer, State.withProc_eq h, if_neg (by simp [ready, idle])]
  rfl

/-- A FENCER of bytes within the address space is the release of its range. -/
theorem execFencer_of_range (low : (p.reg b).toNat < 2 ^ 52) (bytes : 0 < (p.reg c).toNat) (high : (p.reg b).toNat + (p.reg c).toNat ≤ 2 ^ 52) :
    execFencer m b c s = s.fenceRelease g k p m (some ((p.reg b).toNat, (p.reg c).toNat)) := by
  rw [execFencer_eq h ready idle, if_neg (Nat.not_le.mpr low), if_neg (Nat.ne_of_gt bytes), if_neg (Nat.not_lt.mpr high)]

/-- An empty range bears on no access: the FENCER completes. -/
theorem execFencer_of_empty (low : (p.reg b).toNat < 2 ^ 52) (empty : (p.reg c).toNat = 0) : execFencer m b c s = .next (s.retire g k p) := by
  rw [execFencer_eq h ready idle, if_neg (Nat.not_le.mpr low), if_pos empty]

/-- A range that leaves the address space traps. -/
theorem execFencer_of_outside (outside : 2 ^ 52 ≤ (p.reg b).toNat ∨ (0 < (p.reg c).toNat ∧ 2 ^ 52 < (p.reg b).toNat + (p.reg c).toNat)) :
    execFencer m b c s = .next (s.trap g k p .bounds (p.reg b)) := by
  rw [execFencer_eq h ready idle]
  by_cases low : 2 ^ 52 ≤ (p.reg b).toNat
  · rw [if_pos low]
  · obtain ⟨bytes, high⟩ := outside.resolve_left low
    rw [if_neg low, if_neg (Nat.ne_of_gt bytes), if_pos high]

end Fencer

/-- Settles O21: FENCE and FENCER are the release of their range, whose stages answer one by one. -/
theorem fenceResults : Obligations.FenceResults := by
  intro s g k p b c h wq place waits raised base len clear runs
  have release (i : BitVec 2 → Instr) (range : Option (Nat × Nat)) (eq : ∀ m, exec (i m) s = s.fenceRelease g k p m range) : runs i range := by
    have settled (m : BitVec 2) : p.settled m.toNat range = true ↔ clear m range := p.settled_iff m range
    have marker (q : List WqE) (next : Nat) : markAt q next range = place q next range := markAt_eq q next range
    refine ⟨fun m unclear => ?waiting, fun clear0 seen => ?belowPkg, fun m wide clearM unmarked => ?places,
      fun w e clear1 marked drained seen => ?donePkg, fun m w wider clearM marked drained => ?placesEgress,
      fun m w e wider clearM marked drained left seen => ?doneWider, rfl, fun _ => rfl⟩
    case waiting =>
      exact (eq m).trans (State.afterRelease_unsettled (Bool.eq_false_iff.mpr (mt (settled m).mp unclear)))
    case belowPkg =>
      exact (eq 0).trans (State.afterRelease_belowPkg Nat.zero_lt_one ((settled 0).mpr clear0) seen)
    case places =>
      have pkg : scopePkg ≤ m.toNat := Nat.pos_of_ne_zero fun z => wide (BitVec.eq_of_toNat_eq z)
      rw [eq, State.fenceRelease, State.afterRelease_places pkg ((settled m).mpr clearM) unmarked, marker]
      rfl
    case donePkg =>
      exact (eq 1).trans (State.afterRelease_done (Nat.le_refl scopePkg) ((settled 1).mpr clear1) ((drainedTo_iff _ _ _).mpr drained) marked seen (.inl rfl))
    case placesEgress =>
      rw [eq, State.fenceRelease,
        State.afterRelease_placesEgress (Nat.le_of_lt wider) ((settled m).mpr clearM) ((drainedTo_iff _ _ _).mpr drained) (Nat.ne_of_gt wider) marked, marker]
      rfl
    case doneWider =>
      exact (eq m).trans (State.afterRelease_done (Nat.le_of_lt wider) ((settled m).mpr clearM) ((drainedTo_iff _ _ _).mpr drained) marked seen
        (.inr ⟨e, rfl, (drainedTo_iff _ _ _).mpr left⟩))
  refine ⟨release _ none fun m => execFence_eq h m, fun ready idle => ⟨fun low bytes high => ?within, fun m low empty => ?empty, fun m outside => ?outside⟩⟩
  case within => exact release _ _ fun m => execFencer_of_range h ready idle m low bytes high
  case empty => exact execFencer_of_empty h ready idle m low empty
  case outside => exact execFencer_of_outside h ready idle m outside

end Sys2Proof.Machine
